-- ==== Sys2Proof/Word.lean ====
section
/-! DEFINITION. The machine's words (spec 00_scope R2, R3): a byte is 8 bits, a word 32, a dword 64. -/

namespace Sys2Proof

/-- A byte, 8 bits (R3). -/
abbrev Byte := BitVec 8

/-- A dword, the width of a scalar register (R3, R96). -/
abbrev Word := BitVec 64

/-- A 32-bit word: an instruction word or one vector lane (R32, R243). -/
abbrev W32 := BitVec 32

/-- A register field of an instruction word (R33, R45). -/
abbrev Reg := BitVec 5

end Sys2Proof
end

