-- ==== Sys2Proof/Syntax.lean ====
section
/-! DEFINITION. Operand bundles of the base and extension words (spec 03_encoding R33-R37), the payloads of
the events (95_what_each_step_holds) and `Instr`, one constructor for each row of spec/opcode_table.json. -/

namespace Sys2Proof

/-- Names a strand: its core (0-255 compute, 256 + d the supervisor core of die d; R12) and its wheel position
(0-15, 16 the Hasp strand; 0 for a supervisor strand; R115). -/
structure SId where
  core : Nat
  pos : Nat
deriving DecidableEq, Repr

/-- The operand fields of a format R base word (R33). -/
structure RF where
  d : Reg
  a : Reg
  b : Reg
  ta : Bool
  tb : Bool
  qf : BitVec 2
deriving DecidableEq, Repr

/-- The operand fields of a format I base word (R33, R35). -/
structure IForm where
  d : Reg
  a : Reg
  ta : Bool
  imm : BitVec 9
deriving DecidableEq, Repr

/-- The operand fields of a format CI base word (R33). -/
structure CIForm where
  a : Reg
  ta : Bool
  imm : BitVec 10
  sk : BitVec 2
  op : BitVec 5
deriving DecidableEq, Repr

/-- The extension words E1, field by field, and E2 (R36, R37). -/
structure Ext where
  handle : BitVec 16
  scope : BitVec 4
  order : BitVec 3
  mask : BitVec 3
  type : BitVec 4
  xm : BitVec 2
  e2 : BitVec 32
deriving DecidableEq, Repr

/-- Whose register space or chain instance an effect concerns: a crew by its task index, or the Hasp strand (R203). -/
inductive Owner where
  | crew (task : Nat)
  | hasp
  | chain7
deriving DecidableEq, Repr

/-- The four flags and the count of one window lane (R78, R255). -/
structure WLane where
  nan : Bool
  pinf : Bool
  ninf : Bool
  ovf : Bool
  count : Nat
deriving DecidableEq, Repr

/-- What a long-latency producer writes when it completes (R61 Deliver): scalar registers, runs of bytes of
register space with the bytes that are written, lines that turn full, and window state (R256). -/
structure Delivery where
  sid : SId
  owner : Owner
  sregs : List (Reg × Word)
  bytes : List (Nat × List Byte × List Bool)
  lines : List Nat
  win : List (Nat × Nat × WLane)
deriving DecidableEq, Repr

/-- A shared-map operation on its way to the home NMU (R163, R165). -/
structure SMapOp where
  sid : SId
  pid : Nat
  map : Nat
  kind : Nat
  pin : Bool
  key : Word
  check : BitVec 32
  value : BitVec 32
  task : Nat
  d : Reg
  pc : Word
  /-- the append of its result, if the name of d is bound (R136) -/
  app : Option Nat := none
deriving DecidableEq, Repr

/-- An engine entry: the core, whose instance, the chain and the ticket (R203, R206). -/
structure EntryRef where
  core : Nat
  owner : Owner
  chain : Nat
  ticket : Nat
deriving DecidableEq, Repr

/-- A channel instruction on its way to the channel's home (R278). -/
structure ChanOp where
  sid : SId
  pid : Nat
  chan : Nat
  val : Word
  d : Reg
  a : Reg
  serial : Nat
deriving DecidableEq, Repr

/-- The reply of a channel home (R275, R278): registers to write, or Channel Closed. -/
structure ChanReply where
  sid : SId
  serial : Nat
  closed : Bool
  regs : List (Reg × Word)
deriving DecidableEq, Repr

/-- A barrier instruction on its way to the group's home (R290): `drop` for BDROP, `sync` for BSYNC; a BWAIT, which
arrives nowhere, names the phase it waits for. -/
structure BarOp where
  sid : SId
  pid : Nat
  task : Nat
  group : Nat
  memb : Nat
  drop : Bool
  sync : Bool
  phase : Option Nat
  d : Reg
  serial : Nat
deriving DecidableEq, Repr

/-- The reply of a barrier home (R290): the phase, or a refused arrival; `arrival` for one that counted, `ends` when the
instruction is done. -/
structure BarReply where
  sid : SId
  memb : Nat
  refused : Bool
  phase : Nat
  arrival : Bool
  ends : Bool
  d : Reg
  serial : Nat
deriving DecidableEq, Repr

/-- A partial sum of the contributions that met at a switch (R329, R331): the devices they come from, what the root acknowledges of
each (device, interface, sequence number), contributions of each block, and the lanes' exact windows. -/
structure PartSum where
  devs : List Nat
  acks : List (Nat × Nat × Nat)
  counts : List Nat
  lanes : List (Int × WLane)
deriving DecidableEq, Repr

/-- A fabric message (R317): header fields and payload flits, each with its validity (R323). -/
structure Msg where
  dst : Nat
  src : Nat
  cls : Nat
  op : Nat
  pid : Nat
  pseq : Nat
  budget : Nat
  group : Nat
  gseq : Nat
  addr : Nat
  tag : Nat
  opnd : Nat
  pay : List (Bool × Nat)
  /-- what stands in the header's reserved fields (R317) -/
  resv : Nat := 0
  /-- it ends in a poison tail: its last flit has not left (R319, R363) -/
  poisoned : Bool := false
  /-- the series of pair numbers that its own belongs to, the resets of its interface so far (R363; log 12) -/
  series : Nat := 0
  /-- it is an end-to-end resend, and the detours it has taken (R316, R319; log 12) -/
  again : Bool := false
  detours : Nat := 0
  /-- a partial sum of contributions, in the place of a payload (R329, R331; log 12) -/
  part : Option PartSum := none
deriving DecidableEq, Repr

/-- A multicast store on its way to the sequencer (R326). -/
structure McstOp where
  sid : SId
  pid : Nat
  group : Nat
  word : Nat
  val : Word
  rel : Bool
  d : Reg
  serial : Nat
deriving DecidableEq, Repr

/-- One member's contribution to a reduction round (R329): the bit patterns of the lanes, whether the type is .bf16,
and the 64-byte blocks that arrived valid. -/
structure RedOp where
  pid : Nat
  group : Nat
  round : Nat
  member : Nat
  bf16 : Bool
  lanes : List W32
  blocks : BitVec 8
  /-- a partial sum: its windows and counts, and the members in it besides `member` -/
  part : Option PartSum := none
  more : List Nat := []
deriving DecidableEq, Repr

/-- The result of a reduction round at a contributor (R329-R331). -/
structure RedResult where
  pid : Nat
  group : Nat
  round : Nat
  failed : Bool
  missing : Nat
  lanes : List W32
  image : List (Int × WLane)
  counts : List Nat
deriving DecidableEq, Repr

/-- A 64-byte submission entry, field by field (R382); `bad` says that a reserved field is nonzero. -/
structure SubEntry where
  dbg : Bool
  tag : Nat
  pid : Nat
  addr : Nat
  nonce : List Byte
  bad : Bool
deriving DecidableEq, Repr

/-- A 64-byte mailbox message, its first five dwords (R359). -/
structure MboxMsg where
  d0 : Word
  pc : Word
  info : Word
  info2 : Word
deriving DecidableEq, Repr

/-- One constructor for each row of spec/opcode_table.json.
First the event rows, whose constructors name what the event acts on (95_what_each_step_holds), then the instruction
rows, whose operands are the fields of their words; each part is in the table's order. -/
inductive Instr where
  | streamElementLand (sid : SId) (q : Nat)
  | sharedMapHomeAction (op : SMapOp)
  | atomicHomeApply (req : Nat)
  | lockAttempt (req : Nat)
  | lockRetry (req : Nat)
  | syncAttempt (req : Nat)
  | waitneWake (req : Nat)
  | waitneTimeout (req : Nat) (serial : Nat)
  | chainEntryStart (core : Nat) (engine : Nat)
  | chain7StorageGrant (core : Nat)
  | copyTransfer (core : Nat)
  | engineGranuleLand (core : Nat) (granule : Nat) (data : List Byte) (e : EntryRef)
  | entryComplete (e : EntryRef)
  | markerComplete (e : EntryRef)
  | lateFault (e : EntryRef) (code : Nat)
  | gatherRowLand (e : EntryRef) (row : Nat)
  | tileRecordStart (core : Nat)
  | kGroupApply (core : Nat) (engine : Nat)
  | drainStart (core : Nat) (engine : Nat)
  | drainRow (core : Nat) (engine : Nat)
  | sideDrain (core : Nat) (engine : Nat)
  | bulkReduceVector (e : EntryRef)
  | sendAtHome (op : ChanOp)
  | eosAtHome (op : ChanOp)
  | recvAtHome (op : ChanOp)
  | recvnbAtHome (op : ChanOp)
  | channelReply (r : ChanReply)
  | channelCycle (pid : Nat) (chan : Nat)
  | sendStall (op : ChanOp)
  | parkRegister (core : Nat) (task : Nat) (chan : Nat)
  | parkTakeEffect (core : Nat) (task : Nat)
  | barrierArriveAtHome (op : BarOp)
  | implicitDrop (pid : Nat) (task : Nat) (memb : Nat)
  | barrierReply (r : BarReply)
  | lostEosEnqueue (pid : Nat) (chan : Nat)
  | mcstSequence (op : McstOp)
  | multicastApply (pid : Nat) (group : Nat) (n : Nat) (word : Nat) (val : Word)
  | multicastAckTimeout (pid : Nat) (group : Nat) (member : Nat)
  | reduceCombine (op : RedOp)
  | reduceRoundTimeout (pid : Nat) (group : Nat) (round : Nat)
  | reduceResultDeliver (r : RedResult)
  | issueTurn (core : Nat)
  | deliver (p : Delivery)
  | yieldEnd (sid : SId)
  | spinWake (sid : SId)
  | spinTimeout (sid : SId) (serial : Nat)
  | layoutCacheFill (core : Nat) (pid : Nat) (handle : Nat)
  | translationWalk (req : Nat) (elem : Nat)
  | faultBufferRecord (die : Nat) (pid : Nat) (page : Nat) (kind : Nat)
  | homeApply (req : Nat) (elem : Nat)
  | redirect (req : Nat) (elem : Nat)
  | remoteSlotAccess (req : Nat) (elem : Nat)
  | hostSpaceAccess (req : Nat) (elem : Nat)
  | hostMemoryAccess (write : Bool) (addr : Nat) (data : List Byte)
  | migSrcWrite (v : Word)
  | migrationDone
  | migFreeWrite (v : Word)
  | migrationMarkClear (frame : Nat)
  | dispatchPlace (die : Nat)
  | jobChangeClearDone (core : Nat)
  | poolEntryHold (die : Nat) (pid : Nat) (task : Nat)
  | jobComplete (pid : Nat)
  | handlerEntry (sid : SId)
  | chainCtlRetry (core : Nat) (owner : Owner) (chain : Nat)
  | chainCtlSkip (core : Nat) (owner : Owner) (chain : Nat)
  | chainCtlCancel (core : Nat) (owner : Owner) (chain : Nat)
  | crewCtlPreempt (core : Nat) (pos : Nat)
  | crewCtlKill (core : Nat) (pos : Nat)
  | crewCtlResume (core : Nat) (pos : Nat)
  | mailboxPost (die : Nat) (m : MboxMsg)
  | niCtlReset (core : Nat)
  | niSelfReset (core : Nat)
  | niResetDone (core : Nat)
  | preemptDeferExpire (core : Nat) (task : Nat)
  | preemptTakeEffect (core : Nat) (task : Nat)
  | contextSaveDone (core : Nat) (task : Nat)
  | contextRestore (core : Nat) (pid : Nat) (task : Nat)
  | haspCtlGo (core : Nat) (v : Word)
  | haspCtlStop (core : Nat)
  | haspRunnable (core : Nat)
  | crTargetWrite (sid : SId) (v : Word)
  | slotErasedWrite (core : Nat) (v : Word)
  | slotErasedPassDone (core : Nat)
  | patrolScrub (core : Nat)
  | linkStateDown (port : Nat)
  | linkStateRetrain (port : Nat)
  | linkRetrainDone (port : Nat)
  | fabCountRead
  | messageInject (core : Nat)
  | switchForward
  | linkReplay (port : Nat) (good : Bool)
  | endToEndResend (core : Nat) (dst : Nat) (pseq : Nat)
  | messageArrive (m : Msg)
  | acknowledgeArrive (core : Nat) (dst : Nat) (pseq : Nat)
  | sleetBudgetExpire (index : Nat) (flit : Nat)
  | sleetWriteLand (m : Msg)
  | cutCtlStart (v : Word)
  | cutCtlRelease
  | cutCtlAbort
  | cutTaskRecord (pid : Nat) (task : Nat)
  | cutPortMarker (port : Nat) (epoch : Nat)
  | sqTailDoorbell (v : Word)
  | nop (e : SubEntry)
  | launch (e : SubEntry)
  | launchCheckDone (pid : Nat)
  | kill (e : SubEntry)
  | attest (e : SubEntry)
  | unlock (e : SubEntry)
  | fwload (e : SubEntry)
  | completionWrite
  | dbgReqWrite (v : Word)
  | dbgReqApply
  | dbgCmdRead (v : Word)
  | dbgCmdWrite (v : Word)
  | hostReplay
  | pwrReqActive
  | pwrReqRetention
  | pwrReqOff
  | powerStateEnter
  | idleEnter
  | powerWake
  | powerThrottle
  | registerWrite (off : Nat) (v : Word)
  | powerOn
  | deviceReset
  | powerThrottleEnd
  | sleetPartialForward (pid : Nat) (group : Nat) (round : Nat)
  | cxlCacheSnoop (line : Nat) (data : Option (List Byte))
  | zeroWord
  | breakWord
  | add (f : RF)
  | sub (f : RF)
  | mul (f : RF)
  | mulh (f : RF)
  | div (f : RF)
  | rem (f : RF)
  | and (f : RF)
  | or (f : RF)
  | xor (f : RF)
  | shl (f : RF)
  | shr (f : RF)
  | sha (f : RF)
  | min (f : RF)
  | max (f : RF)
  | clz (f : RF)
  | popc (f : RF)
  | sext (f : RF)
  | addLiteral (f : RF) (lit : Word)
  | subLiteral (f : RF) (lit : Word)
  | mulLiteral (f : RF) (lit : Word)
  | mulhLiteral (f : RF) (lit : Word)
  | divLiteral (f : RF) (lit : Word)
  | remLiteral (f : RF) (lit : Word)
  | andLiteral (f : RF) (lit : Word)
  | orLiteral (f : RF) (lit : Word)
  | xorLiteral (f : RF) (lit : Word)
  | shlLiteral (f : RF) (lit : Word)
  | shrLiteral (f : RF) (lit : Word)
  | shaLiteral (f : RF) (lit : Word)
  | minLiteral (f : RF) (lit : Word)
  | maxLiteral (f : RF) (lit : Word)
  | addImmediate (f : IForm)
  | subImmediate (f : IForm)
  | mulImmediate (f : IForm)
  | andImmediate (f : IForm)
  | orImmediate (f : IForm)
  | xorImmediate (f : IForm)
  | shlImmediate (f : IForm)
  | shrImmediate (f : IForm)
  | shaImmediate (f : IForm)
  | mov (f : RF)
  | li (f : RF) (lit : Word)
  | bfx (f : RF) (x : Ext)
  | bfi (f : RF) (x : Ext)
  | mix (f : RF)
  | cmp (f : RF) (op : BitVec 5)
  | cmpLiteral (f : RF) (op : BitVec 5) (lit : Word)
  | cmpImmediate (f : CIForm)
  | b (off : BitVec 22)
  | bl (off : BitVec 22)
  | br (f : RF)
  | blr (f : RF)
  | ret
  | loop (f : RF) (x : Ext)
  | lbrk
  | fadd (f : RF)
  | fsub (f : RF)
  | fmul (f : RF)
  | fdiv (f : RF)
  | fmin (f : RF)
  | fmax (f : RF)
  | fsqrt (f : RF)
  | fma (f : RF)
  | cvtfi (f : RF)
  | cvtfn (f : RF)
  | cvtif (f : RF)
  | cvtnf (f : RF)
  | fclass (f : RF)
  | fexp2 (f : RF)
  | flog2 (f : RF)
  | frcp (f : RF)
  | frsq (f : RF)
  | fcmp (f : RF) (op : BitVec 5)
  | vadd (f : RF)
  | vsub (f : RF)
  | vmul (f : RF)
  | vmin (f : RF)
  | vmax (f : RF)
  | vand (f : RF)
  | vor (f : RF)
  | vxor (f : RF)
  | vshl (f : RF)
  | vshr (f : RF)
  | vsha (f : RF)
  | vdiv (f : RF)
  | vaddExt (f : RF) (x : Ext)
  | vsubExt (f : RF) (x : Ext)
  | vmulExt (f : RF) (x : Ext)
  | vminExt (f : RF) (x : Ext)
  | vmaxExt (f : RF) (x : Ext)
  | vandExt (f : RF) (x : Ext)
  | vorExt (f : RF) (x : Ext)
  | vxorExt (f : RF) (x : Ext)
  | vshlExt (f : RF) (x : Ext)
  | vshrExt (f : RF) (x : Ext)
  | vshaExt (f : RF) (x : Ext)
  | vdivExt (f : RF) (x : Ext)
  | vfma (f : RF)
  | vfms (f : RF)
  | vabs (f : RF)
  | vneg (f : RF)
  | vsqrt (f : RF)
  | vsel (f : RF)
  | vfmaExt (f : RF) (x : Ext)
  | vfmsExt (f : RF) (x : Ext)
  | vabsExt (f : RF) (x : Ext)
  | vnegExt (f : RF) (x : Ext)
  | vsqrtExt (f : RF) (x : Ext)
  | vselExt (f : RF) (x : Ext)
  | vcmp (f : RF) (op : BitVec 5)
  | vcmpExt (f : RF) (op : BitVec 5) (x : Ext)
  | mand (f : RF)
  | mor (f : RF)
  | mxor (f : RF)
  | mnot (f : RF)
  | mpopc (f : RF)
  | vcvt (f : RF) (op : BitVec 5)
  | vcvtExt (f : RF) (op : BitVec 5) (x : Ext)
  | vexp2 (f : RF)
  | vlog2 (f : RF)
  | vrcp (f : RF)
  | vrsq (f : RF)
  | vexp (f : RF)
  | vexp2Ext (f : RF) (x : Ext)
  | vlog2Ext (f : RF) (x : Ext)
  | vrcpExt (f : RF) (x : Ext)
  | vrsqExt (f : RF) (x : Ext)
  | vexpExt (f : RF) (x : Ext)
  | vrsum (f : RF)
  | vrmax (f : RF)
  | vrmin (f : RF)
  | vscan (f : RF)
  | vscanX (f : RF)
  | vrsumExt (f : RF) (x : Ext)
  | vrmaxExt (f : RF) (x : Ext)
  | vrminExt (f : RF) (x : Ext)
  | vscanExt (f : RF) (x : Ext)
  | vscanXExt (f : RF) (x : Ext)
  | vperm (f : RF)
  | vpermRotate (f : RF) (x : Ext)
  | vbcast (f : RF)
  | vbcastExt (f : RF) (x : Ext)
  | vins (f : RF)
  | vinsImmediate (f : RF) (x : Ext)
  | vext (f : RF)
  | vextImmediate (f : RF) (x : Ext)
  | vtrans (f : RF)
  | viota (f : RF)
  | viotaExt (f : RF) (x : Ext)
  | vtopkAdd (f : RF)
  | vtopkAddExt (f : RF) (x : Ext)
  | vtopkDrain (f : RF)
  | vtopkClr (f : RF)
  | wadd (f : RF)
  | waddExt (f : RF) (x : Ext)
  | waddm (f : RF)
  | waddmExt (f : RF) (x : Ext)
  | wrnd (f : RF)
  | wrndExt (f : RF) (x : Ext)
  | wmean (f : RF)
  | wmeanExt (f : RF) (x : Ext)
  | wscale (f : RF)
  | wscaleExt (f : RF) (x : Ext)
  | setview (f : RF)
  | vmov (f : RF)
  | spld (f : RF)
  | spldOffset (f : RF) (x : Ext)
  | spst (f : RF)
  | spstOffset (f : RF) (x : Ext)
  | sopen (f : RF) (x : Ext)
  | stend (f : RF)
  | sclose (f : RF)
  | fopen (f : RF) (x : Ext)
  | fadv (f : RF)
  | ftend (f : RF)
  | fclose (f : RF)
  | fisect (f : RF)
  | ldSlot (f : RF)
  | ldSlotExt (f : RF) (x : Ext)
  | vldSlot (f : RF)
  | vldSlotExt (f : RF) (x : Ext)
  | stSlot (f : RF)
  | stSlotExt (f : RF) (x : Ext)
  | vstSlot (f : RF)
  | vstSlotExt (f : RF) (x : Ext)
  | setfeE (f : RF) (x : Ext)
  | setfeF (f : RF) (x : Ext)
  | tstfe (f : RF) (x : Ext)
  | klook (f : RF)
  | klookLiteral (f : RF) (lit : Word)
  | kbind (f : RF) (x : Ext)
  | kbindLiteral (f : RF) (x : Ext) (lit : Word)
  | kpin (f : RF)
  | kpinLiteral (f : RF) (lit : Word)
  | kunpin (f : RF)
  | kunpinLiteral (f : RF) (lit : Word)
  | kunbind (f : RF)
  | kunbindLiteral (f : RF) (lit : Word)
  | kvict (f : RF)
  | kstat (f : RF)
  | kstatLiteral (f : RF) (lit : Word)
  | kmlook (f : RF) (x : Ext)
  | kmlookLiteral (f : RF) (x : Ext) (lit : Word)
  | kmbind (f : RF) (x : Ext)
  | kmbindLiteral (f : RF) (x : Ext) (lit : Word)
  | kmpin (f : RF) (x : Ext)
  | kmpinLiteral (f : RF) (x : Ext) (lit : Word)
  | kmunpin (f : RF) (x : Ext)
  | kmunpinLiteral (f : RF) (x : Ext) (lit : Word)
  | kmunbind (f : RF) (x : Ext)
  | kmunbindLiteral (f : RF) (x : Ext) (lit : Word)
  | kmstat (f : RF) (x : Ext)
  | kmstatLiteral (f : RF) (x : Ext) (lit : Word)
  | lnarrow (f : RF) (x : Ext)
  | lread (f : RF) (x : Ext)
  | lwrite (f : RF) (x : Ext)
  | ldDevice (f : RF) (x : Ext)
  | stDevice (f : RF) (x : Ext)
  | vldDevice (f : RF) (x : Ext)
  | vstDevice (f : RF) (x : Ext)
  | gather (f : RF) (x : Ext)
  | scatter (f : RF) (x : Ext)
  | aadd (f : RF) (x : Ext)
  | amin (f : RF) (x : Ext)
  | amax (f : RF) (x : Ext)
  | aand (f : RF) (x : Ext)
  | aor (f : RF) (x : Ext)
  | axor (f : RF) (x : Ext)
  | aswap (f : RF) (x : Ext)
  | acas (f : RF) (x : Ext)
  | acas4 (f : RF) (x : Ext)
  | aenq (f : RF) (x : Ext)
  | achase (f : RF) (x : Ext)
  | rwrd (f : RF) (x : Ext)
  | rwwr (f : RF) (x : Ext)
  | rwrdx (f : RF) (x : Ext)
  | rwwrx (f : RF) (x : Ext)
  | rwtry (f : RF) (x : Ext)
  | ldsync (f : RF) (x : Ext)
  | stsync (f : RF) (x : Ext)
  | waitne (f : RF) (x : Ext)
  | chapp (f : RF)
  | chwait (f : RF)
  | chseq (f : RF)
  | btset (f : RF)
  | bten (f : RF)
  | rbset (f : RF)
  | msave (f : RF)
  | mload (f : RF)
  | mzero (f : RF)
  | send (f : RF)
  | recv (f : RF)
  | recvnb (f : RF)
  | eos (f : RF)
  | parkRes
  | parkPool
  | barrive (f : RF)
  | bwait (f : RF)
  | bsync (f : RF)
  | bdrop (f : RF)
  | devnum (f : RF)
  | mcst (f : RF) (x : Ext)
  | slsend (f : RF) (x : Ext)
  | reduce (f : RF) (x : Ext)
  | claim (f : RF)
  | claimImmediate (f : RF) (x : Ext)
  | acq (f : RF)
  | acqImmediate (f : RF) (x : Ext)
  | acqNb (f : RF)
  | acqNbImmediate (f : RF) (x : Ext)
  | rel (f : RF)
  | relImmediate (f : RF) (x : Ext)
  | trap (f : RF) (x : Ext)
  | returnOp
  | crrd (f : RF) (x : Ext)
  | crwr (f : RF) (x : Ext)
  | fence (f : RF)
  | fenceExt (f : RF) (x : Ext)
  | ppoint (f : RF)
  | yield
  | halt
  | tlbinv (f : RF)
  | replay
deriving DecidableEq, Repr

end Sys2Proof
end

