-- ==== Sys2Proof/WellFormed.lean ====
section
/-! DEFINITION. Which instructions are well-formed (spec 03_encoding R38-R48), and for every constructor of `Instr` the
row of the encoding tables it follows. -/

namespace Sys2Proof

/-- The class of a register field (R45) or of a small immediate that stands in it (R44).
`vx` is the second operand of a binary vector form with an extension: a vector, or nothing where c0 names a scalar. -/
inductive Cls where
  | none | s | v | w | t | m | q | f | chain | chan | memb | vx
deriving DecidableEq, Repr

/-- How a form uses its extension words (R36-R43 and the form's own entry). -/
inductive ExtKind where
  /-- no extension -/
  | none
  /-- BFX and BFI: position and length in E2 (R46) -/
  | bitField
  /-- one immediate in [lo, hi]; `masked`: E1.MASK is used -/
  | imm (lo hi : Nat) (masked : Bool)
  /-- binary vector form: types, mask, an optional scalar c0 (R244, R246) -/
  | vbin (types : List Nat)
  /-- unary vector form with a type class in QF -/
  | vun (types : List Nat)
  /-- vector form whose QF carries no type class -/
  | vt (types : List Nat)
  /-- VCVT: packed position (R250) -/
  | cvt
  /-- slot load: offset, or .nb with c0 (R147) -/
  | slotLd (types : List Nat) (masked : Bool)
  /-- slot store: offset (R148) -/
  | slotSt (types : List Nat) (masked : Bool)
  /-- SETFE and TSTFE: first granule and count at most `max` (R149, R150) -/
  | granules (max : Nat)
  /-- c0 alone (KBIND) -/
  | c0
  /-- map number in HANDLE (R163) -/
  | map
  /-- map number and c0 (KMBIND) -/
  | mapC0
  /-- a layout handle alone -/
  | handle
  /-- a layout handle and an immediate from 0 -/
  | handleImm (hi : Nat)
  /-- a layout access: orders, types, mask; `bare`: the form without coordinates is legal too -/
  | mem (orders types : List Nat) (masked bare : Bool)
  | chase | sopen | mcst | sl | reduce | fence
deriving DecidableEq, Repr

/-- What the OP field of a form may be: fixed by the form, an integer or float condition (R34), or a conversion (R48). -/
inductive OpKind where
  | fixed | int | flt | cvt
deriving DecidableEq, Repr

/-- One row of the opcode map in format R (R46, R47): major, operand classes, which operands carry an empty policy,
legal QF values, extension and OP. -/
structure Form where
  maj : BitVec 6
  d : Cls
  a : Cls
  b : Cls
  ta : Bool
  tb : Bool
  qf : List Nat
  ext : ExtKind
  opk : OpKind
deriving DecidableEq, Repr

/-- An instruction as its encoding sees it; an event row has no encoding. -/
inductive View where
  | r (sp : Form) (f : RF) (op : BitVec 5) (x : Option Ext) (lit : Option Word)
  | i (op : BitVec 4) (f : IForm)
  | ci (f : CIForm)
  | b (kind : BitVec 2) (off : BitVec 22)
  | word (w : W32)
  | event
deriving DecidableEq, Repr

/-- The encoding row of every constructor (R46-R48). A lane-mask source has no full/empty bit, and the spec does not say whether its T bit
must be 0: either value is accepted and ignored; of a stream or fibre generator as a source (SCLOSE, STEND, FADV, FTEND, FCLOSE, FISECT, and
SOPEN's) it must be 0 (R44). WAITNE takes every TYPE from 0 to 12, of which R201 lists none. AMIN, AMAX, AAND, AOR and AXOR, whose row names the
integers of an operation on elements of 4 or 8 bytes, take no TYPE of 1 or 2 bytes: it is an Illegal Instruction (R194). The spec settles none of
these four points (DESIGN CHOICE, log 26). -/
def Instr.view : Instr → View
  | .zeroWord => .word 0#32
  | .breakWord => .word 0xFFFFFFFF#32
  | .add f => .r ⟨1, .s, .s, .s, true, true, [0], .none, .fixed⟩ f 0 none none
  | .sub f => .r ⟨1, .s, .s, .s, true, true, [0], .none, .fixed⟩ f 1 none none
  | .mul f => .r ⟨1, .s, .s, .s, true, true, [0], .none, .fixed⟩ f 2 none none
  | .mulh f => .r ⟨1, .s, .s, .s, true, true, [0, 1], .none, .fixed⟩ f 3 none none
  | .div f => .r ⟨1, .s, .s, .s, true, true, [0, 1], .none, .fixed⟩ f 4 none none
  | .rem f => .r ⟨1, .s, .s, .s, true, true, [0, 1], .none, .fixed⟩ f 5 none none
  | .and f => .r ⟨1, .s, .s, .s, true, true, [0], .none, .fixed⟩ f 6 none none
  | .or f => .r ⟨1, .s, .s, .s, true, true, [0], .none, .fixed⟩ f 7 none none
  | .xor f => .r ⟨1, .s, .s, .s, true, true, [0], .none, .fixed⟩ f 8 none none
  | .shl f => .r ⟨1, .s, .s, .s, true, true, [0], .none, .fixed⟩ f 9 none none
  | .shr f => .r ⟨1, .s, .s, .s, true, true, [0], .none, .fixed⟩ f 10 none none
  | .sha f => .r ⟨1, .s, .s, .s, true, true, [0], .none, .fixed⟩ f 11 none none
  | .min f => .r ⟨1, .s, .s, .s, true, true, [0, 1], .none, .fixed⟩ f 12 none none
  | .max f => .r ⟨1, .s, .s, .s, true, true, [0, 1], .none, .fixed⟩ f 13 none none
  | .clz f => .r ⟨1, .s, .s, .none, true, false, [0], .none, .fixed⟩ f 14 none none
  | .popc f => .r ⟨1, .s, .s, .none, true, false, [0], .none, .fixed⟩ f 15 none none
  | .sext f => .r ⟨1, .s, .s, .none, true, false, [0, 1, 2], .none, .fixed⟩ f 16 none none
  | .addLiteral f lit => .r ⟨1, .s, .s, .none, true, false, [0], .none, .fixed⟩ f 0 none (some lit)
  | .subLiteral f lit => .r ⟨1, .s, .s, .none, true, false, [0], .none, .fixed⟩ f 1 none (some lit)
  | .mulLiteral f lit => .r ⟨1, .s, .s, .none, true, false, [0], .none, .fixed⟩ f 2 none (some lit)
  | .mulhLiteral f lit => .r ⟨1, .s, .s, .none, true, false, [0, 1], .none, .fixed⟩ f 3 none (some lit)
  | .divLiteral f lit => .r ⟨1, .s, .s, .none, true, false, [0, 1], .none, .fixed⟩ f 4 none (some lit)
  | .remLiteral f lit => .r ⟨1, .s, .s, .none, true, false, [0, 1], .none, .fixed⟩ f 5 none (some lit)
  | .andLiteral f lit => .r ⟨1, .s, .s, .none, true, false, [0], .none, .fixed⟩ f 6 none (some lit)
  | .orLiteral f lit => .r ⟨1, .s, .s, .none, true, false, [0], .none, .fixed⟩ f 7 none (some lit)
  | .xorLiteral f lit => .r ⟨1, .s, .s, .none, true, false, [0], .none, .fixed⟩ f 8 none (some lit)
  | .shlLiteral f lit => .r ⟨1, .s, .s, .none, true, false, [0], .none, .fixed⟩ f 9 none (some lit)
  | .shrLiteral f lit => .r ⟨1, .s, .s, .none, true, false, [0], .none, .fixed⟩ f 10 none (some lit)
  | .shaLiteral f lit => .r ⟨1, .s, .s, .none, true, false, [0], .none, .fixed⟩ f 11 none (some lit)
  | .minLiteral f lit => .r ⟨1, .s, .s, .none, true, false, [0, 1], .none, .fixed⟩ f 12 none (some lit)
  | .maxLiteral f lit => .r ⟨1, .s, .s, .none, true, false, [0, 1], .none, .fixed⟩ f 13 none (some lit)
  | .addImmediate f => .i 0 f
  | .subImmediate f => .i 1 f
  | .mulImmediate f => .i 2 f
  | .andImmediate f => .i 3 f
  | .orImmediate f => .i 4 f
  | .xorImmediate f => .i 5 f
  | .shlImmediate f => .i 6 f
  | .shrImmediate f => .i 7 f
  | .shaImmediate f => .i 8 f
  | .mov f => .r ⟨3, .s, .s, .none, true, false, [0], .none, .fixed⟩ f 0 none none
  | .li f lit => .r ⟨3, .s, .none, .none, false, false, [0], .none, .fixed⟩ f 1 none (some lit)
  | .bfx f x => .r ⟨3, .s, .s, .none, true, false, [0], .bitField, .fixed⟩ f 2 (some x) none
  | .bfi f x => .r ⟨3, .s, .s, .none, true, false, [0], .bitField, .fixed⟩ f 3 (some x) none
  | .mix f => .r ⟨4, .s, .s, .s, true, true, [0], .none, .fixed⟩ f 0 none none
  | .cmp f op => .r ⟨8, .none, .s, .s, true, true, [0, 1, 2, 3], .none, .int⟩ f op none none
  | .cmpLiteral f op lit => .r ⟨8, .none, .s, .none, true, false, [0, 1, 2, 3], .none, .int⟩ f op none (some lit)
  | .cmpImmediate f => .ci f
  | .b off => .b 0 off
  | .bl off => .b 1 off
  | .br f => .r ⟨11, .none, .s, .none, true, false, [0], .none, .fixed⟩ f 0 none none
  | .blr f => .r ⟨11, .none, .s, .none, true, false, [0], .none, .fixed⟩ f 1 none none
  | .ret => .word 0x0B000002#32
  | .loop f x => .r ⟨11, .none, .s, .none, true, false, [0], (.imm 1 65535 false), .fixed⟩ f 3 (some x) none
  | .lbrk => .word 0x0B000004#32
  | .fadd f => .r ⟨12, .s, .s, .s, true, true, [0, 1, 2, 3], .none, .fixed⟩ f 0 none none
  | .fsub f => .r ⟨12, .s, .s, .s, true, true, [0, 1, 2, 3], .none, .fixed⟩ f 1 none none
  | .fmul f => .r ⟨12, .s, .s, .s, true, true, [0, 1, 2, 3], .none, .fixed⟩ f 2 none none
  | .fdiv f => .r ⟨12, .s, .s, .s, true, true, [0, 1, 2, 3], .none, .fixed⟩ f 3 none none
  | .fmin f => .r ⟨12, .s, .s, .s, true, true, [0], .none, .fixed⟩ f 4 none none
  | .fmax f => .r ⟨12, .s, .s, .s, true, true, [0], .none, .fixed⟩ f 5 none none
  | .fsqrt f => .r ⟨12, .s, .s, .none, true, false, [0, 1, 2, 3], .none, .fixed⟩ f 6 none none
  | .fma f => .r ⟨12, .s, .s, .s, true, true, [0, 1, 2, 3], .none, .fixed⟩ f 7 none none
  | .cvtfi f => .r ⟨13, .s, .s, .none, true, false, [0, 1, 2, 3], .none, .fixed⟩ f 0 none none
  | .cvtfn f => .r ⟨13, .s, .s, .none, true, false, [0, 1, 2, 3], .none, .fixed⟩ f 1 none none
  | .cvtif f => .r ⟨13, .s, .s, .none, true, false, [0, 1, 2, 3], .none, .fixed⟩ f 2 none none
  | .cvtnf f => .r ⟨13, .s, .s, .none, true, false, [0, 1, 2, 3], .none, .fixed⟩ f 3 none none
  | .fclass f => .r ⟨13, .s, .s, .none, true, false, [0], .none, .fixed⟩ f 4 none none
  | .fexp2 f => .r ⟨14, .s, .s, .none, true, false, [0], .none, .fixed⟩ f 0 none none
  | .flog2 f => .r ⟨14, .s, .s, .none, true, false, [0], .none, .fixed⟩ f 1 none none
  | .frcp f => .r ⟨14, .s, .s, .none, true, false, [0], .none, .fixed⟩ f 2 none none
  | .frsq f => .r ⟨14, .s, .s, .none, true, false, [0], .none, .fixed⟩ f 3 none none
  | .fcmp f op => .r ⟨15, .none, .s, .s, true, true, [0, 1, 2, 3], .none, .flt⟩ f op none none
  | .vadd f => .r ⟨16, .v, .v, .v, true, true, [0, 1, 2, 3], .none, .fixed⟩ f 0 none none
  | .vsub f => .r ⟨16, .v, .v, .v, true, true, [0, 1, 2, 3], .none, .fixed⟩ f 1 none none
  | .vmul f => .r ⟨16, .v, .v, .v, true, true, [0, 1, 2, 3], .none, .fixed⟩ f 2 none none
  | .vmin f => .r ⟨16, .v, .v, .v, true, true, [0, 1, 2, 3], .none, .fixed⟩ f 3 none none
  | .vmax f => .r ⟨16, .v, .v, .v, true, true, [0, 1, 2, 3], .none, .fixed⟩ f 4 none none
  | .vand f => .r ⟨16, .v, .v, .v, true, true, [0, 1, 2, 3], .none, .fixed⟩ f 5 none none
  | .vor f => .r ⟨16, .v, .v, .v, true, true, [0, 1, 2, 3], .none, .fixed⟩ f 6 none none
  | .vxor f => .r ⟨16, .v, .v, .v, true, true, [0, 1, 2, 3], .none, .fixed⟩ f 7 none none
  | .vshl f => .r ⟨16, .v, .v, .v, true, true, [2, 3], .none, .fixed⟩ f 8 none none
  | .vshr f => .r ⟨16, .v, .v, .v, true, true, [2, 3], .none, .fixed⟩ f 9 none none
  | .vsha f => .r ⟨16, .v, .v, .v, true, true, [2, 3], .none, .fixed⟩ f 10 none none
  | .vdiv f => .r ⟨16, .v, .v, .v, true, true, [0, 1], .none, .fixed⟩ f 11 none none
  | .vaddExt f x => .r ⟨16, .v, .v, .vx, true, true, [0, 1, 2, 3], (.vbin [12, 11, 3, 7, 2, 6, 1, 5]), .fixed⟩ f 0 (some x) none
  | .vsubExt f x => .r ⟨16, .v, .v, .vx, true, true, [0, 1, 2, 3], (.vbin [12, 11, 3, 7, 2, 6, 1, 5]), .fixed⟩ f 1 (some x) none
  | .vmulExt f x => .r ⟨16, .v, .v, .vx, true, true, [0, 1, 2, 3], (.vbin [12, 11, 3, 7, 2, 6, 1, 5]), .fixed⟩ f 2 (some x) none
  | .vminExt f x => .r ⟨16, .v, .v, .vx, true, true, [0, 1, 2, 3], (.vbin [12, 11, 3, 7, 2, 6, 1, 5]), .fixed⟩ f 3 (some x) none
  | .vmaxExt f x => .r ⟨16, .v, .v, .vx, true, true, [0, 1, 2, 3], (.vbin [12, 11, 3, 7, 2, 6, 1, 5]), .fixed⟩ f 4 (some x) none
  | .vandExt f x => .r ⟨16, .v, .v, .vx, true, true, [0, 1, 2, 3], (.vbin [1, 2, 3, 4, 5, 6, 7, 8, 9, 10, 11, 12]), .fixed⟩ f 5 (some x) none
  | .vorExt f x => .r ⟨16, .v, .v, .vx, true, true, [0, 1, 2, 3], (.vbin [1, 2, 3, 4, 5, 6, 7, 8, 9, 10, 11, 12]), .fixed⟩ f 6 (some x) none
  | .vxorExt f x => .r ⟨16, .v, .v, .vx, true, true, [0, 1, 2, 3], (.vbin [1, 2, 3, 4, 5, 6, 7, 8, 9, 10, 11, 12]), .fixed⟩ f 7 (some x) none
  | .vshlExt f x => .r ⟨16, .v, .v, .vx, true, true, [0, 1, 2, 3], (.vbin [1, 2, 3, 5, 6, 7]), .fixed⟩ f 8 (some x) none
  | .vshrExt f x => .r ⟨16, .v, .v, .vx, true, true, [0, 1, 2, 3], (.vbin [1, 2, 3, 5, 6, 7]), .fixed⟩ f 9 (some x) none
  | .vshaExt f x => .r ⟨16, .v, .v, .vx, true, true, [0, 1, 2, 3], (.vbin [1, 2, 3, 5, 6, 7]), .fixed⟩ f 10 (some x) none
  | .vdivExt f x => .r ⟨16, .v, .v, .vx, true, true, [0, 1, 2, 3], (.vbin [12, 11]), .fixed⟩ f 11 (some x) none
  | .vfma f => .r ⟨17, .v, .v, .v, true, true, [0, 1], .none, .fixed⟩ f 0 none none
  | .vfms f => .r ⟨17, .v, .v, .v, true, true, [0, 1], .none, .fixed⟩ f 1 none none
  | .vabs f => .r ⟨17, .v, .v, .none, true, false, [0, 1, 2], .none, .fixed⟩ f 2 none none
  | .vneg f => .r ⟨17, .v, .v, .none, true, false, [0, 1, 2], .none, .fixed⟩ f 3 none none
  | .vsqrt f => .r ⟨17, .v, .v, .none, true, false, [0, 1], .none, .fixed⟩ f 4 none none
  | .vsel f => .r ⟨17, .v, .v, .v, true, true, [0, 1, 2, 3], .none, .fixed⟩ f 5 none none
  | .vfmaExt f x => .r ⟨17, .v, .v, .vx, true, true, [0, 1, 2, 3], (.vbin [12, 11]), .fixed⟩ f 0 (some x) none
  | .vfmsExt f x => .r ⟨17, .v, .v, .vx, true, true, [0, 1, 2, 3], (.vbin [12, 11]), .fixed⟩ f 1 (some x) none
  | .vabsExt f x => .r ⟨17, .v, .v, .none, true, false, [0, 1, 2, 3], (.vun [12, 11, 3, 2, 1]), .fixed⟩ f 2 (some x) none
  | .vnegExt f x => .r ⟨17, .v, .v, .none, true, false, [0, 1, 2, 3], (.vun [12, 11, 3, 2, 1]), .fixed⟩ f 3 (some x) none
  | .vsqrtExt f x => .r ⟨17, .v, .v, .none, true, false, [0, 1, 2, 3], (.vun [12, 11]), .fixed⟩ f 4 (some x) none
  | .vselExt f x => .r ⟨17, .v, .v, .vx, true, true, [0, 1, 2, 3], (.vbin [1, 2, 3, 4, 5, 6, 7, 8, 9, 10, 11, 12]), .fixed⟩ f 5 (some x) none
  | .vcmp f op => .r ⟨18, .m, .v, .v, true, true, [0, 1, 2, 3], .none, .flt⟩ f op none none
  | .vcmpExt f op x => .r ⟨18, .m, .v, .vx, true, true, [0, 1, 2, 3], (.vbin [12, 11, 3, 7, 2, 6, 1, 5]), .flt⟩ f op (some x) none
  | .mand f => .r ⟨19, .m, .m, .m, true, true, [0], .none, .fixed⟩ f 0 none none
  | .mor f => .r ⟨19, .m, .m, .m, true, true, [0], .none, .fixed⟩ f 1 none none
  | .mxor f => .r ⟨19, .m, .m, .m, true, true, [0], .none, .fixed⟩ f 2 none none
  | .mnot f => .r ⟨19, .m, .m, .none, true, false, [0], .none, .fixed⟩ f 3 none none
  | .mpopc f => .r ⟨19, .s, .m, .none, true, false, [0], .none, .fixed⟩ f 4 none none
  | .vcvt f op => .r ⟨20, .v, .v, .none, true, false, [0, 1, 2, 3], .none, .cvt⟩ f op none none
  | .vcvtExt f op x => .r ⟨20, .v, .v, .none, true, false, [0, 1, 2, 3], .cvt, .cvt⟩ f op (some x) none
  | .vexp2 f => .r ⟨21, .v, .v, .none, true, false, [0], .none, .fixed⟩ f 0 none none
  | .vlog2 f => .r ⟨21, .v, .v, .none, true, false, [0], .none, .fixed⟩ f 1 none none
  | .vrcp f => .r ⟨21, .v, .v, .none, true, false, [0], .none, .fixed⟩ f 2 none none
  | .vrsq f => .r ⟨21, .v, .v, .none, true, false, [0], .none, .fixed⟩ f 3 none none
  | .vexp f => .r ⟨21, .v, .v, .none, true, false, [0], .none, .fixed⟩ f 4 none none
  | .vexp2Ext f x => .r ⟨21, .v, .v, .none, true, false, [0], (.vt [0, 11, 12]), .fixed⟩ f 0 (some x) none
  | .vlog2Ext f x => .r ⟨21, .v, .v, .none, true, false, [0], (.vt [0, 11, 12]), .fixed⟩ f 1 (some x) none
  | .vrcpExt f x => .r ⟨21, .v, .v, .none, true, false, [0], (.vt [0, 11, 12]), .fixed⟩ f 2 (some x) none
  | .vrsqExt f x => .r ⟨21, .v, .v, .none, true, false, [0], (.vt [0, 11, 12]), .fixed⟩ f 3 (some x) none
  | .vexpExt f x => .r ⟨21, .v, .v, .none, true, false, [0], (.vt [0, 11, 12]), .fixed⟩ f 4 (some x) none
  | .vrsum f => .r ⟨24, .s, .v, .none, true, false, [0, 1, 2, 3], .none, .fixed⟩ f 0 none none
  | .vrmax f => .r ⟨24, .s, .v, .none, true, false, [0, 1, 2, 3], .none, .fixed⟩ f 1 none none
  | .vrmin f => .r ⟨24, .s, .v, .none, true, false, [0, 1, 2, 3], .none, .fixed⟩ f 2 none none
  | .vscan f => .r ⟨24, .v, .v, .none, true, false, [0, 1, 2, 3], .none, .fixed⟩ f 3 none none
  | .vscanX f => .r ⟨24, .v, .v, .none, true, false, [0, 1, 2, 3], .none, .fixed⟩ f 4 none none
  | .vrsumExt f x => .r ⟨24, .s, .v, .none, true, false, [0, 1, 2, 3], (.vun [12, 11, 3, 7]), .fixed⟩ f 0 (some x) none
  | .vrmaxExt f x => .r ⟨24, .s, .v, .none, true, false, [0, 1, 2, 3], (.vun [12, 11, 3, 7]), .fixed⟩ f 1 (some x) none
  | .vrminExt f x => .r ⟨24, .s, .v, .none, true, false, [0, 1, 2, 3], (.vun [12, 11, 3, 7]), .fixed⟩ f 2 (some x) none
  | .vscanExt f x => .r ⟨24, .v, .v, .none, true, false, [0, 1, 2, 3], (.vun [12, 11, 3, 7]), .fixed⟩ f 3 (some x) none
  | .vscanXExt f x => .r ⟨24, .v, .v, .none, true, false, [0, 1, 2, 3], (.vun [12, 11, 3, 7]), .fixed⟩ f 4 (some x) none
  | .vperm f => .r ⟨25, .v, .v, .v, true, true, [0], .none, .fixed⟩ f 0 none none
  | .vpermRotate f x => .r ⟨25, .v, .v, .none, true, false, [0], (.imm 0 127 true), .fixed⟩ f 0 (some x) none
  | .vbcast f => .r ⟨25, .v, .s, .none, true, false, [0], .none, .fixed⟩ f 1 none none
  | .vbcastExt f x => .r ⟨25, .v, .s, .none, true, false, [0], (.imm 0 0 true), .fixed⟩ f 1 (some x) none
  | .vins f => .r ⟨25, .v, .s, .s, true, true, [0], .none, .fixed⟩ f 2 none none
  | .vinsImmediate f x => .r ⟨25, .v, .s, .none, true, false, [0], (.imm 0 127 false), .fixed⟩ f 2 (some x) none
  | .vext f => .r ⟨25, .s, .s, .v, false, true, [0], .none, .fixed⟩ f 3 none none
  | .vextImmediate f x => .r ⟨25, .s, .s, .v, false, true, [0], (.imm 0 127 true), .fixed⟩ f 3 (some x) none
  | .vtrans f => .r ⟨25, .t, .t, .none, true, false, [0], .none, .fixed⟩ f 4 none none
  | .viota f => .r ⟨25, .v, .s, .none, true, false, [0], .none, .fixed⟩ f 5 none none
  | .viotaExt f x => .r ⟨25, .v, .s, .none, true, false, [0], (.imm 0 0 true), .fixed⟩ f 5 (some x) none
  | .vtopkAdd f => .r ⟨26, .none, .v, .s, true, true, [0], .none, .fixed⟩ f 0 none none
  | .vtopkAddExt f x => .r ⟨26, .none, .v, .s, true, true, [0], (.vt [0, 12]), .fixed⟩ f 0 (some x) none
  | .vtopkDrain f => .r ⟨26, .v, .v, .none, false, false, [0], .none, .fixed⟩ f 1 none none
  | .vtopkClr f => .r ⟨26, .none, .s, .none, true, false, [0], .none, .fixed⟩ f 2 none none
  | .wadd f => .r ⟨27, .w, .v, .none, true, false, [0], .none, .fixed⟩ f 0 none none
  | .waddExt f x => .r ⟨27, .w, .v, .none, true, false, [0], (.vt [0, 11, 12]), .fixed⟩ f 0 (some x) none
  | .waddm f => .r ⟨27, .w, .v, .m, true, true, [0], .none, .fixed⟩ f 1 none none
  | .waddmExt f x => .r ⟨27, .w, .v, .m, true, true, [0], (.vt [0, 12]), .fixed⟩ f 1 (some x) none
  | .wrnd f => .r ⟨27, .v, .w, .none, true, false, [0, 1], .none, .fixed⟩ f 2 none none
  | .wrndExt f x => .r ⟨27, .v, .w, .none, true, false, [0, 1], (.vt [0, 12]), .fixed⟩ f 2 (some x) none
  | .wmean f => .r ⟨27, .v, .w, .none, true, false, [0, 1], .none, .fixed⟩ f 3 none none
  | .wmeanExt f x => .r ⟨27, .v, .w, .none, true, false, [0, 1], (.vt [0, 12]), .fixed⟩ f 3 (some x) none
  | .wscale f => .r ⟨27, .v, .w, .s, true, true, [0, 1], .none, .fixed⟩ f 4 none none
  | .wscaleExt f x => .r ⟨27, .v, .w, .s, true, true, [0, 1], (.vt [0, 12]), .fixed⟩ f 4 (some x) none
  | .setview f => .r ⟨28, .none, .s, .s, true, true, [0, 1, 2], .none, .fixed⟩ f 0 none none
  | .vmov f => .r ⟨28, .v, .v, .none, true, false, [0], .none, .fixed⟩ f 1 none none
  | .spld f => .r ⟨28, .s, .s, .none, true, false, [0], .none, .fixed⟩ f 2 none none
  | .spldOffset f x => .r ⟨28, .s, .s, .none, true, false, [0], (.imm 0 65535 false), .fixed⟩ f 2 (some x) none
  | .spst f => .r ⟨28, .none, .s, .s, true, true, [0], .none, .fixed⟩ f 3 none none
  | .spstOffset f x => .r ⟨28, .none, .s, .s, true, true, [0], (.imm 0 65535 false), .fixed⟩ f 3 (some x) none
  | .sopen f x => .r ⟨29, .s, .q, .none, false, false, [0], .sopen, .fixed⟩ f 0 (some x) none
  | .stend f => .r ⟨29, .s, .q, .none, false, false, [0], .none, .fixed⟩ f 1 none none
  | .sclose f => .r ⟨29, .none, .q, .none, false, false, [0], .none, .fixed⟩ f 2 none none
  | .fopen f x => .r ⟨30, .f, .s, .s, true, true, [0], .handle, .fixed⟩ f 0 (some x) none
  | .fadv f => .r ⟨30, .s, .f, .none, false, false, [0], .none, .fixed⟩ f 1 none none
  | .ftend f => .r ⟨30, .s, .f, .none, false, false, [0], .none, .fixed⟩ f 2 none none
  | .fclose f => .r ⟨30, .none, .f, .none, false, false, [0], .none, .fixed⟩ f 3 none none
  | .fisect f => .r ⟨30, .s, .f, .f, false, false, [0], .none, .fixed⟩ f 4 none none
  | .ldSlot f => .r ⟨32, .s, .s, .none, true, false, [0, 1], .none, .fixed⟩ f 0 none none
  | .ldSlotExt f x => .r ⟨32, .s, .s, .none, true, false, [0, 1, 2, 3], (.slotLd [0, 1, 2, 3, 4, 5, 6, 7, 8, 12] false), .fixed⟩ f 0 (some x) none
  | .vldSlot f => .r ⟨32, .v, .s, .none, true, false, [0, 1], .none, .fixed⟩ f 2 none none
  | .vldSlotExt f x => .r ⟨32, .v, .s, .none, true, false, [0, 1, 2, 3], (.slotLd [0, 1, 2, 3, 5, 6, 7, 9, 10, 11, 12] true), .fixed⟩ f 2 (some x) none
  | .stSlot f => .r ⟨32, .none, .s, .s, true, true, [0], .none, .fixed⟩ f 1 none none
  | .stSlotExt f x => .r ⟨32, .none, .s, .s, true, true, [0], (.slotSt [0, 1, 2, 3, 4, 5, 6, 7, 8, 12] false), .fixed⟩ f 1 (some x) none
  | .vstSlot f => .r ⟨32, .none, .v, .s, true, true, [0], .none, .fixed⟩ f 3 none none
  | .vstSlotExt f x => .r ⟨32, .none, .v, .s, true, true, [0], (.slotSt [0, 1, 2, 3, 5, 6, 7, 9, 10, 11, 12] true), .fixed⟩ f 3 (some x) none
  | .setfeE f x => .r ⟨32, .none, .s, .none, true, false, [0], (.granules 1024), .fixed⟩ f 4 (some x) none
  | .setfeF f x => .r ⟨32, .none, .s, .none, true, false, [1], (.granules 1024), .fixed⟩ f 4 (some x) none
  | .tstfe f x => .r ⟨32, .s, .s, .none, true, false, [0], (.granules 64), .fixed⟩ f 5 (some x) none
  | .klook f => .r ⟨33, .s, .s, .s, true, true, [0, 1], .none, .fixed⟩ f 0 none none
  | .klookLiteral f lit => .r ⟨33, .s, .none, .s, false, true, [0, 1], .none, .fixed⟩ f 0 none (some lit)
  | .kbind f x => .r ⟨33, .s, .s, .s, true, true, [0, 1, 2, 3], .c0, .fixed⟩ f 1 (some x) none
  | .kbindLiteral f x lit => .r ⟨33, .s, .none, .s, false, true, [0, 1, 2, 3], .c0, .fixed⟩ f 1 (some x) (some lit)
  | .kpin f => .r ⟨33, .s, .s, .s, true, true, [0], .none, .fixed⟩ f 2 none none
  | .kpinLiteral f lit => .r ⟨33, .s, .none, .s, false, true, [0], .none, .fixed⟩ f 2 none (some lit)
  | .kunpin f => .r ⟨33, .s, .s, .s, true, true, [0], .none, .fixed⟩ f 3 none none
  | .kunpinLiteral f lit => .r ⟨33, .s, .none, .s, false, true, [0], .none, .fixed⟩ f 3 none (some lit)
  | .kunbind f => .r ⟨33, .s, .s, .s, true, true, [0], .none, .fixed⟩ f 4 none none
  | .kunbindLiteral f lit => .r ⟨33, .s, .none, .s, false, true, [0], .none, .fixed⟩ f 4 none (some lit)
  | .kvict f => .r ⟨33, .s, .none, .none, false, false, [0], .none, .fixed⟩ f 5 none none
  | .kstat f => .r ⟨33, .s, .s, .none, true, false, [0], .none, .fixed⟩ f 6 none none
  | .kstatLiteral f lit => .r ⟨33, .s, .none, .none, false, false, [0], .none, .fixed⟩ f 6 none (some lit)
  | .kmlook f x => .r ⟨34, .s, .s, .s, true, true, [0, 1], .map, .fixed⟩ f 0 (some x) none
  | .kmlookLiteral f x lit => .r ⟨34, .s, .none, .s, false, true, [0, 1], .map, .fixed⟩ f 0 (some x) (some lit)
  | .kmbind f x => .r ⟨34, .s, .s, .s, true, true, [0, 1], .mapC0, .fixed⟩ f 1 (some x) none
  | .kmbindLiteral f x lit => .r ⟨34, .s, .none, .s, false, true, [0, 1], .mapC0, .fixed⟩ f 1 (some x) (some lit)
  | .kmpin f x => .r ⟨34, .s, .s, .s, true, true, [0], .map, .fixed⟩ f 2 (some x) none
  | .kmpinLiteral f x lit => .r ⟨34, .s, .none, .s, false, true, [0], .map, .fixed⟩ f 2 (some x) (some lit)
  | .kmunpin f x => .r ⟨34, .s, .s, .s, true, true, [0], .map, .fixed⟩ f 3 (some x) none
  | .kmunpinLiteral f x lit => .r ⟨34, .s, .none, .s, false, true, [0], .map, .fixed⟩ f 3 (some x) (some lit)
  | .kmunbind f x => .r ⟨34, .s, .s, .s, true, true, [0], .map, .fixed⟩ f 4 (some x) none
  | .kmunbindLiteral f x lit => .r ⟨34, .s, .none, .s, false, true, [0], .map, .fixed⟩ f 4 (some x) (some lit)
  | .kmstat f x => .r ⟨34, .s, .s, .none, true, false, [0], .map, .fixed⟩ f 5 (some x) none
  | .kmstatLiteral f x lit => .r ⟨34, .s, .none, .none, false, false, [0], .map, .fixed⟩ f 5 (some x) (some lit)
  | .lnarrow f x => .r ⟨36, .none, .s, .v, true, true, [0], .handle, .fixed⟩ f 0 (some x) none
  | .lread f x => .r ⟨36, .s, .none, .none, false, false, [0], (.handleImm 7), .fixed⟩ f 1 (some x) none
  | .lwrite f x => .r ⟨36, .none, .s, .none, true, false, [0], (.handleImm 7), .fixed⟩ f 2 (some x) none
  | .ldDevice f x => .r ⟨37, .s, .none, .none, false, false, [0, 1], (.mem [0, 1, 4] [0, 1, 2, 3, 4, 5, 6, 7, 8, 12] false false), .fixed⟩ f 0 (some x) none
  | .stDevice f x => .r ⟨37, .none, .s, .none, true, false, [0], (.mem [0, 2, 4] [0, 1, 2, 3, 4, 5, 6, 7, 8, 12] false false), .fixed⟩ f 1 (some x) none
  | .vldDevice f x => .r ⟨37, .v, .none, .none, false, false, [0, 1], (.mem [0, 1, 4] [0, 1, 2, 3, 4, 5, 6, 7, 8, 9, 10, 11, 12] true false), .fixed⟩ f 2 (some x) none
  | .vstDevice f x => .r ⟨37, .none, .v, .none, true, false, [0], (.mem [0, 2, 4] [0, 1, 2, 3, 4, 5, 6, 7, 8, 9, 10, 11, 12] true false), .fixed⟩ f 3 (some x) none
  | .gather f x => .r ⟨38, .v, .v, .none, true, false, [0], (.mem [0, 1, 4] [0, 1, 2, 3, 5, 6, 7, 9, 10, 11, 12] true true), .fixed⟩ f 0 (some x) none
  | .scatter f x => .r ⟨38, .none, .v, .v, true, true, [0], (.mem [0, 2, 4] [0, 1, 2, 3, 5, 6, 7, 9, 10, 11, 12] true true), .fixed⟩ f 1 (some x) none
  | .aadd f x => .r ⟨39, .s, .s, .none, true, false, [0], (.mem [0, 1, 2, 3, 4] [0, 3, 4, 7, 8, 12] false false), .fixed⟩ f 0 (some x) none
  | .amin f x => .r ⟨39, .s, .s, .none, true, false, [0], (.mem [0, 1, 2, 3, 4] [0, 3, 4, 7, 8, 12] false false), .fixed⟩ f 1 (some x) none
  | .amax f x => .r ⟨39, .s, .s, .none, true, false, [0], (.mem [0, 1, 2, 3, 4] [0, 3, 4, 7, 8, 12] false false), .fixed⟩ f 2 (some x) none
  | .aand f x => .r ⟨39, .s, .s, .none, true, false, [0], (.mem [0, 1, 2, 3, 4] [0, 3, 4, 7, 8, 12] false false), .fixed⟩ f 3 (some x) none
  | .aor f x => .r ⟨39, .s, .s, .none, true, false, [0], (.mem [0, 1, 2, 3, 4] [0, 3, 4, 7, 8, 12] false false), .fixed⟩ f 4 (some x) none
  | .axor f x => .r ⟨39, .s, .s, .none, true, false, [0], (.mem [0, 1, 2, 3, 4] [0, 3, 4, 7, 8, 12] false false), .fixed⟩ f 5 (some x) none
  | .aswap f x => .r ⟨39, .s, .s, .none, true, false, [0], (.mem [0, 1, 2, 3, 4] [0, 3, 4, 7, 8, 12] false false), .fixed⟩ f 6 (some x) none
  | .acas f x => .r ⟨39, .s, .s, .s, true, true, [0], (.mem [0, 1, 2, 3, 4] [0, 3, 4, 7, 8, 12] false false), .fixed⟩ f 7 (some x) none
  | .acas4 f x => .r ⟨39, .v, .v, .v, true, true, [0], (.mem [0, 1, 2, 3, 4] [0, 8] false false), .fixed⟩ f 8 (some x) none
  | .aenq f x => .r ⟨39, .s, .s, .none, true, false, [0], (.mem [0, 1, 2, 3, 4] [0, 8] false false), .fixed⟩ f 9 (some x) none
  | .achase f x => .r ⟨39, .s, .s, .s, true, true, [0], .chase, .fixed⟩ f 10 (some x) none
  | .rwrd f x => .r ⟨40, .s, .none, .none, false, false, [0], (.mem [1, 3, 4] [0, 8] false false), .fixed⟩ f 0 (some x) none
  | .rwwr f x => .r ⟨40, .s, .none, .none, false, false, [0], (.mem [1, 3, 4] [0, 8] false false), .fixed⟩ f 1 (some x) none
  | .rwrdx f x => .r ⟨40, .none, .none, .none, false, false, [0], (.mem [2, 3, 4] [0, 8] false false), .fixed⟩ f 2 (some x) none
  | .rwwrx f x => .r ⟨40, .none, .none, .none, false, false, [0], (.mem [2, 3, 4] [0, 8] false false), .fixed⟩ f 3 (some x) none
  | .rwtry f x => .r ⟨40, .s, .none, .none, false, false, [0, 1], (.mem [0, 1, 2, 3, 4] [0, 8] false false), .fixed⟩ f 4 (some x) none
  | .ldsync f x => .r ⟨40, .s, .none, .none, false, false, [0], (.mem [0, 1, 4] [0, 8] false false), .fixed⟩ f 5 (some x) none
  | .stsync f x => .r ⟨40, .none, .s, .none, true, false, [0], (.mem [0, 2, 4] [0, 8] false false), .fixed⟩ f 6 (some x) none
  | .waitne f x => .r ⟨41, .s, .s, .none, true, false, [0], (.mem [0, 1, 4] [0, 1, 2, 3, 4, 5, 6, 7, 8, 9, 10, 11, 12] false false), .fixed⟩ f 0 (some x) none
  | .chapp f => .r ⟨42, .s, .v, .chain, true, false, [0], .none, .fixed⟩ f 0 none none
  | .chwait f => .r ⟨42, .none, .s, .chain, true, false, [0], .none, .fixed⟩ f 1 none none
  | .chseq f => .r ⟨42, .s, .none, .chain, false, false, [0], .none, .fixed⟩ f 2 none none
  | .btset f => .r ⟨43, .none, .v, .none, true, false, [0], .none, .fixed⟩ f 0 none none
  | .bten f => .r ⟨43, .s, .s, .none, true, false, [0], .none, .fixed⟩ f 1 none none
  | .rbset f => .r ⟨43, .none, .v, .none, true, false, [0], .none, .fixed⟩ f 2 none none
  | .msave f => .r ⟨44, .none, .s, .s, true, true, [0], .none, .fixed⟩ f 0 none none
  | .mload f => .r ⟨44, .s, .s, .s, true, true, [0], .none, .fixed⟩ f 1 none none
  | .mzero f => .r ⟨44, .none, .s, .none, true, false, [0], .none, .fixed⟩ f 2 none none
  | .send f => .r ⟨46, .none, .s, .chan, true, false, [0], .none, .fixed⟩ f 0 none none
  | .recv f => .r ⟨46, .s, .none, .chan, false, false, [0], .none, .fixed⟩ f 1 none none
  | .recvnb f => .r ⟨46, .s, .s, .chan, false, false, [0], .none, .fixed⟩ f 2 none none
  | .eos f => .r ⟨46, .none, .none, .chan, false, false, [0], .none, .fixed⟩ f 3 none none
  | .parkRes => .word 0x2F000000#32
  | .parkPool => .word 0x2F000020#32
  | .barrive f => .r ⟨48, .s, .none, .memb, false, false, [0], .none, .fixed⟩ f 0 none none
  | .bwait f => .r ⟨48, .s, .none, .memb, false, false, [0], .none, .fixed⟩ f 1 none none
  | .bsync f => .r ⟨48, .s, .none, .memb, false, false, [0], .none, .fixed⟩ f 2 none none
  | .bdrop f => .r ⟨48, .s, .none, .memb, false, false, [0], .none, .fixed⟩ f 3 none none
  | .devnum f => .r ⟨50, .s, .none, .none, false, false, [0], .none, .fixed⟩ f 0 none none
  | .mcst f x => .r ⟨51, .s, .s, .none, true, false, [0], .mcst, .fixed⟩ f 0 (some x) none
  | .slsend f x => .r ⟨52, .none, .v, .s, true, true, [0], .sl, .fixed⟩ f 0 (some x) none
  | .reduce f x => .r ⟨53, .s, .s, .v, false, true, [0], .reduce, .fixed⟩ f 0 (some x) none
  | .claim f => .r ⟨54, .s, .s, .none, true, false, [0, 1, 2], .none, .fixed⟩ f 0 none none
  | .claimImmediate f x => .r ⟨54, .s, .none, .none, false, false, [0, 1, 2], (.imm 0 65535 false), .fixed⟩ f 0 (some x) none
  | .acq f => .r ⟨54, .s, .s, .none, true, false, [0, 1, 2], .none, .fixed⟩ f 1 none none
  | .acqImmediate f x => .r ⟨54, .s, .none, .none, false, false, [0, 1, 2], (.imm 0 65535 false), .fixed⟩ f 1 (some x) none
  | .acqNb f => .r ⟨54, .s, .s, .none, true, false, [0, 1, 2], .none, .fixed⟩ f 2 none none
  | .acqNbImmediate f x => .r ⟨54, .s, .none, .none, false, false, [0, 1, 2], (.imm 0 65535 false), .fixed⟩ f 2 (some x) none
  | .rel f => .r ⟨54, .none, .s, .none, true, false, [0, 1, 2], .none, .fixed⟩ f 3 none none
  | .relImmediate f x => .r ⟨54, .none, .none, .none, false, false, [0, 1, 2], (.imm 0 65535 false), .fixed⟩ f 3 (some x) none
  | .trap f x => .r ⟨56, .none, .none, .none, false, false, [0], (.imm 0 65535 false), .fixed⟩ f 0 (some x) none
  | .returnOp => .word 0x38000001#32
  | .crrd f x => .r ⟨57, .s, .none, .none, false, false, [0], (.imm 0 4095 false), .fixed⟩ f 0 (some x) none
  | .crwr f x => .r ⟨57, .none, .s, .none, true, false, [0], (.imm 0 4095 false), .fixed⟩ f 1 (some x) none
  | .fence f => .r ⟨58, .none, .none, .none, false, false, [0, 1], .none, .fixed⟩ f 0 none none
  | .fenceExt f x => .r ⟨58, .none, .none, .none, false, false, [0, 1], .fence, .fixed⟩ f 0 (some x) none
  | .ppoint f => .r ⟨58, .none, .s, .none, true, false, [0], .none, .fixed⟩ f 1 none none
  | .yield => .word 0x3A000002#32
  | .halt => .word 0x3A000003#32
  | .tlbinv f => .r ⟨59, .none, .s, .s, true, true, [0], .none, .fixed⟩ f 0 none none
  | .replay => .word 0x3B000001#32
  | .streamElementLand _ _ => .event
  | .sharedMapHomeAction _ => .event
  | .atomicHomeApply _ => .event
  | .lockAttempt _ => .event
  | .lockRetry _ => .event
  | .syncAttempt _ => .event
  | .waitneWake _ => .event
  | .waitneTimeout _ _ => .event
  | .chainEntryStart _ _ => .event
  | .chain7StorageGrant _ => .event
  | .copyTransfer _ => .event
  | .engineGranuleLand _ _ _ _ => .event
  | .entryComplete _ => .event
  | .markerComplete _ => .event
  | .lateFault _ _ => .event
  | .gatherRowLand _ _ => .event
  | .tileRecordStart _ => .event
  | .kGroupApply _ _ => .event
  | .drainStart _ _ => .event
  | .drainRow _ _ => .event
  | .sideDrain _ _ => .event
  | .bulkReduceVector _ => .event
  | .sendAtHome _ => .event
  | .eosAtHome _ => .event
  | .recvAtHome _ => .event
  | .recvnbAtHome _ => .event
  | .channelReply _ => .event
  | .channelCycle _ _ => .event
  | .sendStall _ => .event
  | .parkRegister _ _ _ => .event
  | .parkTakeEffect _ _ => .event
  | .barrierArriveAtHome _ => .event
  | .implicitDrop _ _ _ => .event
  | .barrierReply _ => .event
  | .lostEosEnqueue _ _ => .event
  | .mcstSequence _ => .event
  | .multicastApply _ _ _ _ _ => .event
  | .multicastAckTimeout _ _ _ => .event
  | .reduceCombine _ => .event
  | .reduceRoundTimeout _ _ _ => .event
  | .reduceResultDeliver _ => .event
  | .issueTurn _ => .event
  | .deliver _ => .event
  | .yieldEnd _ => .event
  | .spinWake _ => .event
  | .spinTimeout _ _ => .event
  | .layoutCacheFill _ _ _ => .event
  | .translationWalk _ _ => .event
  | .faultBufferRecord _ _ _ _ => .event
  | .homeApply _ _ => .event
  | .redirect _ _ => .event
  | .remoteSlotAccess _ _ => .event
  | .hostSpaceAccess _ _ => .event
  | .hostMemoryAccess _ _ _ => .event
  | .migSrcWrite _ => .event
  | .migrationDone => .event
  | .migFreeWrite _ => .event
  | .migrationMarkClear _ => .event
  | .dispatchPlace _ => .event
  | .jobChangeClearDone _ => .event
  | .poolEntryHold _ _ _ => .event
  | .jobComplete _ => .event
  | .handlerEntry _ => .event
  | .chainCtlRetry _ _ _ => .event
  | .chainCtlSkip _ _ _ => .event
  | .chainCtlCancel _ _ _ => .event
  | .crewCtlPreempt _ _ => .event
  | .crewCtlKill _ _ => .event
  | .crewCtlResume _ _ => .event
  | .mailboxPost _ _ => .event
  | .niCtlReset _ => .event
  | .niSelfReset _ => .event
  | .niResetDone _ => .event
  | .preemptDeferExpire _ _ => .event
  | .preemptTakeEffect _ _ => .event
  | .contextSaveDone _ _ => .event
  | .contextRestore _ _ _ => .event
  | .haspCtlGo _ _ => .event
  | .haspCtlStop _ => .event
  | .haspRunnable _ => .event
  | .crTargetWrite _ _ => .event
  | .slotErasedWrite _ _ => .event
  | .slotErasedPassDone _ => .event
  | .patrolScrub _ => .event
  | .linkStateDown _ => .event
  | .linkStateRetrain _ => .event
  | .linkRetrainDone _ => .event
  | .fabCountRead => .event
  | .messageInject _ => .event
  | .switchForward => .event
  | .linkReplay _ _ => .event
  | .endToEndResend _ _ _ => .event
  | .messageArrive _ => .event
  | .acknowledgeArrive _ _ _ => .event
  | .sleetBudgetExpire _ _ => .event
  | .sleetWriteLand _ => .event
  | .cutCtlStart _ => .event
  | .cutCtlRelease => .event
  | .cutCtlAbort => .event
  | .cutTaskRecord _ _ => .event
  | .cutPortMarker _ _ => .event
  | .sqTailDoorbell _ => .event
  | .nop _ => .event
  | .launch _ => .event
  | .launchCheckDone _ => .event
  | .kill _ => .event
  | .attest _ => .event
  | .unlock _ => .event
  | .fwload _ => .event
  | .completionWrite => .event
  | .dbgReqWrite _ => .event
  | .dbgReqApply => .event
  | .dbgCmdRead _ => .event
  | .dbgCmdWrite _ => .event
  | .hostReplay => .event
  | .pwrReqActive => .event
  | .pwrReqRetention => .event
  | .pwrReqOff => .event
  | .powerStateEnter => .event
  | .idleEnter => .event
  | .powerWake => .event
  | .powerThrottle => .event
  | .registerWrite _ _ => .event
  | .powerOn => .event
  | .deviceReset => .event
  | .powerThrottleEnd => .event
  | .sleetPartialForward _ _ _ => .event
  | .cxlCacheSnoop _ _ => .event

/-- The register or immediate field is in its class's range, and 0 where the form has no such operand (R44, R45). -/
def Cls.ok : Cls → Reg → Bool
  | .none, r => r == 0
  | .s, _ | .v, _ | .chan, _ | .vx, _ => true
  | .w, r | .t, r | .m, r | .q, r | .chain, r => r.toNat < 8
  | .f, r | .memb, r => r.toNat < 4

/-- The first immediate of E2 (R37). -/
def Ext.immA (x : Ext) : Nat := (x.e2.extractLsb' 0 16).toNat
/-- The second immediate of E2 (R37). -/
def Ext.immB (x : Ext) : Nat := (x.e2.extractLsb' 16 16).toNat
/-- The register c0 (R37). -/
def Ext.c0 (x : Ext) : Reg := x.e2.extractLsb' 0 5
/-- The register c1 (R37). -/
def Ext.c1 (x : Ext) : Reg := x.e2.extractLsb' 5 5
/-- The register c2 (R37). -/
def Ext.c2 (x : Ext) : Reg := x.e2.extractLsb' 10 5
/-- The register c3 (R37). -/
def Ext.c3 (x : Ext) : Reg := x.e2.extractLsb' 15 5
/-- The number of c registers minus 1 (R37). -/
def Ext.n (x : Ext) : Nat := (x.e2.extractLsb' 20 2).toNat

/-- E2 is one 16-bit immediate (XM 00). -/
def Ext.isImm (x : Ext) : Bool := x.xm == 0 && x.immB == 0
/-- E2 holds N + 1 registers, and every unused field is 0 (XM 01). -/
def Ext.isRegs (x : Ext) : Bool :=
  x.xm == 1 && x.e2.extractLsb' 22 10 == 0 && (x.n ≥ 1 || x.c1 == 0) && (x.n ≥ 2 || x.c2 == 0) && (x.n == 3 || x.c3 == 0)
/-- E2 holds exactly one register. -/
def Ext.isC0 (x : Ext) : Bool := x.isRegs && x.n == 0
/-- HANDLE, SCOPE and ORDER are 0. -/
def Ext.noMem (x : Ext) : Bool := x.handle == 0 && x.scope == 0 && x.order == 0
/-- SCOPE, ORDER, MASK and TYPE are 0. -/
def Ext.onlyHandle (x : Ext) : Bool := x.scope == 0 && x.order == 0 && x.mask == 0 && x.type == 0

/-- The type of a QF type class (R47): .f32, .bf16, .i32, .n32. -/
def qfType (q : BitVec 2) : Nat :=
  if q = 0 then 12 else if q = 1 then 11 else if q = 2 then 3 else 7

/-- TYPE is accepted; with TYPE 0 the type class of QF must be, and with another TYPE QF is 00 (R47). -/
def typeClassOk (types : List Nat) (q : BitVec 2) (ty : BitVec 4) : Bool :=
  if ty = 0 then types.contains (qfType q) else types.contains ty.toNat && q == 0

/-- The greatest packed position of a conversion (R250). -/
def cvtMaxPos (op : BitVec 5) : Nat :=
  if [0, 12, 1, 15].contains op.toNat then 1 else if [8, 9, 10, 11].contains op.toNat then 0 else 3

/-- The conversions that round, whose QF names a mode (R48, R250). -/
def cvtRounds (op : BitVec 5) : Bool := [0, 2, 3, 4, 5, 8, 9, 10, 11].contains op.toNat

/-- The extension is one the form accepts (R38-R43); the forms whose coordinates may be absent name three at most (R185). The closing sentence of
R47, that QF is 00 where E1.TYPE is not 0, is taken to hold for the majors whose QF is a type class; WRND, WMEAN and WSCALE, whose QF is .clr,
take TYPE 12 with it (DESIGN CHOICE, log 26). -/
def ExtKind.ok (k : ExtKind) (f : RF) (op : BitVec 5) (x : Ext) : Bool :=
  match k with
  | .none => false
  | .bitField => x.noMem && x.mask == 0 && x.type == 0 && x.xm == 2 && 1 ≤ x.immB && x.immA + x.immB ≤ 64 && x.immA < 64
  | .imm lo hi masked => x.noMem && (masked || x.mask == 0) && x.type == 0 && x.isImm && lo ≤ x.immA && x.immA ≤ hi
  | .vbin types =>
    x.noMem && typeClassOk types f.qf x.type && ((x.isImm && x.immA == 0) || (x.isC0 && f.b == 0 && !f.tb))
  | .vun types => x.noMem && typeClassOk types f.qf x.type && x.isImm && x.immA == 0
  | .vt types => x.noMem && types.contains x.type.toNat && x.isImm && x.immA == 0
  | .cvt => x.noMem && x.type == 0 && x.isImm && x.immA ≤ cvtMaxPos op
  | .slotLd types masked =>
    x.noMem && (masked || x.mask == 0) && types.contains x.type.toNat &&
      (if f.qf.getLsbD 1 then x.isC0 else x.isImm && x.immA < 16384)
  | .slotSt types masked => x.noMem && (masked || x.mask == 0) && types.contains x.type.toNat && x.isImm && x.immA < 16384
  | .granules max =>
    x.noMem && x.mask == 0 && x.type == 0 && x.xm == 2 && x.immA < 1024 && 1 ≤ x.immB && x.immB ≤ max && x.immA + x.immB ≤ 1024
  | .c0 => x.noMem && x.mask == 0 && x.type == 0 && x.isC0
  | .map => x.onlyHandle && x.handle.toNat < 64 && x.isImm && x.immA == 0
  | .mapC0 => x.onlyHandle && x.handle.toNat < 64 && x.isC0
  | .handle => x.onlyHandle && x.isImm && x.immA == 0
  | .handleImm hi => x.onlyHandle && x.isImm && x.immA ≤ hi
  | .mem orders types masked bare =>
    x.scope.toNat < 10 && orders.contains x.order.toNat && (masked || x.mask == 0) && types.contains x.type.toNat &&
      ((x.isRegs && (!bare || x.n != 3)) || (bare && x.isImm && x.immA == 0))
  | .chase => x.handle == 0 && x.scope.toNat < 10 && x.order.toNat ≤ 4 && x.mask == 0 && x.type == 0 && x.isC0
  | .sopen => x.scope == 0 && x.order == 0 && x.mask == 0 && x.type.toNat ≤ 12 && x.isRegs
  | .mcst =>
    x.handle == 0 && x.scope == 10 && (x.order == 0 || x.order == 2 || x.order == 4) && x.mask == 0 && x.type == 0 &&
      x.xm == 2 && x.immA < 4 && 2 ≤ x.immB && x.immB < 2048
  | .sl => x.onlyHandle && x.isRegs
  | .reduce =>
    x.handle == 0 && x.scope == 10 && x.order == 0 && x.mask == 0 && [0, 11, 12].contains x.type.toNat && x.isImm && x.immA < 4
  | .fence =>
    x.handle == 0 && x.scope.toNat ≤ 10 && x.order.toNat ≤ 4 && x.mask == 0 && x.type == 0 && x.isImm &&
      (if x.scope = 10 then x.immA < 4 else x.immA == 0)

/-- The OP field is legal (R34, R48). -/
def OpKind.ok (k : OpKind) (op : BitVec 5) (q : BitVec 2) : Bool :=
  match k with
  | .fixed => true
  | .int => op.toNat % 16 < 8 && (!op.getLsbD 4 || (2 ≤ op.toNat % 16 && op.toNat % 16 ≤ 5))
  | .flt => op.toNat < 8
  | .cvt => op.toNat < 17 && (cvtRounds op || q == 0)

/-- The fields of a format R word are legal for its row. -/
def Form.ok (sp : Form) (f : RF) (op : BitVec 5) (x : Option Ext) : Bool :=
  sp.d.ok f.d && sp.a.ok f.a && sp.b.ok f.b && (sp.ta || !f.ta) && (sp.tb || !f.tb) && sp.qf.contains f.qf.toNat &&
    sp.opk.ok op f.qf && (match x with | some x => sp.ext.ok f op x | none => true)

/-- VTOPK.drain writes two different registers (R259); the other rows relate no two register fields. -/
def Instr.distinct : Instr → Bool
  | .vtopkDrain f => f.d != f.a
  | _ => true

/-- The fields of an encoding are legal for its row (R34-R48). -/
def View.ok : View → Bool
  | .r sp f op x _ => sp.ok f op x
  | .i op f => op.toNat < 6 || f.imm.toNat < 64
  | .ci f => OpKind.int.ok f.op 0
  | .b _ _ => true
  | .word _ => true
  | .event => false

/-- The instruction is one the spec's tables name: every field is in its class, range and code set (R34-R48).
An event row has no encoding, so no event is a well-formed instruction. -/
def Instr.wf (i : Instr) : Bool := i.distinct && i.view.ok

end Sys2Proof
end

