-- ==== Sys2Proof/Decode.lean ====
section
/-! DEFINITION. The decoder (spec 03_encoding R32-R50), total on any bytes, and the encoder, written from the same tables. -/

namespace Sys2Proof

/-- Why words are no instruction (R49 orders 3-8). All but `truncated` raise Illegal Instruction. -/
inductive Reject where
  /-- fewer words than the base word's LEN asks for -/
  | truncated
  /-- a reserved major, minor or KIND (order 4) -/
  | reservedOpcode
  /-- a LEN the minor does not allow (order 5) -/
  | badLength
  /-- a reserved or illegal field (orders 6-8) -/
  | badField
deriving DecidableEq, Repr

/-- The number of words of an instruction by its base word (R32, R50). -/
def instrWords (w : W32) : Nat :=
  if w = 0 ∨ w = 0xFFFFFFFF#32 then 1
  else match (w.extractLsb' 30 2).toNat with
    | 0 => 1
    | 1 => 3
    | 2 => 3
    | _ => 5

/-- The format R fields of a base word (R33). -/
def unpackR (w : W32) : RF :=
  { d := w.extractLsb' 19 5, a := w.extractLsb' 14 5, b := w.extractLsb' 9 5,
    ta := w.getLsbD 8, tb := w.getLsbD 7, qf := w.extractLsb' 5 2 }

/-- A format R base word (R33). -/
def packR (len : BitVec 2) (maj : BitVec 6) (op : BitVec 5) (f : RF) : W32 :=
  len ++ maj ++ f.d ++ f.a ++ f.b ++ BitVec.ofBool f.ta ++ BitVec.ofBool f.tb ++ f.qf ++ op

/-- The format I fields of a base word (R33). -/
def unpackI (w : W32) : IForm :=
  { d := w.extractLsb' 19 5, a := w.extractLsb' 14 5, ta := w.getLsbD 13, imm := w.extractLsb' 4 9 }

/-- A format I base word, major 0x02 (R33). -/
def packI (op : BitVec 4) (f : IForm) : W32 :=
  2#8 ++ f.d ++ f.a ++ BitVec.ofBool f.ta ++ f.imm ++ op

/-- The format CI fields of a base word (R33). -/
def unpackCI (w : W32) : CIForm :=
  { a := w.extractLsb' 14 5, ta := w.getLsbD 8, imm := w.extractLsb' 19 5 ++ w.extractLsb' 9 5,
    sk := w.extractLsb' 5 2, op := w.extractLsb' 0 5 }

/-- A format CI base word, major 0x09 (R33). -/
def packCI (f : CIForm) : W32 :=
  9#8 ++ f.imm.extractLsb' 5 5 ++ f.a ++ f.imm.extractLsb' 0 5 ++ BitVec.ofBool f.ta ++ 0#1 ++ f.sk ++ f.op

/-- A format B base word, major 0x0A (R33). -/
def packB (kind : BitVec 2) (off : BitVec 22) : W32 := 10#8 ++ kind ++ off

/-- The fields of E1, with E2 (R36, R37). -/
def unpackE (e1 e2 : W32) : Ext :=
  { handle := e1.extractLsb' 16 16, scope := e1.extractLsb' 12 4, order := e1.extractLsb' 9 3, mask := e1.extractLsb' 6 3,
    type := e1.extractLsb' 2 4, xm := e1.extractLsb' 0 2, e2 := e2 }

/-- Extension word E1 (R36). -/
def packE (x : Ext) : W32 := x.handle ++ x.scope ++ x.order ++ x.mask ++ x.type ++ x.xm

/-- The words of an encoding in increasing address order (R32). An event has none. -/
def View.words : View → List W32
  | .r sp f op none none => [packR 0 sp.maj op f]
  | .r sp f op (some x) none => [packR 1 sp.maj op f, packE x, x.e2]
  | .r sp f op none (some l) => [packR 2 sp.maj op f, l.extractLsb' 0 32, l.extractLsb' 32 32]
  | .r sp f op (some x) (some l) => [packR 3 sp.maj op f, packE x, x.e2, l.extractLsb' 0 32, l.extractLsb' 32 32]
  | .i op f => [packI op f]
  | .ci f => [packCI f]
  | .b kind off => [packB kind off]
  | .word w => [w]
  | .event => []

/-- The words of an instruction. -/
def encode (i : Instr) : List W32 := i.view.words

/-- Major opcode 0x01 (R46). -/
noncomputable def major1 (len : Nat) (op : BitVec 5) (f : RF) (_x : Ext) (lit : Word) : Option Instr :=
  match len, op.toNat with
  | 0, 0 => some (.add f)
  | 0, 1 => some (.sub f)
  | 0, 2 => some (.mul f)
  | 0, 3 => some (.mulh f)
  | 0, 4 => some (.div f)
  | 0, 5 => some (.rem f)
  | 0, 6 => some (.and f)
  | 0, 7 => some (.or f)
  | 0, 8 => some (.xor f)
  | 0, 9 => some (.shl f)
  | 0, 10 => some (.shr f)
  | 0, 11 => some (.sha f)
  | 0, 12 => some (.min f)
  | 0, 13 => some (.max f)
  | 0, 14 => some (.clz f)
  | 0, 15 => some (.popc f)
  | 0, 16 => some (.sext f)
  | 2, 0 => some (.addLiteral f lit)
  | 2, 1 => some (.subLiteral f lit)
  | 2, 2 => some (.mulLiteral f lit)
  | 2, 3 => some (.mulhLiteral f lit)
  | 2, 4 => some (.divLiteral f lit)
  | 2, 5 => some (.remLiteral f lit)
  | 2, 6 => some (.andLiteral f lit)
  | 2, 7 => some (.orLiteral f lit)
  | 2, 8 => some (.xorLiteral f lit)
  | 2, 9 => some (.shlLiteral f lit)
  | 2, 10 => some (.shrLiteral f lit)
  | 2, 11 => some (.shaLiteral f lit)
  | 2, 12 => some (.minLiteral f lit)
  | 2, 13 => some (.maxLiteral f lit)
  | _, _ => none

/-- Major opcode 0x03 (R46). -/
noncomputable def major3 (len : Nat) (op : BitVec 5) (f : RF) (x : Ext) (lit : Word) : Option Instr :=
  match len, op.toNat with
  | 0, 0 => some (.mov f)
  | 2, 1 => some (.li f lit)
  | 1, 2 => some (.bfx f x)
  | 1, 3 => some (.bfi f x)
  | _, _ => none

/-- Major opcode 0x04 (R46). -/
noncomputable def major4 (len : Nat) (op : BitVec 5) (f : RF) (_x : Ext) (_lit : Word) : Option Instr :=
  match len, op.toNat with
  | 0, 0 => some (.mix f)
  | _, _ => none

/-- Major opcode 0x08 (R46). -/
noncomputable def major8 (len : Nat) (op : BitVec 5) (f : RF) (_x : Ext) (lit : Word) : Option Instr :=
  match len with
  | 0 => some (.cmp f op)
  | 2 => some (.cmpLiteral f op lit)
  | _ => none

/-- Major opcode 0x0b (R46). -/
noncomputable def major11 (len : Nat) (op : BitVec 5) (f : RF) (x : Ext) (_lit : Word) : Option Instr :=
  match len, op.toNat with
  | 0, 0 => some (.br f)
  | 0, 1 => some (.blr f)
  | 0, 2 => some (.ret)
  | 1, 3 => some (.loop f x)
  | 0, 4 => some (.lbrk)
  | _, _ => none

/-- Major opcode 0x0c (R46). -/
noncomputable def major12 (len : Nat) (op : BitVec 5) (f : RF) (_x : Ext) (_lit : Word) : Option Instr :=
  match len, op.toNat with
  | 0, 0 => some (.fadd f)
  | 0, 1 => some (.fsub f)
  | 0, 2 => some (.fmul f)
  | 0, 3 => some (.fdiv f)
  | 0, 4 => some (.fmin f)
  | 0, 5 => some (.fmax f)
  | 0, 6 => some (.fsqrt f)
  | 0, 7 => some (.fma f)
  | _, _ => none

/-- Major opcode 0x0d (R46). -/
noncomputable def major13 (len : Nat) (op : BitVec 5) (f : RF) (_x : Ext) (_lit : Word) : Option Instr :=
  match len, op.toNat with
  | 0, 0 => some (.cvtfi f)
  | 0, 1 => some (.cvtfn f)
  | 0, 2 => some (.cvtif f)
  | 0, 3 => some (.cvtnf f)
  | 0, 4 => some (.fclass f)
  | _, _ => none

/-- Major opcode 0x0e (R46). -/
noncomputable def major14 (len : Nat) (op : BitVec 5) (f : RF) (_x : Ext) (_lit : Word) : Option Instr :=
  match len, op.toNat with
  | 0, 0 => some (.fexp2 f)
  | 0, 1 => some (.flog2 f)
  | 0, 2 => some (.frcp f)
  | 0, 3 => some (.frsq f)
  | _, _ => none

/-- Major opcode 0x0f (R46). -/
noncomputable def major15 (len : Nat) (op : BitVec 5) (f : RF) (_x : Ext) (_lit : Word) : Option Instr :=
  match len with
  | 0 => some (.fcmp f op)
  | _ => none

/-- Major opcode 0x10 (R46). -/
noncomputable def major16 (len : Nat) (op : BitVec 5) (f : RF) (x : Ext) (_lit : Word) : Option Instr :=
  match len, op.toNat with
  | 0, 0 => some (.vadd f)
  | 0, 1 => some (.vsub f)
  | 0, 2 => some (.vmul f)
  | 0, 3 => some (.vmin f)
  | 0, 4 => some (.vmax f)
  | 0, 5 => some (.vand f)
  | 0, 6 => some (.vor f)
  | 0, 7 => some (.vxor f)
  | 0, 8 => some (.vshl f)
  | 0, 9 => some (.vshr f)
  | 0, 10 => some (.vsha f)
  | 0, 11 => some (.vdiv f)
  | 1, 0 => some (.vaddExt f x)
  | 1, 1 => some (.vsubExt f x)
  | 1, 2 => some (.vmulExt f x)
  | 1, 3 => some (.vminExt f x)
  | 1, 4 => some (.vmaxExt f x)
  | 1, 5 => some (.vandExt f x)
  | 1, 6 => some (.vorExt f x)
  | 1, 7 => some (.vxorExt f x)
  | 1, 8 => some (.vshlExt f x)
  | 1, 9 => some (.vshrExt f x)
  | 1, 10 => some (.vshaExt f x)
  | 1, 11 => some (.vdivExt f x)
  | _, _ => none

/-- Major opcode 0x11 (R46). -/
noncomputable def major17 (len : Nat) (op : BitVec 5) (f : RF) (x : Ext) (_lit : Word) : Option Instr :=
  match len, op.toNat with
  | 0, 0 => some (.vfma f)
  | 0, 1 => some (.vfms f)
  | 0, 2 => some (.vabs f)
  | 0, 3 => some (.vneg f)
  | 0, 4 => some (.vsqrt f)
  | 0, 5 => some (.vsel f)
  | 1, 0 => some (.vfmaExt f x)
  | 1, 1 => some (.vfmsExt f x)
  | 1, 2 => some (.vabsExt f x)
  | 1, 3 => some (.vnegExt f x)
  | 1, 4 => some (.vsqrtExt f x)
  | 1, 5 => some (.vselExt f x)
  | _, _ => none

/-- Major opcode 0x12 (R46). -/
noncomputable def major18 (len : Nat) (op : BitVec 5) (f : RF) (x : Ext) (_lit : Word) : Option Instr :=
  match len with
  | 0 => some (.vcmp f op)
  | 1 => some (.vcmpExt f op x)
  | _ => none

/-- Major opcode 0x13 (R46). -/
noncomputable def major19 (len : Nat) (op : BitVec 5) (f : RF) (_x : Ext) (_lit : Word) : Option Instr :=
  match len, op.toNat with
  | 0, 0 => some (.mand f)
  | 0, 1 => some (.mor f)
  | 0, 2 => some (.mxor f)
  | 0, 3 => some (.mnot f)
  | 0, 4 => some (.mpopc f)
  | _, _ => none

/-- Major opcode 0x14 (R46). -/
noncomputable def major20 (len : Nat) (op : BitVec 5) (f : RF) (x : Ext) (_lit : Word) : Option Instr :=
  match len with
  | 0 => some (.vcvt f op)
  | 1 => some (.vcvtExt f op x)
  | _ => none

/-- Major opcode 0x15 (R46). -/
noncomputable def major21 (len : Nat) (op : BitVec 5) (f : RF) (x : Ext) (_lit : Word) : Option Instr :=
  match len, op.toNat with
  | 0, 0 => some (.vexp2 f)
  | 0, 1 => some (.vlog2 f)
  | 0, 2 => some (.vrcp f)
  | 0, 3 => some (.vrsq f)
  | 0, 4 => some (.vexp f)
  | 1, 0 => some (.vexp2Ext f x)
  | 1, 1 => some (.vlog2Ext f x)
  | 1, 2 => some (.vrcpExt f x)
  | 1, 3 => some (.vrsqExt f x)
  | 1, 4 => some (.vexpExt f x)
  | _, _ => none

/-- Major opcode 0x18 (R46). -/
noncomputable def major24 (len : Nat) (op : BitVec 5) (f : RF) (x : Ext) (_lit : Word) : Option Instr :=
  match len, op.toNat with
  | 0, 0 => some (.vrsum f)
  | 0, 1 => some (.vrmax f)
  | 0, 2 => some (.vrmin f)
  | 0, 3 => some (.vscan f)
  | 0, 4 => some (.vscanX f)
  | 1, 0 => some (.vrsumExt f x)
  | 1, 1 => some (.vrmaxExt f x)
  | 1, 2 => some (.vrminExt f x)
  | 1, 3 => some (.vscanExt f x)
  | 1, 4 => some (.vscanXExt f x)
  | _, _ => none

/-- Major opcode 0x19 (R46). -/
noncomputable def major25 (len : Nat) (op : BitVec 5) (f : RF) (x : Ext) (_lit : Word) : Option Instr :=
  match len, op.toNat with
  | 0, 0 => some (.vperm f)
  | 1, 0 => some (.vpermRotate f x)
  | 0, 1 => some (.vbcast f)
  | 1, 1 => some (.vbcastExt f x)
  | 0, 2 => some (.vins f)
  | 1, 2 => some (.vinsImmediate f x)
  | 0, 3 => some (.vext f)
  | 1, 3 => some (.vextImmediate f x)
  | 0, 4 => some (.vtrans f)
  | 0, 5 => some (.viota f)
  | 1, 5 => some (.viotaExt f x)
  | _, _ => none

/-- Major opcode 0x1a (R46). -/
noncomputable def major26 (len : Nat) (op : BitVec 5) (f : RF) (x : Ext) (_lit : Word) : Option Instr :=
  match len, op.toNat with
  | 0, 0 => some (.vtopkAdd f)
  | 1, 0 => some (.vtopkAddExt f x)
  | 0, 1 => some (.vtopkDrain f)
  | 0, 2 => some (.vtopkClr f)
  | _, _ => none

/-- Major opcode 0x1b (R46). -/
noncomputable def major27 (len : Nat) (op : BitVec 5) (f : RF) (x : Ext) (_lit : Word) : Option Instr :=
  match len, op.toNat with
  | 0, 0 => some (.wadd f)
  | 1, 0 => some (.waddExt f x)
  | 0, 1 => some (.waddm f)
  | 1, 1 => some (.waddmExt f x)
  | 0, 2 => some (.wrnd f)
  | 1, 2 => some (.wrndExt f x)
  | 0, 3 => some (.wmean f)
  | 1, 3 => some (.wmeanExt f x)
  | 0, 4 => some (.wscale f)
  | 1, 4 => some (.wscaleExt f x)
  | _, _ => none

/-- Major opcode 0x1c (R46). -/
noncomputable def major28 (len : Nat) (op : BitVec 5) (f : RF) (x : Ext) (_lit : Word) : Option Instr :=
  match len, op.toNat with
  | 0, 0 => some (.setview f)
  | 0, 1 => some (.vmov f)
  | 0, 2 => some (.spld f)
  | 1, 2 => some (.spldOffset f x)
  | 0, 3 => some (.spst f)
  | 1, 3 => some (.spstOffset f x)
  | _, _ => none

/-- Major opcode 0x1d (R46). -/
noncomputable def major29 (len : Nat) (op : BitVec 5) (f : RF) (x : Ext) (_lit : Word) : Option Instr :=
  match len, op.toNat with
  | 1, 0 => some (.sopen f x)
  | 0, 1 => some (.stend f)
  | 0, 2 => some (.sclose f)
  | _, _ => none

/-- Major opcode 0x1e (R46). -/
noncomputable def major30 (len : Nat) (op : BitVec 5) (f : RF) (x : Ext) (_lit : Word) : Option Instr :=
  match len, op.toNat with
  | 1, 0 => some (.fopen f x)
  | 0, 1 => some (.fadv f)
  | 0, 2 => some (.ftend f)
  | 0, 3 => some (.fclose f)
  | 0, 4 => some (.fisect f)
  | _, _ => none

/-- Major opcode 0x20 (R46). -/
noncomputable def major32 (len : Nat) (op : BitVec 5) (f : RF) (x : Ext) (_lit : Word) : Option Instr :=
  match len, op.toNat with
  | 0, 0 => some (.ldSlot f)
  | 1, 0 => some (.ldSlotExt f x)
  | 0, 2 => some (.vldSlot f)
  | 1, 2 => some (.vldSlotExt f x)
  | 0, 1 => some (.stSlot f)
  | 1, 1 => some (.stSlotExt f x)
  | 0, 3 => some (.vstSlot f)
  | 1, 3 => some (.vstSlotExt f x)
  | 1, 4 => some (if f.qf = 1 then .setfeF f x else .setfeE f x)
  | 1, 5 => some (.tstfe f x)
  | _, _ => none

/-- Major opcode 0x21 (R46). -/
noncomputable def major33 (len : Nat) (op : BitVec 5) (f : RF) (x : Ext) (lit : Word) : Option Instr :=
  match len, op.toNat with
  | 0, 0 => some (.klook f)
  | 2, 0 => some (.klookLiteral f lit)
  | 1, 1 => some (.kbind f x)
  | 3, 1 => some (.kbindLiteral f x lit)
  | 0, 2 => some (.kpin f)
  | 2, 2 => some (.kpinLiteral f lit)
  | 0, 3 => some (.kunpin f)
  | 2, 3 => some (.kunpinLiteral f lit)
  | 0, 4 => some (.kunbind f)
  | 2, 4 => some (.kunbindLiteral f lit)
  | 0, 5 => some (.kvict f)
  | 0, 6 => some (.kstat f)
  | 2, 6 => some (.kstatLiteral f lit)
  | _, _ => none

/-- Major opcode 0x22 (R46). -/
noncomputable def major34 (len : Nat) (op : BitVec 5) (f : RF) (x : Ext) (lit : Word) : Option Instr :=
  match len, op.toNat with
  | 1, 0 => some (.kmlook f x)
  | 3, 0 => some (.kmlookLiteral f x lit)
  | 1, 1 => some (.kmbind f x)
  | 3, 1 => some (.kmbindLiteral f x lit)
  | 1, 2 => some (.kmpin f x)
  | 3, 2 => some (.kmpinLiteral f x lit)
  | 1, 3 => some (.kmunpin f x)
  | 3, 3 => some (.kmunpinLiteral f x lit)
  | 1, 4 => some (.kmunbind f x)
  | 3, 4 => some (.kmunbindLiteral f x lit)
  | 1, 5 => some (.kmstat f x)
  | 3, 5 => some (.kmstatLiteral f x lit)
  | _, _ => none

/-- Major opcode 0x24 (R46). -/
noncomputable def major36 (len : Nat) (op : BitVec 5) (f : RF) (x : Ext) (_lit : Word) : Option Instr :=
  match len, op.toNat with
  | 1, 0 => some (.lnarrow f x)
  | 1, 1 => some (.lread f x)
  | 1, 2 => some (.lwrite f x)
  | _, _ => none

/-- Major opcode 0x25 (R46). -/
noncomputable def major37 (len : Nat) (op : BitVec 5) (f : RF) (x : Ext) (_lit : Word) : Option Instr :=
  match len, op.toNat with
  | 1, 0 => some (.ldDevice f x)
  | 1, 1 => some (.stDevice f x)
  | 1, 2 => some (.vldDevice f x)
  | 1, 3 => some (.vstDevice f x)
  | _, _ => none

/-- Major opcode 0x26 (R46). -/
noncomputable def major38 (len : Nat) (op : BitVec 5) (f : RF) (x : Ext) (_lit : Word) : Option Instr :=
  match len, op.toNat with
  | 1, 0 => some (.gather f x)
  | 1, 1 => some (.scatter f x)
  | _, _ => none

/-- Major opcode 0x27 (R46). -/
noncomputable def major39 (len : Nat) (op : BitVec 5) (f : RF) (x : Ext) (_lit : Word) : Option Instr :=
  match len, op.toNat with
  | 1, 0 => some (.aadd f x)
  | 1, 1 => some (.amin f x)
  | 1, 2 => some (.amax f x)
  | 1, 3 => some (.aand f x)
  | 1, 4 => some (.aor f x)
  | 1, 5 => some (.axor f x)
  | 1, 6 => some (.aswap f x)
  | 1, 7 => some (.acas f x)
  | 1, 8 => some (.acas4 f x)
  | 1, 9 => some (.aenq f x)
  | 1, 10 => some (.achase f x)
  | _, _ => none

/-- Major opcode 0x28 (R46). -/
noncomputable def major40 (len : Nat) (op : BitVec 5) (f : RF) (x : Ext) (_lit : Word) : Option Instr :=
  match len, op.toNat with
  | 1, 0 => some (.rwrd f x)
  | 1, 1 => some (.rwwr f x)
  | 1, 2 => some (.rwrdx f x)
  | 1, 3 => some (.rwwrx f x)
  | 1, 4 => some (.rwtry f x)
  | 1, 5 => some (.ldsync f x)
  | 1, 6 => some (.stsync f x)
  | _, _ => none

/-- Major opcode 0x29 (R46). -/
noncomputable def major41 (len : Nat) (op : BitVec 5) (f : RF) (x : Ext) (_lit : Word) : Option Instr :=
  match len, op.toNat with
  | 1, 0 => some (.waitne f x)
  | _, _ => none

/-- Major opcode 0x2a (R46). -/
noncomputable def major42 (len : Nat) (op : BitVec 5) (f : RF) (_x : Ext) (_lit : Word) : Option Instr :=
  match len, op.toNat with
  | 0, 0 => some (.chapp f)
  | 0, 1 => some (.chwait f)
  | 0, 2 => some (.chseq f)
  | _, _ => none

/-- Major opcode 0x2b (R46). -/
noncomputable def major43 (len : Nat) (op : BitVec 5) (f : RF) (_x : Ext) (_lit : Word) : Option Instr :=
  match len, op.toNat with
  | 0, 0 => some (.btset f)
  | 0, 1 => some (.bten f)
  | 0, 2 => some (.rbset f)
  | _, _ => none

/-- Major opcode 0x2c (R46). -/
noncomputable def major44 (len : Nat) (op : BitVec 5) (f : RF) (_x : Ext) (_lit : Word) : Option Instr :=
  match len, op.toNat with
  | 0, 0 => some (.msave f)
  | 0, 1 => some (.mload f)
  | 0, 2 => some (.mzero f)
  | _, _ => none

/-- Major opcode 0x2e (R46). -/
noncomputable def major46 (len : Nat) (op : BitVec 5) (f : RF) (_x : Ext) (_lit : Word) : Option Instr :=
  match len, op.toNat with
  | 0, 0 => some (.send f)
  | 0, 1 => some (.recv f)
  | 0, 2 => some (.recvnb f)
  | 0, 3 => some (.eos f)
  | _, _ => none

/-- Major opcode 0x2f (R46). -/
noncomputable def major47 (len : Nat) (op : BitVec 5) (f : RF) (_x : Ext) (_lit : Word) : Option Instr :=
  match len, op.toNat with
  | 0, 0 => some (if f.qf = 1 then .parkPool else .parkRes)
  | _, _ => none

/-- Major opcode 0x30 (R46). -/
noncomputable def major48 (len : Nat) (op : BitVec 5) (f : RF) (_x : Ext) (_lit : Word) : Option Instr :=
  match len, op.toNat with
  | 0, 0 => some (.barrive f)
  | 0, 1 => some (.bwait f)
  | 0, 2 => some (.bsync f)
  | 0, 3 => some (.bdrop f)
  | _, _ => none

/-- Major opcode 0x32 (R46). -/
noncomputable def major50 (len : Nat) (op : BitVec 5) (f : RF) (_x : Ext) (_lit : Word) : Option Instr :=
  match len, op.toNat with
  | 0, 0 => some (.devnum f)
  | _, _ => none

/-- Major opcode 0x33 (R46). -/
noncomputable def major51 (len : Nat) (op : BitVec 5) (f : RF) (x : Ext) (_lit : Word) : Option Instr :=
  match len, op.toNat with
  | 1, 0 => some (.mcst f x)
  | _, _ => none

/-- Major opcode 0x34 (R46). -/
noncomputable def major52 (len : Nat) (op : BitVec 5) (f : RF) (x : Ext) (_lit : Word) : Option Instr :=
  match len, op.toNat with
  | 1, 0 => some (.slsend f x)
  | _, _ => none

/-- Major opcode 0x35 (R46). -/
noncomputable def major53 (len : Nat) (op : BitVec 5) (f : RF) (x : Ext) (_lit : Word) : Option Instr :=
  match len, op.toNat with
  | 1, 0 => some (.reduce f x)
  | _, _ => none

/-- Major opcode 0x36 (R46). -/
noncomputable def major54 (len : Nat) (op : BitVec 5) (f : RF) (x : Ext) (_lit : Word) : Option Instr :=
  match len, op.toNat with
  | 0, 0 => some (.claim f)
  | 1, 0 => some (.claimImmediate f x)
  | 0, 1 => some (.acq f)
  | 1, 1 => some (.acqImmediate f x)
  | 0, 2 => some (.acqNb f)
  | 1, 2 => some (.acqNbImmediate f x)
  | 0, 3 => some (.rel f)
  | 1, 3 => some (.relImmediate f x)
  | _, _ => none

/-- Major opcode 0x38 (R46). -/
noncomputable def major56 (len : Nat) (op : BitVec 5) (f : RF) (x : Ext) (_lit : Word) : Option Instr :=
  match len, op.toNat with
  | 1, 0 => some (.trap f x)
  | 0, 1 => some (.returnOp)
  | _, _ => none

/-- Major opcode 0x39 (R46). -/
noncomputable def major57 (len : Nat) (op : BitVec 5) (f : RF) (x : Ext) (_lit : Word) : Option Instr :=
  match len, op.toNat with
  | 1, 0 => some (.crrd f x)
  | 1, 1 => some (.crwr f x)
  | _, _ => none

/-- Major opcode 0x3a (R46). -/
noncomputable def major58 (len : Nat) (op : BitVec 5) (f : RF) (x : Ext) (_lit : Word) : Option Instr :=
  match len, op.toNat with
  | 0, 0 => some (.fence f)
  | 1, 0 => some (.fenceExt f x)
  | 0, 1 => some (.ppoint f)
  | 0, 2 => some (.yield)
  | 0, 3 => some (.halt)
  | _, _ => none

/-- Major opcode 0x3b (R46). -/
noncomputable def major59 (len : Nat) (op : BitVec 5) (f : RF) (_x : Ext) (_lit : Word) : Option Instr :=
  match len, op.toNat with
  | 0, 0 => some (.tlbinv f)
  | 0, 1 => some (.replay)
  | _, _ => none


/-- The instruction of a format R word, by major opcode, LEN and minor opcode (R46).
No other combination names an instruction. -/
noncomputable def candidateR (maj len : Nat) (op : BitVec 5) (f : RF) (x : Ext) (lit : Word) : Option Instr :=
  match maj with
  | 1 => major1 len op f x lit
  | 3 => major3 len op f x lit
  | 4 => major4 len op f x lit
  | 8 => major8 len op f x lit
  | 11 => major11 len op f x lit
  | 12 => major12 len op f x lit
  | 13 => major13 len op f x lit
  | 14 => major14 len op f x lit
  | 15 => major15 len op f x lit
  | 16 => major16 len op f x lit
  | 17 => major17 len op f x lit
  | 18 => major18 len op f x lit
  | 19 => major19 len op f x lit
  | 20 => major20 len op f x lit
  | 21 => major21 len op f x lit
  | 24 => major24 len op f x lit
  | 25 => major25 len op f x lit
  | 26 => major26 len op f x lit
  | 27 => major27 len op f x lit
  | 28 => major28 len op f x lit
  | 29 => major29 len op f x lit
  | 30 => major30 len op f x lit
  | 32 => major32 len op f x lit
  | 33 => major33 len op f x lit
  | 34 => major34 len op f x lit
  | 36 => major36 len op f x lit
  | 37 => major37 len op f x lit
  | 38 => major38 len op f x lit
  | 39 => major39 len op f x lit
  | 40 => major40 len op f x lit
  | 41 => major41 len op f x lit
  | 42 => major42 len op f x lit
  | 43 => major43 len op f x lit
  | 44 => major44 len op f x lit
  | 46 => major46 len op f x lit
  | 47 => major47 len op f x lit
  | 48 => major48 len op f x lit
  | 50 => major50 len op f x lit
  | 51 => major51 len op f x lit
  | 52 => major52 len op f x lit
  | 53 => major53 len op f x lit
  | 54 => major54 len op f x lit
  | 56 => major56 len op f x lit
  | 57 => major57 len op f x lit
  | 58 => major58 len op f x lit
  | 59 => major59 len op f x lit
  | _ => none

/-- The instruction of a format I word (R35). -/
noncomputable def candidateI (op : Nat) (f : IForm) : Option Instr :=
  match op with
  | 0 => some (.addImmediate f)
  | 1 => some (.subImmediate f)
  | 2 => some (.mulImmediate f)
  | 3 => some (.andImmediate f)
  | 4 => some (.orImmediate f)
  | 5 => some (.xorImmediate f)
  | 6 => some (.shlImmediate f)
  | 7 => some (.shrImmediate f)
  | 8 => some (.shaImmediate f)
  | _ => none

/-- The instruction of a format B word (R33). -/
noncomputable def candidateB (kind : Nat) (off : BitVec 22) : Option Instr :=
  match kind with
  | 0 => some (.b off)
  | 1 => some (.bl off)
  | _ => none

/-- The instruction that major, LEN and minor name, with the fields as they stand (R46). -/
noncomputable def candidate (len : Nat) (w e1 e2 : W32) (lit : Word) : Option Instr :=
  let maj := (w.extractLsb' 24 6).toNat
  if maj = 2 then (if len = 0 then candidateI (w.extractLsb' 0 4).toNat (unpackI w) else none)
  else if maj = 9 then (if len = 0 then some (.cmpImmediate (unpackCI w)) else none)
  else if maj = 10 then (if len = 0 then candidateB (w.extractLsb' 22 2).toNat (w.extractLsb' 0 22) else none)
  else candidateR maj len (w.extractLsb' 0 5) (unpackR w) (unpackE e1 e2) lit

/-- The candidate of some LEN exists, so the major and minor are not reserved (R49 order 4). -/
noncomputable def opcodeKnown (w : W32) : Bool :=
  [0, 1, 2, 3].any fun len => (candidate len w 0 0 0).isSome

/-- Checks orders 4 to 8 of R49 on an instruction all of whose words are `ws`. -/
noncomputable def checked (ws : List W32) (w e1 e2 : W32) (lit : Word) : Except Reject Instr :=
  match candidate (w.extractLsb' 30 2).toNat w e1 e2 lit with
  | none => if opcodeKnown w then .error .badLength else .error .reservedOpcode
  | some i => if i.wf && encode i == ws then .ok i else .error .badField

/-- A 64-bit literal from its two words, low word first (R42). -/
def literal (lo hi : W32) : Word := hi ++ lo

/-- Decodes the instruction that begins a list of words (R49 orders 1-8). -/
noncomputable def decodeWords : List W32 → Except Reject Instr
  | [] => .error .truncated
  | w :: rest =>
    if w = 0 then .ok .zeroWord
    else if w = 0xFFFFFFFF#32 then .ok .breakWord
    else match (w.extractLsb' 30 2).toNat, rest with
      | 0, _ => checked [w] w 0 0 0
      | 1, e1 :: e2 :: _ => checked [w, e1, e2] w e1 e2 0
      | 2, l0 :: l1 :: _ => checked [w, l0, l1] w 0 0 (literal l0 l1)
      | 3, e1 :: e2 :: l0 :: l1 :: _ => checked [w, e1, e2, l0, l1] w e1 e2 (literal l0 l1)
      | _, _ => .error .truncated

/-- The little-endian words of a list of bytes; a tail of fewer than four bytes is no word (R32). -/
def wordsOfBytes : List Byte → List W32
  | b0 :: b1 :: b2 :: b3 :: rest => (b3 ++ b2 ++ b1 ++ b0) :: wordsOfBytes rest
  | _ => []

/-- The bytes of a word in increasing address order (R32). -/
def bytesOfWord (w : W32) : List Byte :=
  [w.extractLsb' 0 8, w.extractLsb' 8 8, w.extractLsb' 16 8, w.extractLsb' 24 8]

/-- Decodes the instruction that begins a list of bytes; total on any bytes. -/
noncomputable def decode (bs : List Byte) : Except Reject Instr := decodeWords (wordsOfBytes bs)

/-- The words of the instruction whose bits are `w`, `nbits` of them given and the others 0, five words in all. -/
def tableWords (nbits w : Nat) : List W32 :=
  let v := w % 2 ^ nbits
  [BitVec.ofNat 32 v, BitVec.ofNat 32 (v >>> 32), BitVec.ofNat 32 (v >>> 64), BitVec.ofNat 32 (v >>> 96),
    BitVec.ofNat 32 (v >>> 128)]

/-- The instruction this decoder reads from an opcode-table word (bit 0 is bit 0 of the first word), laid out as the
hardware stores it. -/
noncomputable def decodeTableWord (nbits w : Nat) : Option Instr :=
  match decode ((tableWords nbits w).flatMap bytesOfWord) with
  | .ok i => some i
  | .error _ => none

end Sys2Proof
end

