-- ==== Sys2Proof/Config.lean ====
section
/-! DEFINITION. What the spec leaves open: uninterpreted constants, of which nothing can be proved (log 2, 5, 7). -/

namespace Sys2Proof.Config

/-- A free value for each number: latencies, orders and undefined values (log 2, 7).
The state's counter `freeCtr` supplies a fresh number each time. -/
opaque free : Nat → Nat

/-- The offset of die `d`'s CYCLE counter against the model's cycle (R114: the dies are not aligned). -/
opaque cycleSkew : Nat → Nat

/-- KMAC256 with output length 128 and customization "KNV-CTX" (R371): key number and input bytes to tag (log 5). -/
opaque kmac : Nat → List Byte → BitVec 128

/-- The context key that the root of trust derives at the `n`-th derivation (R371, R391; log 5). -/
opaque contextKey : Nat → Nat

/-- SHAKE256 with the given output length in bits (R387, R388; log 5). -/
opaque shake256 : Nat → List Byte → Nat

/-- Whether an SLH-DSA-SHAKE-256s signature verifies: message and signature bytes (R387, R388, R391; log 5). -/
opaque slhVerify : List Byte → List Byte → Bool

/-- The device's SLH-DSA signature of a message (R387, R389; log 5). -/
opaque slhSign : List Byte → List Byte

/-- The device's public key, 64 bytes (R387; log 5). -/
opaque publicKey : List Byte

/-- Firmware image `i` as the firmware store holds it at manufacture (R388; log 5). -/
opaque factoryImage : Nat → List Byte

/-- Where firmware starts the supervisor strand of die `d` (R398; log 5). -/
opaque serviceEntry : Nat → Word

/-- The service mapping that firmware sets up for the supervisor strands: the root of its page tables, its layout table and its
shared-map directory (R13, R377; log 10). -/
opaque serviceRoot : Nat
opaque serviceLayout : Nat
opaque serviceMaps : Nat

/-- The ROLLBACK counter held in fuses, at manufacture (R388; log 5). -/
opaque rollbackFuse : Nat

/-- The header of a firmware image: its size, which of the four images it is, and its version (R388; log 5). -/
opaque fwSize : List Byte → Nat
opaque fwKind : List Byte → Nat
opaque fwVersion : List Byte → Nat

end Sys2Proof.Config
end

