-- ==== Sys2Proof/Machine/State.lean ====
section
/-! DEFINITION. The machine's state, all of it plain data, and the state after reset (INVENTORY.md, State).
A structure's default values are its state after reset; the rule that names each field stands beside it. -/

namespace Sys2Proof.Machine

/-- Why the machine stops. -/
inductive Fault where
  /-- An untranslated access (a table, ring or descriptor address) lies at or above 576 GiB, where no memory exists
  (R186).
  Raised by `guardPhysical`; safe: the spec gives such an access no effect. -/
  | noSuchAddress
deriving DecidableEq, Repr

/-- Why a meaning gives no answer. -/
inductive Refusal where
  /-- The instruction has no meaning yet.
  Raised by `exec`'s refused arms alone; safe: nothing is claimed of it. -/
  | notModelled (mnemonic : String)
deriving DecidableEq, Repr

/-- A byte memory: the cells that differ from zero, by rising address (log 4). -/
abbrev Memory := List Host.Cell

/-- The canonical form of a memory: addresses strictly rising, no cell equal to the zero that an unlisted address
reads as. -/
def Memory.wf : Memory → Bool
  | [] => true
  | [c] => c.2 != 0
  | c :: d :: rest => c.2 != 0 && decide (c.1 < d.1) && Memory.wf (d :: rest)

/-- Amounts of the three resources: register quanta, slot allowance, accumulator slots (R119). -/
structure Res where
  rq : Nat := 0
  sl : Nat := 0
  ac : Nat := 0
deriving DecidableEq, Repr

/-- An active hardware loop (R107). -/
structure Loop where
  count : Word
  start : Word
  stop : Word
deriving DecidableEq, Repr

/-- A view register: base and stride in bytes (R123). -/
structure ViewReg where
  base : Nat
  stride : Nat
deriving DecidableEq, Repr

/-- A stream generator (R135-R138): `cls` is 0 closed, 1 scalar, 2 vector (the coding of R370). -/
structure Stream where
  cls : Nat := 0
  handle : Nat := 0
  reg : Reg := 0
  type : Nat := 0
  /-- first byte of the bound vector as SOPEN found it, and the record as decoded when the generator was opened or restored -/
  base : Nat := 0
  record : Nat := 0
  rd : List Nat := [0, 0, 0, 0]
  wr : List Nat := [0, 0, 0, 0]
  /-- how far the fetching has come, and the elements fetched and not yet landed, head first -/
  fetchAt : List Nat := [0, 0, 0, 0]
  fetched : List (List Byte) := []
  /-- a fetch is under way -/
  busy : Bool := false
  /-- the head element stands in the bound register -/
  landed : Bool := false
deriving DecidableEq, Repr

/-- A fibre generator (R139) with its last fetched coordinate. -/
structure Fibre where
  isOpen : Bool := false
  handle : Nat := 0
  record : Nat := 0
  p : Nat := 0
  e : Nat := 0
  /-- the coordinate fetched: position and value -/
  got : Option (Nat × Nat) := none
  busy : Bool := false
deriving DecidableEq, Repr

/-- The top-k buffer (R259): capacity and candidates of value and index, in rank order. -/
structure TopK where
  k : Nat := 64
  cands : List (W32 × W32) := []
deriving DecidableEq, Repr

/-- What a strand that waits inside an instruction waits for (R87). `poll` waits issue again at each opportunity. -/
inductive Wait where
  | sreg (r : Reg)
  | lines (first count : Nat)
  /-- a destination is full, or no producer owns it (R22) -/
  | sregOwn (r : Reg)
  | linesOwn (first count : Nat)
  | granules (slot first count : Nat)
  | poll
  /-- the reply of a home; `cancel` once the wait is being taken back at a home on another device (R280) -/
  | reply (serial : Nat)
  | cancel (serial : Nat)
  | acq (serial : Nat)
deriving DecidableEq, Repr

/-- A queued late fault (R349, R351): cause, the PC of the access or the engine's information, the register left
empty, and where it came from. -/
structure LateFault where
  code : Nat
  info : Word
  reg : Nat
  engine : Bool
  store : Bool
  merged : Nat
  /-- the chain of an engine fault -/
  chain : Nat
deriving DecidableEq, Repr

/-- Where a request's result goes. -/
inductive Dst where
  | none
  | scalar (r : Reg)
  /-- bytes of the register space from a window offset -/
  | space (base : Nat)
deriving DecidableEq, Repr

/-- The append that a result will make, made at the write cursor that its instruction found: the number of its request (R136). -/
abbrev Booking := Option Nat

/-- What a strand has heard of a store: its number, and, where that counts only after an acquire FENCE, the store that such a FENCE must
synchronize with (R307, R337, R338; log 13). -/
abbrev Heard := Nat × Option Nat

/-- The scope of a FENCE, and the group of its membership (R307, R340). -/
abbrev FenceAt := Nat × Option Nat

/-- What a replay record keeps of its request beside the image: its place in the program order, its destination, which stays reserved, and
the appends of its results (R136, R366; log 21). -/
structure Redo where
  prog : Nat
  dst : Dst
  app : Booking := none
  app2 : Booking := none
deriving DecidableEq, Repr

/-- A request that a pre-emption or a pooled park has set aside, to be issued again (R366): its words, PC, the values of
its registers a, b, c0 to c3, its vector source, and the number of its destination register. -/
structure Replay where
  words : List W32
  pc : Word
  vals : List Word
  vec : List Byte
  reg : Nat
  redo : Option Redo := none
deriving DecidableEq, Repr

/-- Spin lending (R93): the cycle it ends at the latest and the bytes watched (memory, address, count):
memory 0 device, 1 host, 2 + core the slot store of a core. -/
structure Spin where
  serial : Nat
  watch : List (Nat × Nat × Nat)
deriving DecidableEq, Repr

/-- The state of one strand (R90, R97, R114; R370 saves all of it). -/
structure Strand where
  s : Vector Word 32 := Vector.replicate 32 0
  full : BitVec 32 := BitVec.allOnes 32
  /-- of the empty registers, those that no producer owns since a late fault (R355; log 1) -/
  lost : BitVec 32 := 0
  pc : Word := 0
  /-- mode: privileged (R350) -/
  priv : Bool := false
  /-- pending annulments (R92) -/
  annul : Nat := 0
  /-- active loops, innermost first (R107) -/
  loops : List Loop := []
  /-- the loops set aside by a trap (R350) -/
  aside : List Loop := []
  /-- spin record: program counter and fingerprint (R93) -/
  spinPc : Word := 0
  spinFp : Word := 0
  spin : Option Spin := none
  /-- yielding (R95) -/
  yielding : Bool := false
  /-- halted (R362) -/
  halted : Bool := false
  /-- the wait of a blocked instruction (R87) -/
  wait : Option Wait := none
  /-- device, and OP of the message, of the last channel or barrier operation sent to a home on another device (R280) -/
  far : Option (Nat × Nat) := none
  /-- the cycle of the last issue, none before the first (R87) -/
  last : Option Nat := none
  issued : Word := 0
  lent : Word := 0
  retryLimit : BitVec 16 := 64
  gatherDrops : BitVec 32 := 0
  /-- lane masks m0-m7; m0 reads all ones whatever stands here (R242) -/
  masks : Vector (BitVec 128) 8 := Vector.replicate 8 (BitVec.allOnes 128)
  vView : ViewReg := ⟨0, 512⟩
  aView : ViewReg := ⟨0, 5120⟩
  tView : ViewReg := ⟨0, 4096⟩
  streams : Vector Stream 8 := Vector.replicate 8 {}
  fibres : Vector Fibre 4 := Vector.replicate 4 {}
  topk : TopK := {}
  /-- LWRITE staging buffer (R181) -/
  stage : Vector Word 8 := Vector.replicate 8 0
  trapPc : Word := 0
  trapCause : Word := 0
  trapInfo : Word := 0
  hscratch : Vector Word 4 := Vector.replicate 4 0
  crTarget : Word := 0
  late : List LateFault := []
  /-- requests still to be issued again before the strand's first instruction (R366) -/
  replays : List Replay := []
  /-- a device interrupt is pending at a supervisor strand (R362, R376) -/
  irq : Bool := false
  /-- stores to hot rows that it has read and that some replica lacks, its clock (R337; log 13); the FENCEs with a release side
  that it has issued (R307) -/
  heard : List Heard := []
  fenced : List FenceAt := []
  /-- a replay record is being issued again (R366) -/
  redo : Option Redo := none
deriving DecidableEq, Repr

/-! ### Requests to memory (R182-R201, R188, R296) -/

/-- Where an element access stands: to be translated, held at its station, on its way to the home, parked on a waiting
list there, or done (R188, R199). -/
inductive Phase where
  | walk | held | home | parked | done
deriving DecidableEq, Repr

/-- One element access (R183).
`va` is a virtual address, or an address of the target's slot store in the remote-slot space; `put` is its place in
the destination, `width` the bytes delivered there, sign-extended if `signed`; `data` the bytes stored, or, once done,
read; `pa`, `host` and `sync` what its translation gave; `stamp` numbers its arrival where it is held or parked, and, once it is done,
the moment of a store. -/
structure Elem where
  va : Nat
  size : Nat
  put : Nat
  width : Nat
  signed : Bool
  pa : Nat
  host : Bool
  sync : Bool
  stamp : Nat
  phase : Phase
  data : List Byte
  /-- size of the page that its translation was for (R191) -/
  page : Nat := 16384
deriving DecidableEq, Repr

/-- What a request does at its home. -/
inductive ReqKind where
  | load
  | store
  /-- minor opcode of major 0x27 (R194-R196) -/
  | atomic (op : Nat)
  | chase
  /-- minor opcode of major 0x28, and the qualifier .wr of RWTRY (R198) -/
  | lock (op : Nat) (wr : Bool)
  | ldsync
  | stsync
  | waitne
  /-- a store of a node's link for the AENQ of that number (R196) -/
  | link (aenq : Nat)
  /-- an instruction fetch held at its station (R402) -/
  | fetch
  | streamRead (q : Nat)
  | append (q : Nat)
  | fibreRead (f : Nat)
  /-- an engine's access for an entry: a store or a read (R213, R215) -/
  | engine (e : EntryRef) (store : Bool)
deriving DecidableEq, Repr

/-- A memory request of a strand, from issue to its completion (R182, R188, R365, R366). -/
structure Req where
  id : Nat
  sid : SId
  owner : Owner
  task : Nat
  pid : Nat
  kind : ReqKind
  pc : Word
  /-- SPACE of the record (R177): 0 device, 1 host, 2 peer device, 3 remote slot -/
  space : Nat
  peer : Nat
  rcore : Nat
  order : Nat
  scope : Nat
  spin : Bool
  type : Nat
  dst : Dst
  /-- the status register of ACHASE -/
  dst2 : Reg
  /-- scalar operands: the data, and the expected value of ACAS or the key of ACHASE -/
  x : Word
  y : Word
  /-- vector operands of ACAS4 -/
  xs : List Byte
  ys : List Byte
  /-- failed attempts so far, and whether a waiting writer is counted (R198, R199) -/
  attempts : Nat
  counted : Bool
  /-- of a request from another device: the failed attempts it has left before it parks (R116, R199) -/
  limit : Nat
  serial : Nat
  elems : List Elem
  /-- the words, sources and vector source kept for a replay record (R366) -/
  words : List W32
  vals : List Word
  vec : List Byte
  /-- the result is discarded: its crew was killed (R357) -/
  dead : Bool
  /-- the late cause it has met, 0 for none (R202) -/
  failed : Nat
  /-- the device and TAG of a request that came from a peer, which is answered with a message (R322) -/
  source : Option (Nat × Nat)
  /-- of a peer's store: the number of its message while that is not acknowledged (R336) -/
  ack : Option Nat := none
  /-- the FENCEs with a release side that its strand has issued before it (R307) -/
  fenced : List FenceAt := []
  /-- stores to hot rows that it causally follows, or, of a load, that it has read before all replicas held them (R337, R338; log 13) -/
  deps : List Heard := []
  /-- the appends of its results, of d and of a second destination, if they are bound (R136) -/
  app : Booking := none
  app2 : Booking := none
  /-- its place in the program order where that is not its number: it has been issued again (R366) -/
  prog : Option Nat := none
  /-- it does nothing yet but keep later accesses in order: it stands for a replay record that is still to be issued again (R366; log 21), or
  is an append whose value is not there yet (R136; log 11) -/
  aside : Bool := false
deriving DecidableEq, Repr

/-- A cached leaf translation (R188). -/
structure TlbEntry where
  pid : Nat
  /-- first virtual address and size of the page -/
  va : Nat
  size : Nat
  entry : Word
deriving DecidableEq, Repr

/-- A pending-fault entry (R188). -/
structure PendingFault where
  pid : Nat
  page : Nat
deriving DecidableEq, Repr

/-- One entry of the device fault unit's buffer (R189). -/
structure FaultEntry where
  valid : Bool := false
  abort : Bool := false
  page : Nat := 0
  pid : Nat := 0
  dies : BitVec 4 := 0
  kinds : BitVec 6 := 0
deriving DecidableEq, Repr

/-! ### Chains and engines (R203-R218) -/

/-- An appended entry: its ticket, where its bytes stand (the slot store, or the Hasp strand's own storage), its state
(0 appended, 1 started, 2 complete, 3 faulted), who appended it, and its progress. -/
structure Entry where
  ticket : Nat
  /-- slot-store address of the bytes, none in the Hasp strand's storage; the bytes there, or those the engine read at the start -/
  addr : Option Nat
  bytes : List Byte
  stage : Nat
  /-- the appending strand: its owner, whose instances the waits watch (R208), and its rank -/
  watch : Owner
  rank : Nat
  /-- requests with a lower number were issued before the append (R206) -/
  fork : Nat
  /-- dispatch-ring index, cause of its late fault, and whether that fault halts the instance (R349) -/
  ring : Nat
  code : Nat
  told : Bool
  /-- the fault that halts the instance has been delivered (R345) -/
  sent : Bool := false
  /-- the mode of the appender (R207), and the crew's tables as the append found them (R224, R226) -/
  priv : Bool := true
  beam : List Nat := []
  beamOn : Bool := false
  budget : List Nat := []
  /-- PID of the appender -/
  pid : Nat
  /-- the records it works through, by handle, as read the first time it needed them (R174) -/
  recs : List (Nat × Nat)
  /-- work units not yet moved, and granules, rows or stores not yet landed -/
  todo : List Nat
  flight : Nat
  /-- source granules read ahead of the unit that moves them (R213, R343) -/
  ahead : List (Nat × List Byte) := []
  /-- what the appending strand had heard of at the CHAPP (R337, R343) -/
  deps : List Heard := []
deriving DecidableEq, Repr

/-- A chain instance (R203): counts A and S, halt, storage slots with the chunks used of the last, entries not yet
passed by S. -/
structure Chain where
  a : BitVec 32 := 0
  s : BitVec 32 := 0
  halt : Bool := false
  storage : List Nat := []
  /-- entries placed in the newest storage slot -/
  used : Nat := 0
  entries : List Entry := []
  /-- what the entries passed by S had heard of (R337, R344) -/
  heard : List Heard := []
deriving DecidableEq, Repr

/-- One record of the dispatch ring (R217). -/
structure Dring where
  ticket : Nat := 0
  kind : Nat := 0
  engine : Nat := 0
  pos : Nat := 0
  chain : Nat := 0
  valid : Bool := false
deriving DecidableEq, Repr

/-- An entry of the local key map (R154). -/
structure KeyEntry where
  key : Word
  check : BitVec 32
  slot : Nat
  pin : Nat
  binder : Option Nat
deriving DecidableEq, Repr

/-! ### Accumulator slots and matrix engines (R74, R220-R240) -/

/-- One accumulator element (R74): its class (0 finite, 1 +Inf, 2 -Inf, 3 NaN) and its mantissa M. -/
structure AccElem where
  cls : Nat := 0
  m : Int := 0
deriving DecidableEq, Repr

/-- An accumulator slot (R220): the elements that are not finite zero, by rising index 128 * row + column; the tile
exponent E; the running maxima and sums of the 64 rows. -/
structure AccSlot where
  els : List (Nat × AccElem) := []
  e : Int := -200
  m : Vector W32 64 := Vector.replicate 64 0xFF800000#32
  l : Vector W32 64 := Vector.replicate 64 0
deriving DecidableEq, Repr

/-- A matrix engine (R227-R231): the record it runs, the stage (0 free, 1 reading the index vector, 2 reading operands,
3 computing, 4 draining, 5 suspended by a pre-emption), the next K-group and drain row, the granules latched, the index
vector read, and the crew's tables as captured. -/
structure Engine where
  entry : Option EntryRef := none
  stage : Nat := 0
  g : Nat := 0
  row : Nat := 0
  /-- granules of the K-group under way that are latched -/
  latch : List (Nat × List Byte) := []
  /-- granules of the K-group after it that are latched already, and the cycle in which the K-group under way is applied (R229) -/
  next : List (Nat × List Byte) := []
  due : Nat := 0
  index : List Nat := []
  beam : List Nat := []
  beamOn : Bool := false
  budget : List Nat := []
deriving DecidableEq, Repr

/-- A record suspended at a K-group boundary, kept with its crew (R240). -/
structure Suspended where
  chain : Nat
  ticket : Nat
  g : Nat
  index : List Nat
  beam : List Nat
  beamOn : Bool
  budget : List Nat
deriving DecidableEq, Repr

/-! ### Crews and cores -/

/-- A pending pre-emption (R240, R364): the cycle of the request and the live mask once decided. -/
structure Preempt where
  since : Nat
  mask : Option (BitVec 8)
deriving DecidableEq, Repr

/-- A crew on a core, or what a core keeps for the Hasp strand (R119-R130, R203, R255, R370). -/
structure Crew where
  task : Nat := 0
  pid : Nat := 0
  /-- wheel positions in rank order; none while the crew is pre-empted or gone (R86, R367) -/
  pos : List Nat := []
  placed : Nat := 0
  hold : Res := {}
  floor : Res := {}
  claim : Res := {}
  acMask : BitVec 8 := 0
  /-- the register space, by window offset (R122) -/
  window : Memory := []
  /-- the empty lines of the window, rising (R124) -/
  empty : List Nat := []
  /-- of the empty lines, those that no producer owns since a late fault (R355; log 1) -/
  lost : List Nat := []
  /-- window state of lane l of accumulator a_n at n * 128 + l, where it is not zero (R255) -/
  win : List (Nat × WLane) := []
  chains : Vector Chain 7 := Vector.replicate 7 {}
  beam : Vector (BitVec 16) 64 := Vector.replicate 64 0
  beamOn : Bool := false
  budget : Vector Nat 64 := Vector.replicate 64 8
  /-- LAST of the four memberships (R288) -/
  lastPhase : Vector (Option Nat) 4 := Vector.replicate 4 none
  /-- held (R357) -/
  held : Bool := false
  preempt : Option Preempt := none
  /-- a pre-emption has taken effect, or a cut has recorded it: its strands have stopped (R364, R373) -/
  stopped : Bool := false
  suspended : List Suspended := []
  /-- BSYNCs, by rank and membership, whose arrival has counted and whose wait was abandoned (R280, R290) -/
  synced : List (Nat × Nat) := []
  /-- a cut records it, or has recorded it: it stays stopped in place (R373) -/
  cutting : Bool := false
  /-- killed, LOST or parked for good: only its started entries are still to finish (R218) -/
  gone : Bool := false
  /-- it comes back to the core on which its chain instances have stayed (R367) -/
  instances : Bool := false
deriving DecidableEq, Repr

/-- A blocking ACQ that waits (R126); `granted` once the Tumbler has granted it. -/
structure AcqWait where
  sid : SId
  serial : Nat
  /-- 0 .rq, 1 .sl, 2 .ac; `none` chain 7 asks for a storage slot (R209) -/
  res : Option Nat
  amount : Nat
  granted : Option Word
  /-- where the result goes, the source operand if there is one, and the words of the instruction -/
  d : Reg
  src : Option Reg
  words : Nat
deriving DecidableEq, Repr

/-- A wrong symbol of the slot store (R151): row, codeword and bank. -/
structure SlotError where
  row : Nat
  word : Nat
  bank : Nat
deriving DecidableEq, Repr

/-- A crew that parks (R283): its strands at PARK, whether pooled, the homes that have not answered, a token seen. -/
structure Park where
  core : Nat
  task : Nat
  strands : List SId
  pooled : Bool
  waiting : List Nat
  token : Bool
  /-- 0 gathering the strands, 1 waiting for the chains, 2 registering, 3 parked resident -/
  stage : Nat
  /-- the die of a home that has seen a token after it registered the park and before the park took effect (R283) -/
  woken : Option Nat := none
deriving DecidableEq, Repr

/-- One core: a compute core, or (identity 256 + d) the supervisor core of die d (R12, R13, R400). -/
structure Core where
  id : Nat
  strands : Vector Strand 17 := Vector.replicate 17 {}
  crews : List Crew := []
  hasp : Crew := { hold := ⟨4, 4, 0⟩, floor := ⟨4, 4, 0⟩, claim := ⟨4, 4, 0⟩ }
  /-- the Hasp strand is runnable (R90, R369) -/
  haspOn : Bool := false
  /-- positions whose next own turn is protected (R91) -/
  guarded : BitVec 16 := 0
  /-- the position whose turn is being given, until a strand issues or the search ends (R88, R114 LENT) -/
  turnOf : Option Nat := none
  /-- slot store bytes: slot s at 16384 * s (R141) -/
  slots : Memory := []
  /-- empty granules, 1024 * slot + granule, rising (R144) -/
  empty : List Nat := []
  /-- local key map in the order of binding (R154) -/
  keys : List KeyEntry := []
  lastKvict : Nat := 247
  acs : Vector AccSlot 8 := Vector.replicate 8 {}
  chain7 : Chain := {}
  dring : Vector Dring 32 := Vector.replicate 32 {}
  dringHead : Nat := 0
  /-- round-robin places: engines (tile, copy, gather, fabric) and the copy engine's units (R203, R213) -/
  rrTile : Nat := 0
  rrCopy : Nat := 0
  rrGather : Nat := 0
  rrFabric : Nat := 0
  rrUnit : Nat := 0
  /-- the last cycle in which the copy engine moved bytes (R213) -/
  copyAt : Option Nat := none
  engines : Vector Engine 2 := Vector.replicate 2 {}
  handlerEntry : Word := 0x8000000000000000#64
  chainCtl : Word := 0
  crewCtl : Word := 0
  niBusy : Bool := false
  /-- the resets of the network interface, each of which starts a new series of pair numbers (R363) -/
  series : Nat := 0
  haspCtl : Word := 0
  haspEntry : Word := 0
  slotErased : BitVec 34 := 0
  /-- the erased banks of the last completed rewrite pass (R152), and the scrubber's next row (R153) -/
  erasedDone : BitVec 34 := 0
  scrubRow : Nat := 0
  slotErrors : List SlotError := []
  ppointDefer : Word := 12500
  /-- layout cache: handle and the record's 64 bytes as a number (R174) -/
  lcache : List (Nat × Nat) := []
  /-- fetched copies of instruction words by PID and address (R53) -/
  icache : List (Nat × Word × W32) := []
  /-- the PID of the job of the crew last placed, 65,536 once that job has ended, and a job-change clear under way (R142) -/
  lastJob : Option Nat := none
  clearing : Bool := false
  /-- the cycle from which the clear's 8,192 cycles count -/
  clearFrom : Nat := 0
  acqs : List AcqWait := []
  /-- crews that have left for good since the core last placed one: their register space and window state stand as they
  left them, as do their strands (R295, R348; log 7) -/
  ended : List Crew := []
  /-- network interface: injection buffer, oldest first (R318); messages kept for end-to-end retry with the cycle of the
  last sending and the resends (R319); next sequence number to each destination (R321) -/
  inject : List Msg := []
  /-- spilled messages that a resumed crew injects again, before any new message (R318) -/
  spilled : List Msg := []
  kept : List (Msg × Nat × Nat) := []
  pairNext : List (Nat × Nat) := []
  parks : List Park := []
  /-- stores to hot rows that strands of the core had read before they wrote what its strands share (R337; log 13) -/
  heard : List Heard := []
deriving DecidableEq, Repr

/-! ### Jobs, tasks, channels and groups (R265-R290, R325-R331, R373) -/

/-- Where a task stands (R267, R272, R283, R367, R372). -/
inductive TaskPhase where
  /-- not yet run: before its first placement and not in a ready pool -/
  | idle
  | ready
  | placed
  | parkedResident
  | parkedPooled
  | settled
  | killed
  | lost
deriving DecidableEq, Repr

/-- What a crew off its core keeps of a strand beside the context image: rank, loops set aside, late faults, the rows that its
entries have dropped meanwhile (R117, R215), what its replay records keep, its clock and whether it has fenced (R136, R307, R337; log 21). -/
structure Kept where
  rank : Nat
  aside : List Loop
  late : List LateFault
  drops : Nat := 0
  redos : List (Option Redo) := []
  heard : List Heard := []
  fenced : List FenceAt := []
deriving DecidableEq, Repr

/-- A task of a job on this device: its descriptor (R268) and the dispatcher's knowledge of it. -/
structure Task where
  index : Nat
  entry : Word
  arg : Word
  ctx : Nat
  nsm1 : Nat
  cls : Nat
  start : Bool
  crit : Bool
  aff : BitVec 4
  floor : Res
  claim : Res
  /-- group index of each valid membership (G0-G3, GV) -/
  memb : List (Option Nat)
  /-- CH0-CH31: input or not, and channel number -/
  chans : List (Option (Bool × Nat))
  phase : TaskPhase
  /-- it has been placed before: the image to resume from stands in image 0, or image 1 after a cut (R271, R375) -/
  ran : Bool
  fromCut : Bool
  /-- the core it last ran on, and the core that keeps state of a pre-empted task (R273, R367) -/
  lastCore : Option Nat
  bound : Bool
  /-- what its context header records: holdings and accumulator slots (R120, R367) -/
  saved : Option (Res × BitVec 8)
  /-- save epoch (R371) -/
  epoch : Word
  /-- the running cut has recorded it (R373) -/
  recorded : Bool
  kept : List Kept
  /-- LAST of its memberships as its crew left for good (R288, R295) -/
  last : Vector (Option Nat) 4 := Vector.replicate 4 none
deriving DecidableEq, Repr

/-- A channel (R276, R277), with what waits at its home: SENDs and EOSs on a full ring with the cycle of their issue,
and RECVs on an empty one. -/
structure Channel where
  num : Nat
  base : Nat
  cap : Nat
  scope : Nat
  homeDie : Nat
  pdev : Nat
  ptask : Nat
  pnone : Bool
  cdev : Nat
  ctask : Nat
  head : Nat
  tail : Nat
  count : Nat
  closedP : Bool
  closedC : Bool
  /-- tokens that stand before a cut's marker (R373) -/
  marker : Option Nat
  sends : List (ChanOp × Nat)
  recvs : List ChanOp
  /-- a park of the consumer is registered (R283) -/
  parked : Bool
  /-- the consumer is gone: tokens are discarded (R285) -/
  sink : Bool
  /-- an end-of-stream with reason 1 waits for room (R285) -/
  lostEos : Bool
  /-- the last cycle in which a token entered or left, or an edge was removed (R281) -/
  moved : Nat
deriving DecidableEq, Repr

/-- A barrier group at its home (R288): a member is a task of a device. -/
structure Barrier where
  group : Nat
  ph : Nat
  e : Nat
  n : Nat
  d : Nat
  arr : List (Nat × Nat)
  drop : List (Nat × Nat)
  waiters : List (BarOp × Nat)
deriving DecidableEq, Repr

/-- A group-table entry as loaded at launch (R286, R325). -/
structure Group where
  index : Nat
  kind : Nat
  homeDie : Nat
  homeDev : Nat
  nmemb : Nat
  members : Nat
  rwords : Nat
  sleet : Bool
  tmo : Nat
  report : Nat
deriving DecidableEq, Repr

/-- The sequencer of an ordered group (R326-R328): stamps given, highest store acknowledged by each member, freeze. -/
structure Sequencer where
  group : Nat
  n : Nat
  acked : List Nat
  frozen : Bool
  failed : Nat
  stable : Nat
  /-- stamped stores that some member has not acknowledged: number, store, cycle of the stamp -/
  stores : List (Nat × McstOp × Nat)
  /-- stores that wait for the window of 64 -/
  queue : List McstOp
  /-- STATUS has been written at the survivors -/
  told : Bool
deriving DecidableEq, Repr

/-- A member's side of an ordered group (R327): applied so far, and early arrivals. -/
structure GroupMember where
  group : Nat
  applied : Nat
  early : List (Nat × Nat × Word)
deriving DecidableEq, Repr

/-- A reduction round in progress at a switch or root (R329-R331): the members that contributed, and the lanes' exact
windows with flags and counts. -/
structure Round where
  group : Nat
  round : Nat
  bf16 : Bool
  since : Nat
  got : List Nat
  blocks : List Nat
  lanes : List (Int × WLane)
  failed : Bool
deriving DecidableEq, Repr

/-- A REDUCE or a bulk-reduction vector that waits for its result (R329, R332). -/
structure RoundWait where
  group : Nat
  round : Nat
  sid : Option SId
  entry : Option EntryRef
  d : Nat
  a : Reg
  base : Nat
  bf16 : Bool
  pc : Word
  /-- it waits for a window image, of which these fragments have arrived (R331; log 12) -/
  win : Bool
  parts : List (Nat × List Byte)
  /-- the appends of the result and the status, if their names are bound (R136) -/
  app : Booking := none
  app2 : Booking := none
deriving DecidableEq, Repr

/-- An active job (R265): its tables and what the launch loaded from them. -/
structure Job where
  pid : Nat
  root : Nat
  layout : Nat
  tasksAt : Nat
  chansAt : Nat
  groupsAt : Nat
  smapDir : Nat
  jobArea : Nat
  sendStall : Nat
  nchan : Nat
  tag : Nat
  dbg : Bool
  /-- the launch has been accepted (R266, R401) -/
  live : Bool
  /-- the job has parts on other devices: its tables name one, or its PID alone links it to them (R266, R267, R401; log 7) -/
  wide : Bool
  done : Bool
  tasks : List Task
  chans : List Channel
  groups : List Group
  barriers : List Barrier
  seqs : List Sequencer
  members : List GroupMember
  rounds : List Round
  waits : List RoundWait
  /-- next round number of each reduction group on this device -/
  nextRound : List (Nat × Nat)
  /-- windows of Sleet rounds that this device has yet to take: group, round, fragments (R331; log 12) -/
  early : List (Nat × Nat × List (Nat × List Byte))
deriving DecidableEq, Repr

/-- A ready-pool entry (R272). -/
structure PoolEntry where
  pid : Nat
  task : Nat
  since : Nat
  held : Bool
deriving DecidableEq, Repr

/-- One die (R188, R272, R358). -/
structure Die where
  pool : List PoolEntry := []
  overflow : List PoolEntry := []
  lastPlace : Option Nat := none
  /-- the second-level TLB, and the first-level TLBs of the eight stations (R188) -/
  tlb : List TlbEntry := []
  tlb1 : Vector (List TlbEntry) 8 := Vector.replicate 8 []
  pfe : List PendingFault := []
  /-- stations that have held 1,024 requests since the last REPLAY (R188) -/
  shut : BitVec 8 := 0
  mboxBase : Word := 0
  mboxHead : BitVec 7 := 0
  mboxTail : BitVec 7 := 0
  /-- messages whose posters wait for room in the ring (R358) -/
  mboxWait : List MboxMsg := []
deriving DecidableEq, Repr


/-! ### The hub, the host's registers, the root of trust (R189-R193, R316-R321, R374, R380-R398) -/

/-- A completion entry (R384). -/
structure Completion where
  tag : Nat
  status : Nat
  pid : Nat
  index : Nat
deriving DecidableEq, Repr

/-- The BAR0 registers and the rings (R381-R384, R393-R396). -/
structure Bar where
  drvLo : Word := 0
  drvHi : Word := 0
  sqBase : Word := 0
  cqBase : Word := 0
  sqLog : BitVec 4 := 4
  cqLog : BitVec 4 := 4
  sqTail : BitVec 12 := 0
  sqHead : BitVec 12 := 0
  cqHead : BitVec 12 := 0
  /-- STATE: PWR, DBG, SEC -/
  pwr : BitVec 2 := 0
  dbg : BitVec 2 := 0
  sec : BitVec 2 := 0
  dbgPend : Bool := false
  owner : Bool := false
  nonce : Word := 0
  pwrPend : Bool := false
  pwrReq : BitVec 2 := 0
  pwrLimit : BitVec 16 := 1900
  dbgBusy : Bool := false
  dbgWr : Bool := false
  dbgRefused : Bool := false
  dbgNum : BitVec 12 := 0
  dbgPos : BitVec 5 := 0
  dbgSup : Bool := false
  dbgCore : BitVec 8 := 0
  dbgData : Word := 0
  winCore : BitVec 8 := 0
  cqTail : BitVec 12 := 0
  cqPhase : Bool := true
  cqWait : List Completion := []
  /-- a LAUNCH has been accepted since reset (R385) -/
  launched : Bool := false
  /-- the registers of steps 4 and 5 of the power-on that the driver has written: FAB_SHAPE, DRV_FEATURES, SQ_BASE, CQ_BASE, Q_CTL,
  FAULT_CTL and the dies' MBOX_BASE (R398) -/
  driver : BitVec 10 := 0
deriving DecidableEq, Repr

/-- The root of trust (R371, R387-R391). -/
structure Trust where
  /-- M_0 to M_3, 512 bits each -/
  meas : List Nat := [0, 0, 0, 0]
  rollback : Nat := 0
  /-- how often a context key has been derived: the key is `Config.contextKey keyNo` -/
  keyNo : Nat := 0
  identity : Bool := true
  /-- the images that FWLOAD has written to the firmware store, by number; the others are as manufactured -/
  store : List (Nat × List Byte) := []
deriving DecidableEq, Repr

/-- A message held in the switch, or sent on a port and not yet acknowledged on the link (R316, R319). -/
structure Hop where
  msg : Msg
  detours : Nat
  /-- the port it left on; none while it stands in the switch -/
  port : Option Nat
  replays : Nat
  /-- a Sleet contribution in transit whose partial sum is still held here (R331) -/
  held : Bool
  /-- the cycle of its arrival -/
  since : Nat
  /-- its number in this switch -/
  id : Nat
  /-- the virtual channel of the port it left on: 0 and 1 the first and the second of its class, 2 that of detours (R315, R316) -/
  vc : Nat
deriving DecidableEq, Repr

/-- The fabric's state on this device (R313-R323). -/
structure Fabric where
  shape : BitVec 26 := 0
  linkDown : BitVec 8 := 0
  /-- ports whose link retrains: DOWN reads 0, and the link is not yet back in service (R316) -/
  retrain : BitVec 8 := 0
  sleetDrop : BitVec 32 := 0
  poison : BitVec 32 := 0
  hops : List Hop := []
  /-- per pair (source device, source interface with the series of its numbers): the next number to act on, and early arrivals (R321, R363) -/
  pairIn : List (Nat × Nat × Nat) := []
  early : List Msg := []
  /-- messages of class 1 acted on: source device, interface with series, sequence number, round with group and job, TAG (R319) -/
  seen : List (Nat × Nat × Nat × Nat × Nat) := []
  /-- messages the hub keeps for retry, and its next numbers -/
  kept : List (Msg × Nat × Nat) := []
  pairNext : List (Nat × Nat) := []
deriving DecidableEq, Repr

/-- A cut in progress (R373, R374). -/
structure Cut where
  start : Bool := false
  release : Bool := false
  abort : Bool := false
  /-- EPOCH of CUT_CTL as last written, and the number of the cut started last -/
  ctl : BitVec 32 := 0
  epoch : BitVec 32 := 0
  active : Bool := false
  done : Bool := false
  /-- ports on which the marker has arrived, and whether this device has sent its own -/
  ports : BitVec 8 := 0
  sent : Bool := false
  /-- markers that have come before this device's START: port and epoch (R374) -/
  early : List (Nat × Nat) := []
deriving DecidableEq, Repr

/-- A multicast store that not every member has applied, with its group and the word of its region, or a Sleet message not yet injected (R324, R326). -/
structure Unapplied where
  sid : SId
  serial : Nat
  group : Option Nat
  word : Nat := 0
  /-- the append of its result, if the name is bound (R136) -/
  app : Booking := none
deriving DecidableEq, Repr

/-- The service mapping of firmware (R377): page-table root, layout table and shared-map directory. -/
structure Service where
  root : Nat
  layout : Nat
  maps : Nat
deriving DecidableEq, Repr

/-- Work to come: an event, in the cycle after `due` (log 1). -/
structure Pending where
  due : Nat
  ev : Instr
deriving DecidableEq, Repr

/-! ### The whole machine -/

/-- The state of the device. -/
structure State where
  /-- whose instruction runs: the model's own fields (log 1).
  `cur` is the strand chosen, `sel` says that it is to issue now, `rest` the candidates after it in the search of
  R88, `turn` the next core of this cycle to be asked for an issue -/
  cur : SId := ⟨0, 0⟩
  sel : Bool := false
  rest : List SId := []
  turn : Nat := 0
  cycle : Nat := 0
  pending : List Pending := []
  /-- the number of the next free value (log 2), and of the next wait or request -/
  freeCtr : Nat := 0
  serial : Nat := 0
  /-- an untranslated access left the physical memory (log 6) -/
  oob : Bool := false
  /-- the words of the instruction that runs (log 1) -/
  words : List W32 := []
  /-- cores whose state differs from reset; the others are `Core.reset` -/
  cores : List Core := []
  dies : Vector Die 4 := Vector.replicate 4 {}
  /-- device memory by physical address, and host memory (R14, R177, R186) -/
  mem : Memory := []
  host : Memory := []
  /-- the units of 64 bytes of device memory in which a read finds an uncorrectable error (R372; log 19) -/
  memErrors : List Nat := []
  /-- dwords whose sync bit is empty, rising (R200) -/
  syncEmpty : List Nat := []
  reqs : List Req := []
  faults : Vector FaultEntry 8 := Vector.replicate 8 {}
  dropped : Bool := false
  dropCount : BitVec 16 := 0
  faultHost : Bool := false
  migDst : Word := 0
  migSrc : Word := 0
  migDone : Bool := false
  migBusy : Bool := false
  migFree : Word := 0
  /-- frames handed off (R193) -/
  marks : List Nat := []
  cut : Cut := {}
  fabric : Fabric := {}
  bar : Bar := {}
  trust : Trust := {}
  jobs : List Job := []
  /-- MSI-X vectors raised (R380) -/
  msix : BitVec 4 := 0
  throttled : Bool := false
  /-- arithmetic cycles skipped so far: CYCLE counts them too (R395) -/
  skipped : Nat := 0
  /-- multicast stores not yet applied by every member, and Sleet messages not yet injected (R324, R326) -/
  unapplied : List Unapplied := []
  /-- the service mapping, once firmware runs (R13, R377; log 10) -/
  service : Option Service := none
deriving DecidableEq, Repr

/-- A core as it stands after reset.
A supervisor strand is privileged (R13); every other strand starts in user mode (log 3). -/
def Core.reset (id : Nat) : Core :=
  if id < 256 then { id := id } else { id := id, strands := Vector.replicate 17 { priv := true } }

/-- The machine right after reset: no core differs from its reset state, memory lists nothing, and the root of trust is
verifying the firmware (R397 boot; log 1). -/
def State.reset : State := { pending := [⟨0, .powerOn⟩] }

end Sys2Proof.Machine
end

