-- ==== Sys2Proof/Machine/Bits.lean ====
section
/-! DEFINITION. Bytes, bit fields, sets of numbers and byte memories (spec 00_scope R2, R3): the helpers of every family. -/

namespace Sys2Proof.Machine

/-- The number whose little-endian bytes are given (R2). -/
def natOfBytes : List Byte → Nat
  | [] => 0
  | b :: bs => b.toNat + 256 * natOfBytes bs

/-- The low `n` bytes of a number, little-endian (R2). -/
def bytesOfNat : Nat → Nat → List Byte
  | 0, _ => []
  | n + 1, v => BitVec.ofNat 8 v :: bytesOfNat n (v / 256)

/-- Dword i of bytes. -/
def dwordOf (b : List Byte) (i : Nat) : Nat := natOfBytes ((b.drop (8 * i)).take 8)

/-- Bits [lo + n - 1 : lo] of a number. -/
def field (v lo n : Nat) : Nat := v / 2 ^ lo % 2 ^ n

/-- One bit of a number. -/
def bit (v i : Nat) : Bool := v / 2 ^ i % 2 == 1

/-- A number with its bits [lo + n - 1 : lo] replaced. -/
def putField (v lo n x : Nat) : Nat := v - field v lo n * 2 ^ lo + x % 2 ^ n * 2 ^ lo

/-- SExt of R61: the low n bits as a two's-complement number. -/
def sext (v n : Nat) : Int :=
  let w := v % 2 ^ n
  if 2 * w < 2 ^ n then w else (w : Int) - 2 ^ n

/-- Wrap of R61: an integer modulo 2^n, as a number. -/
def wrap (x : Int) (n : Nat) : Nat := (x % 2 ^ n).toNat

/-- Sat of R61. -/
def sat (x lo hi : Int) : Int := if x < lo then lo else if hi < x then hi else x

/-- The 64-bit pattern of an integer. -/
def word (x : Int) : Word := BitVec.ofInt 64 x

/-- A byte's worth of a Bool. -/
def boolNat (b : Bool) : Nat := if b then 1 else 0

/-- A Bool as a register value. -/
def boolWord (b : Bool) : Word := if b then 1 else 0

/-- ALL1 of R139 and R178. -/
def all1 : Word := 0xFFFFFFFFFFFFFFFF#64

/-- Rounds `x` up to a multiple of `n`. -/
def roundUp (x n : Nat) : Nat := (x + n - 1) / n * n

/-! ### Sets of numbers, rising without repeats -/

/-- Adds lo, ..., lo + n - 1. -/
def addRange (lo n : Nat) (s : List Nat) : List Nat :=
  s.filter (fun x => x < lo) ++ (List.range' lo n ++ s.filter (fun x => lo + n ≤ x))

/-- Removes lo, ..., lo + n - 1. -/
def delRange (lo n : Nat) (s : List Nat) : List Nat :=
  s.filter fun x => x < lo || lo + n ≤ x

/-- Some of lo, ..., lo + n - 1 is in the set. -/
def anyIn (lo n : Nat) (s : List Nat) : Bool := s.any fun x => lo ≤ x && x < lo + n

/-! ### Order -/

/-- Puts an element into a list in order, before those that are no less. -/
def insertBy {α : Type} (le : α → α → Bool) (x : α) : List α → List α
  | [] => [x]
  | y :: ys => if le x y then x :: y :: ys else y :: insertBy le x ys

/-- A list in order; equals keep their order. -/
def sortBy {α : Type} (le : α → α → Bool) (l : List α) : List α := l.foldr (insertBy le) []

/-! ### Byte memories -/

/-- The byte at an address; an address without a cell reads as zero (log 4). -/
def Memory.read (m : Memory) (a : Nat) : Byte :=
  match m.find? (fun c => c.1 == a) with
  | some c => c.2
  | none => 0

/-- The `n` bytes from an address. -/
def Memory.readBytes (m : Memory) (a n : Nat) : List Byte :=
  let near := m.filter fun c => a ≤ c.1 && c.1 < a + n
  (List.range n).map fun i => Memory.read near (a + i)

/-- The little-endian number in the `n` bytes from an address. -/
def Memory.readNat (m : Memory) (a n : Nat) : Nat := natOfBytes (m.readBytes a n)

/-- The cells of consecutive bytes from an address, the zero bytes left out. -/
def cellsFrom : Nat → List Byte → Memory
  | _, [] => []
  | a, b :: bs => if b = 0 then cellsFrom (a + 1) bs else (a, b) :: cellsFrom (a + 1) bs

/-- Writes consecutive bytes from an address. -/
def Memory.write (m : Memory) (a : Nat) (bs : List Byte) : Memory :=
  m.filter (fun c => c.1 < a) ++ (cellsFrom a bs ++ m.filter (fun c => a + bs.length ≤ c.1))

/-- Writes the low `n` bytes of a number at an address. -/
def Memory.writeNat (m : Memory) (a n v : Nat) : Memory := m.write a (bytesOfNat n v)

/-- Writes the bytes of `bs` whose flag in `on` is set; a missing flag counts as clear. -/
def Memory.writeMasked (m : Memory) (a : Nat) (bs : List Byte) (on : List Bool) : Memory :=
  let old := m.readBytes a bs.length
  m.write a ((bs.zip (old.zip (on ++ List.replicate bs.length false))).map fun (b, o, k) => if k then b else o)

/-- Forgets every byte at or above an address. -/
def Memory.truncate (m : Memory) (a : Nat) : Memory := m.filter fun c => c.1 < a

/-! ### Lanes -/

/-- The 32-bit lanes of bytes (R243). -/
def lanesOf : List Byte → List W32
  | b0 :: b1 :: b2 :: b3 :: rest => (b3 ++ b2 ++ b1 ++ b0) :: lanesOf rest
  | _ => []

/-- The bytes of 32-bit lanes (R243). -/
def bytesOfLanes (ls : List W32) : List Byte :=
  ls.flatMap fun w => [w.extractLsb' 0 8, w.extractLsb' 8 8, w.extractLsb' 16 8, w.extractLsb' 24 8]

/-- Cuts a list into pieces of `n`; `fuel` bounds the number of pieces. -/
def piecesOf {α : Type} (n : Nat) : Nat → List α → List (List α)
  | 0, _ => []
  | fuel + 1, l => if l.isEmpty then [] else l.take n :: piecesOf n fuel (l.drop n)

/-- Value under a key in a list of pairs. -/
def lookupD {α : Type} (l : List (Nat × α)) (k : Nat) (d : α) : α :=
  match l.find? (fun p => p.1 == k) with
  | some p => p.2
  | none => d

/-- Sets the value under a key in a list of pairs with rising keys. -/
def putAt {α : Type} (l : List (Nat × α)) (k : Nat) (x : α) : List (Nat × α) :=
  l.filter (fun p => p.1 < k) ++ ((k, x) :: l.filter (fun p => k < p.1))

/-- Removes a key. -/
def dropAt {α : Type} (l : List (Nat × α)) (k : Nat) : List (Nat × α) := l.filter fun p => p.1 != k

/-- The lowest of 0, ..., n - 1 that satisfies a test. -/
def firstBelow (n : Nat) (p : Nat → Bool) : Option Nat := (List.range n).find? p

/-- Replaces the first element that satisfies a test. -/
def updateFirst {α : Type} (p : α → Bool) (f : α → α) : List α → List α
  | [] => []
  | x :: xs => if p x then f x :: xs else x :: updateFirst p f xs

end Sys2Proof.Machine
end

