-- ==== Sys2Proof/Machine/Ops.lean ====
section
/-! DEFINITION. The named operations over the state: cores, strands, crews and their registers; events and free values;
issue accounting, branches, traps and the return from one (spec 05 R86-R92, R96, R107-R109; 21 R349-R353, R357-R359). -/

namespace Sys2Proof.Machine

/-! ### Cores, strands and crews -/

/-- The core with an identity; a core not listed stands as after reset. -/
def State.core (s : State) (id : Nat) : Core :=
  match s.cores.find? (fun c => c.id == id) with
  | some c => c
  | none => Core.reset id

/-- Puts a core into a list of cores in the place of the one with its identity. -/
def putCore (c : Core) : List Core → List Core
  | [] => [c]
  | d :: ds => if d.id = c.id then c :: ds else d :: putCore c ds

/-- Replaces the core with the identity of `c`. -/
def State.setCore (s : State) (c : Core) : State := { s with cores := putCore c s.cores }

/-- Changes one core. -/
def State.modCore (s : State) (id : Nat) (f : Core → Core) : State := s.setCore { f (s.core id) with id := id }

/-- The strand at a position. -/
def Core.strand (c : Core) (pos : Nat) : Strand := c.strands[pos]?.getD {}

/-- Replaces the strand at a position. -/
def Core.setStrand (c : Core) (pos : Nat) (st : Strand) : Core := { c with strands := c.strands.setIfInBounds pos st }

/-- The strand of a name. -/
def State.strand (s : State) (sid : SId) : Strand := (s.core sid.core).strand sid.pos

/-- Replaces a strand. -/
def State.setStrand (s : State) (sid : SId) (st : Strand) : State :=
  s.modCore sid.core fun c => c.setStrand sid.pos st

/-- Changes a strand. -/
def State.modStrand (s : State) (sid : SId) (f : Strand → Strand) : State := s.setStrand sid (f (s.strand sid))

/-- The die of a core: its own for a compute core, d for the supervisor core 256 + d (R12). -/
def dieOf (core : Nat) : Nat := if core < 256 then core / 64 else core - 256

/-- The crew that owns a wheel position (R86). -/
def Core.crewAt (c : Core) (pos : Nat) : Option Crew := c.crews.find? fun w => w.pos.contains pos

/-- Whose register space and chains the strand at a position uses: its crew's, or the Hasp strand's own.
A supervisor strand, and a position without a crew, have none (R400): `chain7` stands for no crew. -/
def Core.ownerAt (c : Core) (pos : Nat) : Owner :=
  if pos = 16 then .hasp
  else match c.crewAt pos with
    | some w => .crew w.task
    | none => .chain7

/-- The crew record of an owner; an owner that is not on the core holds nothing. -/
def Core.owned (c : Core) : Owner → Crew
  | .crew t => (c.crews.find? fun w => w.task == t).getD {}
  | .hasp => c.hasp
  | .chain7 => {}

/-- Replaces the crew record of an owner that is on the core. -/
def Core.setOwned (c : Core) (o : Owner) (w : Crew) : Core :=
  match o with
  | .crew t => { c with crews := updateFirst (fun v => v.task == t) (fun _ => w) c.crews }
  | .hasp => { c with hasp := w }
  | .chain7 => c

/-- The crew record of an owner on a core of the machine. -/
def State.owned (s : State) (core : Nat) (o : Owner) : Crew := (s.core core).owned o

/-- Changes the crew record of an owner. -/
def State.modOwned (s : State) (core : Nat) (o : Owner) (f : Crew → Crew) : State :=
  s.modCore core fun c => c.setOwned o (f (c.owned o))

/-- The owner record that a strand uses. -/
def State.ownerOf (s : State) (sid : SId) : Owner := (s.core sid.core).ownerAt sid.pos

/-- Changes a die. -/
def State.modDie (s : State) (d : Nat) (f : Die → Die) : State :=
  { s with dies := s.dies.setIfInBounds d (f (s.dies[d]?.getD {})) }

/-- A die. -/
def State.die (s : State) (d : Nat) : Die := s.dies[d]?.getD {}

/-- CYCLE of a die (R114). -/
def State.cycleOf (s : State) (d : Nat) : Word := BitVec.ofNat 64 (s.cycle + s.skipped + Config.cycleSkew d)

/-! ### Scalar registers (R45, R96) -/

/-- Bits(r) of a scalar register: s0 reads zero (R45). -/
def Strand.get (st : Strand) (r : Reg) : Word := if r = 0 then 0 else st.s.get (Fin.cast (by decide) r.toFin)

/-- Bits(r) := x; writing s0 discards the value (R45). -/
def Strand.put (st : Strand) (r : Reg) (x : Word) : Strand :=
  if r = 0 then st else { st with s := st.s.set r.toNat x (by have := r.isLt; omega) }

/-- Full(r): s0 is never empty (R45). -/
def Strand.isFull (st : Strand) (r : Reg) : Bool := r == 0 || st.full.getLsbD r.toNat

/-- SetEmpty(r) (R61). -/
def Strand.setEmpty (st : Strand) (r : Reg) : Strand :=
  if r = 0 then st
  else { st with full := st.full &&& ~~~(1#32 <<< r.toNat), lost := st.lost &&& ~~~(1#32 <<< r.toNat) }

/-- A register is empty and no producer owns it: a late fault left it so (R355). -/
def Strand.lose (st : Strand) (r : Reg) : Strand :=
  if r = 0 then st else { st.setEmpty r with lost := st.lost ||| (1#32 <<< r.toNat) }

/-- No earlier producer owns the register (R22, R355). -/
def Strand.isFree (st : Strand) (r : Reg) : Bool := st.isFull r || st.lost.getLsbD r.toNat

/-- SetFull(r) (R61). -/
def Strand.setFull (st : Strand) (r : Reg) : Strand :=
  if r = 0 then st else { st with full := st.full ||| (1#32 <<< r.toNat) }

/-- Lines of the register space turn empty and have a producer (R61). -/
def Crew.emptyLines (w : Crew) (first n : Nat) : Crew :=
  { w with empty := addRange first n w.empty, lost := delRange first n w.lost }

/-- Lines are empty and no producer owns them: a late fault left them so (R355). -/
def Crew.loseLines (w : Crew) (first n : Nat) : Crew :=
  { w with empty := addRange first n w.empty, lost := addRange first n w.lost }

/-- Every line is full, or no producer owns it (R22, R355). -/
def Crew.linesFree (w : Crew) (first n : Nat) : Bool :=
  !w.empty.any fun l => first ≤ l && l < first + n && !w.lost.contains l

/-! ### Events, free values and numbers -/

/-- The next free value; the counter moves on (log 2). -/
def State.fresh (s : State) : Nat × State := (Config.free s.freeCtr, { s with freeCtr := s.freeCtr + 1 })

/-- A number never given before: of a request, a wait or a deadline. -/
def State.nextSerial (s : State) : Nat × State := (s.serial, { s with serial := s.serial + 1 })

/-- An event that happens `delay` cycles from now, and shows in the cycle after. -/
def State.post (s : State) (delay : Nat) (ev : Instr) : State :=
  { s with pending := s.pending ++ [⟨s.cycle + delay, ev⟩] }

/-- An event that happens in this cycle still, after those that are due. -/
def State.postNow (s : State) (ev : Instr) : State := { s with pending := s.pending ++ [⟨s.cycle - 1, ev⟩] }

/-- An event after a time the spec leaves open, between 0 and `limit` cycles from now (log 2). -/
def State.postFree (s : State) (limit : Nat) (ev : Instr) : State :=
  let (n, s) := s.fresh
  s.post (n % (limit + 1)) ev

/-- As `postFree`, but not before the events with a property that are still to come. -/
def State.postOrdered (s : State) (limit : Nat) (p : Instr → Bool) (ev : Instr) : State :=
  let (n, s) := s.fresh
  let after := s.pending.foldl (fun d e => if p e.ev then max d e.due else d) (s.cycle + n % (limit + 1))
  { s with pending := s.pending ++ [⟨after, ev⟩] }

/-- Whether an event with a property is to come. -/
def State.awaits (s : State) (p : Instr → Bool) : Bool := s.pending.any fun e => p e.ev

/-- Withdraws the events with a property. -/
def State.withdraw (s : State) (p : Instr → Bool) : State := { s with pending := s.pending.filter fun e => !p e.ev }

/-! ### The strand that runs -/

/-- The state of the strand that runs. -/
def State.me (s : State) : Strand := s.strand s.cur

/-- Changes the strand that runs. -/
def State.modMe (s : State) (f : Strand → Strand) : State := s.modStrand s.cur f

/-- The crew record of the strand that runs. -/
def State.myCrew (s : State) : Crew := s.owned s.cur.core (s.ownerOf s.cur)

/-- Changes the crew record of the strand that runs. -/
def State.modMyCrew (s : State) (f : Crew → Crew) : State := s.modOwned s.cur.core (s.ownerOf s.cur) f

/-- The core of the strand that runs. -/
def State.myCore (s : State) : Core := s.core s.cur.core

/-- Changes the core of the strand that runs. -/
def State.modMyCore (s : State) (f : Core → Core) : State := s.modCore s.cur.core f

/-- The strand that runs is a Hasp strand. -/
def State.isHasp (s : State) : Bool := s.cur.pos == 16

/-- The strand that runs is a supervisor strand (R12). -/
def State.isSup (s : State) : Bool := 256 ≤ s.cur.core

/-- PID that a strand's off-core requests carry: its crew's, HASP_CTL.PID of a Hasp strand, 0 for the service mapping
of a supervisor strand (R13, R369; log 10). -/
def State.pidOf (s : State) (sid : SId) : Nat :=
  if sid.pos = 16 then field (s.core sid.core).haspCtl.toNat 0 16
  else if 256 ≤ sid.core then 0
  else match (s.core sid.core).crewAt sid.pos with
    | some w => w.pid
    | none => 0

/-- The active job with a PID. -/
def State.job? (s : State) (pid : Nat) : Option Job := s.jobs.find? fun j => j.pid == pid

/-- Changes the active job with a PID. -/
def State.modJob (s : State) (pid : Nat) (f : Job → Job) : State :=
  { s with jobs := updateFirst (fun j => j.pid == pid) f s.jobs }

/-- A task of a job. -/
def Job.task? (j : Job) (t : Nat) : Option Task := j.tasks.find? fun x => x.index == t

/-- Changes a task of a job. -/
def Job.modTask (j : Job) (t : Nat) (f : Task → Task) : Job :=
  { j with tasks := updateFirst (fun x => x.index == t) f j.tasks }

/-- The position under which the requests of a strand stand while its crew is off the core: only its rank is left (R364). -/
def awayPos (rank : Nat) : Nat := 37 + 32 * rank
/-- A position of that kind, and its rank. -/
def isAway (pos : Nat) : Bool := 37 ≤ pos && pos % 32 == 5
def awayRank (pos : Nat) : Nat := (pos - 37) / 32

/-- The position under which a strand of another device acts here (log 12). -/
def peerPos (device pos : Nat) : Nat := 17 + 32 * device + pos
/-- The device of such a strand, and its position there. -/
def peerOf (pos : Nat) : Option Nat := if 17 ≤ pos && !isAway pos then some ((pos - 17) / 32) else none
def peerAt (pos : Nat) : Nat := (pos - 17) % 32

/-- Does something in the name of another strand of the machine. -/
def State.asStrand (s : State) (sid : SId) (f : State → State) : State :=
  let t := f { s with cur := sid }
  { t with cur := s.cur }

/-- The task that the running strand's crew runs; a Hasp or supervisor strand has none. -/
def State.myTask? (s : State) : Option Task :=
  if s.isHasp || s.isSup then none
  else (s.job? (s.pidOf s.cur)).bind fun j => j.task? s.myCrew.task

/-! ### Issue accounting (R87, R88, R92, R114) -/

/-- A turn is over: the strand of a position has issued in it, or none has; an owner that did not take it counts it in LENT
(R114). -/
def Core.endTurn (c : Core) (issuer : Option Nat) : Core :=
  match c.turnOf with
  | none => c
  | some p =>
    let c := { c with turnOf := none }
    if issuer == some p || (c.crewAt p).isNone then c
    else c.setStrand p { c.strand p with lent := (c.strand p).lent + 1 }

/-- The search of R88 goes on with the next candidate, or ends without an issue. -/
def State.nextCandidate (s : State) : State :=
  match s.rest with
  | q :: qs => { s with cur := q, rest := qs }
  | [] => { s.modMyCore (fun c => c.endTurn none) with sel := false }

/-- The running strand's instruction issues: ISSUED counts it, it is the strand's last issue, and the turn is taken. -/
def State.countIssue (s : State) : State :=
  let s := s.modMe fun st => { st with issued := st.issued + 1, last := some s.cycle, wait := none }
  let s := s.modMyCore fun c => c.endTurn (some s.cur.pos)
  { s with sel := false, rest := [] }

/-- The running strand waits inside its instruction and lends its turn (R61 Lend, R88). -/
def State.lend (w : Wait) (s : State) : State := (s.modMe fun st => { st with wait := some w }).nextCandidate

/-- The running strand's instruction issues, taking the turn, and then waits inside it: its operation is on its way to a home
(R87, R88, R275). -/
def State.stay (w : Wait) (s : State) : State := s.countIssue.modMe fun st => { st with wait := some w }

/-- The strand waits for the reply of a number. -/
def Strand.awaits (st : Strand) (serial : Nat) : Bool := st.wait == some (.reply serial) || st.wait == some (.cancel serial)

/-- The loop-back test of R108 at the next address: the loops left, innermost first, and the address. -/
def loopBack : List Loop → Word → List Loop × Word
  | [], next => ([], next)
  | l :: rest, next =>
    if next = l.stop then
      if 1 < l.count.toNat then ({ l with count := l.count - 1 } :: rest, l.start) else loopBack rest next
    else (l :: rest, next)

/-- Sets the next address after the loop-back test. -/
def Strand.goNext (st : Strand) (next : Word) : Strand :=
  let (loops, pc) := loopBack st.loops next
  { st with loops := loops, pc := pc }

/-- Next of R62 for an instruction of `n` words at the strand's PC. -/
def Strand.next (st : Strand) (n : Nat) : Word := st.pc + BitVec.ofNat 64 (4 * n)

/-- The instruction of `n` words is done: it counts as issued and the strand goes on at Next (R62, R108). -/
def State.retire (n : Nat) (s : State) : State :=
  s.countIssue.modMe fun st => st.goNext (st.next n)

/-- The instruction transfers control: no loop-back test (R108). -/
def State.jump (target : Word) (s : State) : State :=
  s.countIssue.modMe fun st => { st with pc := target }

/-- The next instruction of the strand, `n` words long, is annulled: no issue, but the interval runs (R92). -/
def State.annulOne (n : Nat) (s : State) : State :=
  (s.modMe fun st =>
    { st with annul := st.annul - 1, last := some s.cycle, wait := none }.goNext (st.next n)).nextCandidate

/-! ### Traps (R349-R354) -/

/-- The cause codes of R354 used here. -/
def causeZeroWord : Nat := 0x01
def causeIllegal : Nat := 0x02
def causeFetch : Nat := 0x03
def causePrivileged : Nat := 0x04
def causeMisaligned : Nat := 0x05
def causeBreak : Nat := 0x06
def causeSoftware : Nat := 0x07
def causeRegisterEmpty : Nat := 0x08
def causeLoopDepth : Nat := 0x09
def causeNoLoop : Nat := 0x0A
def causeClaimExceeded : Nat := 0x10
def causeReleaseInvalid : Nat := 0x11
def causeWindowBounds : Nat := 0x12
def causeWindowBusy : Nat := 0x13
def causeViewInvalid : Nat := 0x14
def causeStreamBusy : Nat := 0x15
def causeStreamFormat : Nat := 0x16
def causeStreamEnded : Nat := 0x17
def causeFibreRecord : Nat := 0x18
def causeParkHeld : Nat := 0x19
def causeSlotReserved : Nat := 0x20
def causeSlotAddress : Nat := 0x21
def causeSlotUncorrectable : Nat := 0x22
def causePinOverflow : Nat := 0x23
def causePinUnderflow : Nat := 0x24
def causeMapAbsent : Nat := 0x25
def causeLayoutInvalid : Nat := 0x28
def causeLayoutType : Nat := 0x29
def causeLayoutRank : Nat := 0x2A
def causeLayoutBounds : Nat := 0x2B
def causeLayoutPermission : Nat := 0x2C
def causeLayoutAlign : Nat := 0x2D
def causeNarrowInvalid : Nat := 0x2E
def causeChainEntry : Nat := 0x30
def causeChainStorage : Nat := 0x31
def causeChainFuture : Nat := 0x32
def causeTileState : Nat := 0x33
def causeVectorOperand : Nat := 0x34
def causeTaskState : Nat := 0x38
def causeGroupKind : Nat := 0x39
def causeGroupRange : Nat := 0x3A
def causeChannelInvalid : Nat := 0x3B
def causeChannelClosed : Nat := 0x3C
def causeChannelCycle : Nat := 0x3D
def causeSendStall : Nat := 0x3E
def causeOverArrival : Nat := 0x3F
def causeTranslationAbort : Nat := 0x40
def causeRemoteRefused : Nat := 0x41
def causeLockState : Nat := 0x42
def causeSyncPage : Nat := 0x43
def causeCopyRange : Nat := 0x44
def causeTileOperand : Nat := 0x45
def causeUnreachable : Nat := 0x46
def causeInterfaceReset : Nat := 0x47
def causeReduceFailed : Nat := 0x48

/-- NEST of TRAP_CAUSE (R351). -/
def Strand.nest (st : Strand) : Bool := st.trapCause.getLsbD 61

/-- The TRAP_CAUSE word of an entry (R351): LATE, PMODE, NEST 1, ENGINE, SKIP, MERGED, REG and CODE. -/
def causeWord (late pmode engine : Bool) (skip merged reg code : Nat) : Word :=
  BitVec.ofNat 64 (boolNat late * 2 ^ 63 + boolNat pmode * 2 ^ 62 + 2 ^ 61 + boolNat engine * 2 ^ 60 +
    skip % 4 * 2 ^ 58 + merged % 2 ^ 16 * 2 ^ 32 + reg % 32 * 2 ^ 16 + code % 256)

/-- Handler entry, one action of the strand (R350): the resume address, cause and information are saved, annulments
and loops are set aside, the mode becomes privileged and the PC the handler's entry. -/
def Strand.enterHandler (st : Strand) (entry resume info : Word) (late engine : Bool) (merged reg code : Nat) : Strand :=
  { st with
    trapPc := resume
    trapCause := causeWord late st.priv engine st.annul merged reg code
    trapInfo := info
    annul := 0
    aside := st.loops
    loops := []
    priv := true
    pc := entry
    wait := none
    spin := none }

/-- The return from a trap (R352): mode, PC, annulments and loops come back, and NEST clears. -/
def Strand.leaveHandler (st : Strand) : Strand :=
  { st with
    priv := st.trapCause.getLsbD 62
    pc := st.trapPc
    annul := (st.trapCause.extractLsb' 58 2).toNat
    loops := st.aside
    aside := []
    trapCause := st.trapCause &&& ~~~(1#64 <<< 61) }

/-- A mailbox message (R359) to die `d`, posted by the next event. -/
def State.mail (s : State) (d : Nat) (m : MboxMsg) : State := s.post 0 (.mailboxPost d m)

/-- Dword 0 of a mailbox message (R359). -/
def mailWord (kind code core pos src pid task : Nat) : Word :=
  BitVec.ofNat 64 (kind % 256 + code % 256 * 2 ^ 8 + core % 256 * 2 ^ 16 + pos % 32 * 2 ^ 24 + src % 8 * 2 ^ 29 +
    pid % 2 ^ 16 * 2 ^ 32 + task % 2 ^ 14 * 2 ^ 48)

/-- Dword 0 of a message about a strand. -/
def State.mailOf (s : State) (kind code : Nat) (sid : SId) : Word :=
  let sup := decide (256 ≤ sid.core)
  mailWord kind code (if sup then sid.core - 256 else sid.core) (if sup then 0 else sid.pos) (boolNat sup)
    (s.pidOf sid) (if sid.pos = 16 || sup then 0 else (s.owned sid.core (s.ownerOf sid)).task)

/-- Holds the crew of a strand (R357). -/
def State.holdCrew (s : State) (sid : SId) : State :=
  s.modOwned sid.core (s.ownerOf sid) fun w => { w with held := true }

/-- An exact trap raised while NEST is set (R353): no handler entry. -/
def State.doubleTrap (code : Nat) (info : Word) (s : State) : State :=
  if s.isSup then { s.modMe fun st => { st with halted := true } with msix := s.msix ||| 8#4 }
  else if s.isHasp then s.modMyCore fun c => { c with haspOn := false }
  else (s.mail (dieOf s.cur.core) ⟨s.mailOf 2 code s.cur, s.me.pc, info, 0⟩).holdCrew s.cur

/-- The handler is entered for an exact trap, or a double trap follows (R350, R353). -/
def State.enterTrap (code : Nat) (info resume : Word) (s : State) : State :=
  if s.me.nest then s.doubleTrap code info
  else s.modMe fun st => st.enterHandler s.myCore.handlerEntry resume info false false 0 0 code

/-- Taking an exact trap with a resume address: the instruction counts as issued and has no effect; the handler is
entered at once, or a double trap follows (R349, R350, R353). -/
def State.trapAt (code : Nat) (info resume : Word) (s : State) : State := s.countIssue.enterTrap code info resume

/-- Taking an exact trap at the instruction itself (R61 Trap). -/
def State.trap (code : Nat) (info : Word) (s : State) : State := s.trapAt code info s.me.pc

/-- An exact trap at the instruction in which a strand waits: its issue has been counted (R114, R349). -/
def State.trapOf (s : State) (sid : SId) (code : Nat) : State :=
  s.asStrand sid fun s => (s.modMe fun st => { st with wait := none }).enterTrap code 0 s.me.pc

/-- Whether two late faults merge: both are store faults (R349). -/
def mergeLate (q : List LateFault) (f : LateFault) : Option (List LateFault) :=
  if f.store && q.any (·.store) then
    some (updateFirst (·.store) (fun g => { g with merged := min (g.merged + 1) 0xFFFF }) q)
  else none

/-- A late fault arrives at a strand's queue (R349). -/
def State.lateFault (s : State) (sid : SId) (f : LateFault) : State :=
  s.modStrand sid fun st => { st with late := (mergeLate st.late f).getD (st.late ++ [f]) }

/-- The strand of a rank of a crew that a cut holds in place (R373). -/
def State.cutStrand (s : State) (pid task rank : Nat) : Option SId :=
  (((s.job? pid).bind fun j => j.task? task).bind (·.lastCore)).bind fun core =>
    let w := s.owned core (.crew task)
    if w.cutting && w.pid == pid then (w.pos[rank]?).map fun p => ⟨core, p⟩ else none

/-- A late fault of a strand whose requests have been set aside: of a crew that a cut holds, the strand has it; of one away from its core, it is
kept with the task, by rank, and taken when the strand is back (R349, R365; log 16). -/
def State.lateFaultAway (s : State) (pid task rank : Nat) (f : LateFault) : State :=
  match s.cutStrand pid task rank with
  | some sid => s.lateFault sid f
  | none => s.modJob pid fun j => j.modTask task fun t =>
    { t with kept := t.kept.map fun k => if k.rank = rank then { k with late := (mergeLate k.late f).getD (k.late ++ [f]) } else k }

/-- What such a strand has heard of (R337, R345). -/
def State.hearAway (s : State) (pid task rank : Nat) (l : List Heard) : State :=
  if l.isEmpty then s
  else s.modJob pid fun j => j.modTask task fun t => { t with kept := t.kept.map fun k => if k.rank = rank then { k with heard := k.heard ++ l } else k }

/-! ### Long-latency producers (R61 Reserve and Deliver, R96) -/

/-- A delivery of scalar registers alone to the running strand. -/
def State.scalarDelivery (s : State) (rs : List (Reg × Word)) : Delivery :=
  { sid := s.cur, owner := s.ownerOf s.cur, sregs := rs, bytes := [], lines := [], win := [] }

/-- Deliver (R61): registers and bytes are written and turn full; window state is replaced (R256). -/
def State.deliver (s : State) (p : Delivery) : State :=
  let s := s.modStrand p.sid fun st => p.sregs.foldl (fun st (r, x) => (st.put r x).setFull r) st
  s.modOwned p.sid.core p.owner fun w =>
    { w with
      window := p.bytes.foldl (fun m (a, bs, on) => m.writeMasked a bs on) w.window
      empty := w.empty.filter fun l => !p.lines.contains l
      win := p.win.foldl (fun acc (n, l, x) => if x = ⟨false, false, false, false, 0⟩ then dropAt acc (n * 128 + l)
        else putAt acc (n * 128 + l) x) w.win }

/-- The supervisor strand's halt ends, or its interrupt-pending bit is set (R362, R376). -/
def State.interrupt (s : State) (d : Nat) : State :=
  s.modStrand ⟨256 + d, 0⟩ fun st => if st.halted then { st with halted := false } else { st with irq := true }

/-- Stops with the fault of an untranslated access outside the physical memory (R186; log 6). -/
def guardPhysical (s : State) : Host.Outcome State Fault Refusal :=
  if s.oob then .fault .noSuchAddress else .next s

/-- 576 GiB, the size of device memory (R14). -/
def memSize : Nat := 576 * 2 ^ 30

/-- An untranslated read of device memory (R13). -/
def State.physRead (s : State) (a n : Nat) : List Byte × State :=
  (s.mem.readBytes a n, if a + n ≤ memSize then s else { s with oob := true })

/-- An untranslated write of device memory (R13). -/
def State.physWrite (s : State) (a : Nat) (bs : List Byte) : State :=
  if a + bs.length ≤ memSize then { s with mem := s.mem.write a bs } else { s with oob := true }

end Sys2Proof.Machine
end

