-- ==== Sys2Proof/Machine/Messages.lean ====
section
/-! DEFINITION. Fabric messages on their way out: building them, the injection buffer and the hub's sending (spec 18
R317-R319; log 12). -/

namespace Sys2Proof.Machine

/-- This device's number (R316). -/
def State.device (s : State) : Nat := field s.fabric.shape.toNat 0 16

/-- Coordinates of a device number (R313). -/
def devY (n : Nat) : Nat := field n 8 5
def devX (n : Nat) : Nat := field n 3 5
def devA (n : Nat) : Nat := field n 1 2
def devB (n : Nat) : Nat := field n 0 1

/-- Operation codes of R317. -/
def opRead : Nat := 0
def opWrite : Nat := 1
def opAtomic : Nat := 2
def opReply : Nat := 3
def opChannel : Nat := 4
def opBarrier : Nat := 5
def opMap : Nat := 6
def opMcst : Nat := 7
def opApply : Nat := 8
def opContribution : Nat := 9
def opResult : Nat := 10
def opSleet : Nat := 11
def opAck : Nat := 12
def opGroupFail : Nat := 13
def opReduceFail : Nat := 14
def opRedirect : Nat := 15

/-- A message of this device with empty fields (R317). -/
def State.blankMsg (s : State) (dst op pid : Nat) : Msg :=
  { dst := dst, src := s.device, cls := 0, op := op, pid := pid, pseq := 0, budget := 0, group := 0, gseq := 0, addr := 0,
    tag := 0, opnd := 0, pay := [] }

/-- TAG of a request's element: originating core, wheel position and index (R317). -/
def reqTag (sid : SId) (id k : Nat) : Nat := sid.core % 2 ^ 16 + sid.pos % 2 ^ 8 * 2 ^ 16 + (id * 2048 + k) * 2 ^ 24

/-- The request number and the element of a TAG. -/
def tagReq (tag : Nat) : Nat := tag / 2 ^ 24 / 2048
def tagElem (tag : Nat) : Nat := tag / 2 ^ 24 % 2048

/-- Payload flits of bytes, each valid (R317). -/
def flitsOf (bs : List Byte) : List (Bool × Nat) := (piecesOf 64 8 bs).map fun p => (true, natOfBytes p)

/-- The bytes of a payload; a flit is 64 bytes. -/
def bytesOfFlits (fs : List (Bool × Nat)) : List Byte := fs.flatMap fun f => bytesOfNat 64 f.2

/-- The message takes back an operation that waits at a home (R280; log 12). -/
def takesBack (m : Msg) : Bool := (m.op == opAtomic || m.op == opChannel || m.op == opBarrier) && bit m.opnd 135

/-- A core's interface accepts no message: its buffer of 16 is full, spilled messages come first, or it is being reset (R318, R363). -/
def Core.cannotSend (c : Core) : Bool := 16 ≤ c.inject.length || c.niBusy || !c.spilled.isEmpty

/-- A message is built in the core's injection buffer (R318). -/
def State.sendMsg (s : State) (core : Nat) (m : Msg) : State :=
  (s.modCore core fun c => { c with inject := c.inject ++ [m] }).postFree 64 (.messageInject core)

/-- The next sequence number under a key, and the counts after it (R321); the keys are `pairKey`. -/
def nextPseq (l : List (Nat × Nat)) (k : Nat) : Nat × List (Nat × Nat) :=
  let n := lookupD l k 0
  (n, putAt l k ((n + 1) % 2 ^ 32))

/-- Key of a destination and a class. -/
def pairKey (m : Msg) : Nat := m.dst * 4 + m.cls

/-- Cycles of 64 µs, the time before an end-to-end resend (R319), at 1.25 GHz. -/
def resendCycles : Nat := 80000

/-- The interface number of the hub (R317). -/
def hubFace : Nat := 0xFFFF

/-- The source interface of a message: a reply, an apply, a failure and whatever bears the hub's number come from a hub
(log 12). -/
def faceOf (m : Msg) : Nat := if m.op = opReply then hubFace else field m.tag 0 16

/-- The source interface with the series of its pair numbers (R363; log 12). -/
def seriesFace (m : Msg) : Nat := faceOf m + m.series * 2 ^ 16

/-- A message that is kept until it is acknowledged (R319): every class but Sleet, acknowledgements apart. -/
def reliableMsg (m : Msg) : Bool := m.cls != 3 && m.op != opAck

/-- The event of an end-to-end resend: interface and class, destination and number. -/
def resendOf (face : Nat) (m : Msg) : Instr := .endToEndResend (face + m.cls * 2 ^ 16) m.dst m.pseq

/-- A message enters the switch (R315); a Sleet message's budget runs from now (R323). -/
def State.enterSwitch (s : State) (m : Msg) (held : Bool) : State :=
  let (id, s) := s.nextSerial
  let hop : Hop := { msg := m, detours := m.detours, port := none, replays := 0, held := held, since := s.cycle, id := id, vc := 0 }
  let s := { s with fabric := { s.fabric with hops := s.fabric.hops ++ [hop] } }
  let s := if m.cls = 3 then s.post (80 * m.budget + 1) (.sleetBudgetExpire id 0) else s
  s.postFree 64 .switchForward

/-- The hub sends a message: it has its own pair numbers, and keeps reliable messages until they are acknowledged (R319,
R321). -/
def State.hubSend (s : State) (m : Msg) : State :=
  let (n, next) := nextPseq s.fabric.pairNext (pairKey m)
  let m := if m.op = opAck then m else { m with pseq := n, tag := if m.op = opReply then m.tag else hubFace }
  let s := if m.op = opAck then s else { s with fabric :=
    { s.fabric with pairNext := next, kept := if reliableMsg m then s.fabric.kept ++ [(m, s.cycle, 0)] else s.fabric.kept } }
  (if reliableMsg m then s.post resendCycles (resendOf hubFace m) else s).enterSwitch m false

/-- The answer of a home to a strand of another device (log 12): kind, values, flags and a cause in OPND. -/
def State.answerPeer (s : State) (dev pid : Nat) (sid : SId) (serial kind : Nat) (x y : Word) (flags code : Nat) : State :=
  s.hubSend { s.blankMsg dev opReply pid with
    tag := reqTag ⟨sid.core, peerAt sid.pos⟩ serial 0
    opnd := x.toNat + y.toNat * 2 ^ 64 + (code + flags * 2 ^ 16 + kind * 2 ^ 48) * 2 ^ 128 }

def State.modBar (s : State) (f : Bar → Bar) : State := { s with bar := f s.bar }

/-- A change of the state register raises MSI-X vector 3 (R380). -/
def State.tellState (s : State) : State := { s with msix := s.msix ||| 8#4 }

/-- A debug request is applied at the first moment without a job; vendor-debug stays (R391, R393). -/
def State.applyDebug (s : State) : State :=
  if !s.bar.dbgPend || !s.jobs.isEmpty then s
  else
    let dbg : BitVec 2 := if s.bar.dbg = 2 then 2 else if s.bar.owner then 1 else 0
    let t := s.modBar fun b => { b with dbg := dbg, dbgPend := false }
    if dbg = s.bar.dbg then t else t.tellState

/-- What ends idle and retention: active within 2 µs or 50 µs (R394). -/
def State.wake (s : State) : State :=
  if s.bar.pwr = 0 || s.bar.pwr = 3 || s.awaits (· == .powerWake) then s
  else s.postFree (if s.bar.pwr = 1 then 2500 else 62500) .powerWake

/-- The device is off, or still in boot: nothing reaches it (R394, R397). -/
def State.unreachable (s : State) : Bool := s.bar.pwr == 3 || s.bar.sec == 0

end Sys2Proof.Machine
end

