-- ==== Sys2Proof/Machine/Layout.lean ====
section
/-! DEFINITION. Layout records and the layout cache, from coordinates to an address, translation, and the list of memory
requests (spec 09 R171-R178, R182-R192; 16 R296, R305). -/

namespace Sys2Proof.Machine

/-! ### Element types (R40, R172) -/

/-- Element size in bytes of a TYPE or FORMAT code; 0 for a code that names no type (R172). -/
def typeSize (t : Nat) : Nat :=
  match t with
  | 1 | 5 | 9 | 10 => 1
  | 2 | 6 | 11 => 2
  | 3 | 7 | 12 => 4
  | 4 | 8 => 8
  | _ => 0

/-- The signed integer types .i8 to .i64. -/
def typeSigned (t : Nat) : Bool := 1 ≤ t && t ≤ 4

/-- The integer types. -/
def typeInt (t : Nat) : Bool := 1 ≤ t && t ≤ 8

/-- The instruction's TYPE fits the record's format (R172). -/
def typeFits (t fmt : Nat) : Bool :=
  t == 0 || t == fmt || (typeInt t && typeInt fmt && typeSize t == typeSize fmt)

/-- The type an access works with: the instruction's, or the record's format under TYPE 0 (R172). -/
def typeOf (t fmt : Nat) : Nat := if t = 0 then fmt else t

/-- A loaded element extended to `width` bytes: sign-extended for .i types, zero-extended otherwise (R147). -/
def extendBytes (signed : Bool) (width : Nat) (bs : List Byte) : List Byte :=
  if signed then bytesOfNat width (wrap (sext (natOfBytes bs) (8 * bs.length)) (8 * width))
  else bytesOfNat width (natOfBytes bs)

/-! ### Features (R385, R386) -/

/-- A feature bit is offered and accepted (R385, R386). -/
def State.feature (s : State) (n : Nat) : Bool := n < 11 && s.bar.drvLo.getLsbD n

/-! ### Layout records (R171-R174) -/

def recValid (r : Nat) : Bool := bit r 75
def recFormat (r : Nat) : Nat := field r 64 8
def recRank (r : Nat) : Nat := field r 72 3
def recBase (r : Nat) : Nat := field r 0 58
def recSpace (r : Nat) : Nat := field r 58 2
def recPad (r : Nat) : Nat := field r 60 2
def recPeer (r : Nat) : Nat := field r 80 16
def recHot (r : Nat) : Nat := field r 96 32
def recExt (r i : Nat) : Nat := field r (128 + 32 * i) 32
def recStride (r i : Nat) : Int := sext (field r (256 + 40 * i) 40) 40
def recScale (r : Nat) : Nat := field r 416 16
def recPadv (r : Nat) : Nat := field r 432 64
def recSwz (r : Nat) : Nat := field r 496 5
/-- PERM bits N, A, W, R (R171). -/
def recN (r : Nat) : Bool := bit r 79
def recA (r : Nat) : Bool := bit r 78
def recW (r : Nat) : Bool := bit r 77
def recR (r : Nat) : Bool := bit r 76
/-- A host-space record of a device that does not offer host space (R386). -/
def State.hostClosed (s : State) (r : Nat) : Bool := recSpace r == 1 && !s.feature 9
/-- The remote-slot fields of BASE (R177): slot, offset base and core. -/
def recSlot (r : Nat) : Nat := field r 0 8
def recSlotOff (r : Nat) : Nat := field r 8 14
def recCore (r : Nat) : Nat := field r 22 8

/-- The number of rows of the last dimension, the hot rows' replicas included (R176). -/
def recRows (r : Nat) : Nat := recExt r (recRank r - 1) + 3 * recHot r

/-- The extent of a dimension as the address calculation reaches it. -/
def recReach (r i : Nat) : Nat := if i + 1 = recRank r then recRows r else recExt r i

/-- The lowest and highest offset that in-range coordinates add. -/
def recLow (r : Nat) : Int :=
  ((List.range (recRank r)).map fun i => min 0 (((recReach r i : Int) - 1) * recStride r i)).sum
def recHigh (r : Nat) : Int :=
  ((List.range (recRank r)).map fun i => max 0 (((recReach r i : Int) - 1) * recStride r i)).sum

/-- A record with VALID = 1 is malformed (R173). -/
def recMalformed (r : Nat) : Bool :=
  let size := typeSize (recFormat r)
  let rank := recRank r
  let slot := recSpace r == 3
  let base := if slot then recSlotOff r else recBase r
  size == 0 || rank == 0 || 4 < rank || recPad r == 3 || field r 504 8 != 0 || field r 501 3 != 0 || field r 62 2 != 0 ||
    (List.range 4).any (fun i => rank ≤ i && (recExt r i != 0 || field r (256 + 40 * i) 40 != 0)) ||
    (List.range rank).any (fun i => recExt r i == 0 || recStride r i % size != 0) || base % size != 0 ||
    (recScale r != 0xFFFF && recFormat r != 9 && recFormat r != 10) ||
    recExt r (rank - 1) < recHot r ||
    (recA r && (recSpace r == 1 || slot || recHot r != 0)) ||
    (slot && (247 < recSlot r || field r 30 28 != 0 || (recSlotOff r : Int) + recLow r < 0 ||
      16384 < (recSlotOff r : Int) + recHigh r + size))

/-- Key of a record in a core's layout cache. -/
def recKey (pid handle : Nat) : Nat := pid * 65536 + handle

/-- What a core finds when it decodes record h (R173, R174). -/
inductive Found where
  | ok (r : Nat)
  | invalid
  | malformed
  | miss
deriving DecidableEq, Repr

/-- The record of a handle through the core's layout cache (R174). -/
def State.record (s : State) (core pid handle : Nat) : Found :=
  if handle = 0xFFFF then .invalid
  else match (s.core core).lcache.find? (fun e => e.1 == recKey pid handle) with
    | none => .miss
    | some (_, r) => if !recValid r then .invalid else if recMalformed r then .malformed else .ok r

/-- Page-table root, layout table and shared-map directory of a PID: those of its active job, or, under PID 0, the service
mapping of firmware (R13, R174, R377; log 10). -/
def State.service? (s : State) (pid : Nat) : Option Service :=
  match s.service with
  | some v => if pid = 0 then some v else (s.job? pid).map fun j => ⟨j.root, j.layout, j.smapDir⟩
  | none => (s.job? pid).map fun j => ⟨j.root, j.layout, j.smapDir⟩

/-- Address of table entry h of a PID's layout table; a PID without a mapping has no table (R174). -/
def State.layoutAt (s : State) (pid handle : Nat) : Option Nat := (s.service? pid).map fun j => j.layout + 64 * handle

/-- Starts the fetch of a record unless one is under way (R174, R399). -/
def State.wantRecord (s : State) (core pid handle : Nat) : State :=
  if s.awaits (fun e => e == .layoutCacheFill core pid handle) then s else s.postFree 1024 (.layoutCacheFill core pid handle)

/-- TRAP_INFO of an exact cause of majors 0x24-0x29 and 0x33-0x35 (R351). -/
def handleInfo (handle : BitVec 16) : Word := handle.setWidth 64

/-- The running strand decodes record h: an absent record traps, a malformed one posts a message and holds the crew
(a supervisor strand, which has no crew, halts), a missing one is fetched while the strand lends its turns. -/
def State.withRecord (handle : BitVec 16) (k : Nat → State → State) (s : State) : State :=
  match s.record s.cur.core (s.pidOf s.cur) handle.toNat with
  | .ok r => k r s
  | .invalid => s.trap causeLayoutInvalid (handleInfo handle)
  | .malformed =>
    let s := s.mail (dieOf s.cur.core) ⟨s.mailOf 1 0 s.cur, s.me.pc, handleInfo handle, 0⟩
    if s.isSup then (s.modMe fun st => { st with halted := true }).nextCandidate else (s.holdCrew s.cur).nextCandidate
  | .miss => (s.wantRecord s.cur.core (s.pidOf s.cur) handle.toNat).lend .poll

/-- LAYOUT_CACHE_FILL's effect: the core holds a copy of the record as the table stands; a full cache drops an entry of
an open choice (R174; log 7). -/
def State.fillRecord (s : State) (core pid handle : Nat) : State :=
  let (bytes, s) := match s.layoutAt pid handle with
    | some a => s.physRead a 64
    | none => ([], s)
  let (n, s) := s.fresh
  s.modCore core fun c =>
    let old := c.lcache.filter fun e => e.1 != recKey pid handle
    let old := if 64 ≤ old.length then old.eraseIdx (n % old.length) else old
    { c with lcache := (recKey pid handle, natOfBytes bytes) :: old }

/-- Writes entry h of the device's table as one action; every layout cache of the device drops it (R181). -/
def State.writeRecord (s : State) (pid handle r : Nat) : State :=
  let s := match s.layoutAt pid handle with
    | some a => s.physWrite a (bytesOfNat 64 r)
    | none => s
  { s with cores := s.cores.map fun c => { c with lcache := c.lcache.filter fun e => e.1 != recKey pid handle } }

/-! ### From coordinates to an address (R175-R178) -/

/-- The coordinates given, with those of the other dimensions 0 (R175). -/
def padCoords (ks : List Nat) : List Nat := ks ++ List.replicate (4 - ks.length) 0

/-- The element is in range (R175). -/
def inRange (r : Nat) (ks : List Nat) : Bool :=
  (List.range (recRank r)).all fun i => (padCoords ks).getD i 0 < recExt r i

/-- Locate with a row of the last dimension chosen (R175). -/
def locateRow (r : Nat) (ks : List Nat) (row : Nat) : Int :=
  let t := recRank r - 1
  (row : Int) * recStride r t + ((List.range t).map fun i => (((padCoords ks).getD i 0 : Nat) : Int) * recStride r i).sum

/-- The rows an access of the last dimension's coordinate reaches: the issuing die's replica of a hot row for a load,
all four for a store, and a cold row alone (R175, R176). -/
def rowsOf (r die : Nat) (store : Bool) (k : Nat) : List Nat :=
  if k < recHot r then (if store then (List.range 4).map fun d => d * recHot r + k else [die * recHot r + k])
  else [3 * recHot r + k]

/-- Locate (R175): a virtual address modulo 2^58, or the slot-store address of the target core in the remote-slot
space (R177). A remote-slot record with HOT nonzero is located by the same replica rows, which R177's sum does not mention (DESIGN CHOICE,
log 26). -/
def addressOf (r : Nat) (ks : List Nat) (row : Nat) : Nat :=
  if recSpace r = 3 then wrap (16384 * recSlot r + recSlotOff r + locateRow r ks row) 22
  else wrap (recBase r + locateRow r ks row) 58

/-- Locate for a load or a single access of the issuing die. -/
def locate (r die : Nat) (ks : List Nat) : Nat :=
  addressOf r ks ((rowsOf r die false ((padCoords ks).getD (recRank r - 1) 0)).headD 0)

/-- Adds to one coordinate. -/
def bumpCoord (ks : List Nat) (i n : Nat) : List Nat := (padCoords ks).set i ((padCoords ks).getD i 0 + n)

/-! ### Translation (R186-R188) -/

/-- What an access needs of a page (R188). -/
inductive Need where
  | load | store | atomic
deriving DecidableEq, Repr

/-- The outcome of a walk: a leaf with the physical address and the size of its page, a fault of a kind of FB_INFO.KINDS (0 not mapped, 1 read,
2 write, 3 atomic, 4 malformed), or a migrating page. -/
inductive Walk where
  | ok (pa : Nat) (host sync : Bool) (page : Nat)
  | fault (kind : Nat)
  | migrating
deriving DecidableEq, Repr

/-- A table entry is malformed at a level (R187); the spec does not say of which memory the address of a non-leaf entry with HOST = 1 must be,
and the model takes device memory's bound (DESIGN CHOICE, log 26). -/
def entryMalformed (level e : Nat) : Bool :=
  let leaf := bit e 1
  field e 52 11 != 0 || field e 9 5 != 0 || bit e 2 || (level == 0 && leaf) || (level == 3 && !leaf) ||
    (leaf && level == 1 && field e 14 22 != 0) || (leaf && level == 2 && field e 14 11 != 0) ||
    ((!leaf || !bit e 63) && memSize ≤ field e 14 38 * 16384) || (leaf && bit e 6 && bit e 63)

/-- The size of the page that a leaf of a level maps (R186). -/
def pageSize (level : Nat) : Nat := 2 ^ (47 - 11 * level)

/-- Walks the tables from one of a level: the leaf and its level, or a fault kind (R186-R188). -/
def walkFrom (m : Memory) (va : Nat) : Nat → Nat → Nat → Except Nat (Nat × Nat)
  | 0, _, _ => .error 4
  | fuel + 1, level, table =>
    let e := m.readNat (table + 8 * field va (47 - 11 * level) 11) 8
    if !bit e 0 then .error 0
    else if entryMalformed level e then .error 4
    else if bit e 1 then .ok (e, level)
    else walkFrom m va fuel (level + 1) (field e 14 38 * 16384)

/-- Whether a leaf lets an access through; the physical address it gives (R187, R188). -/
def leafOutcome (need : Need) (va e size : Nat) : Walk :=
  if bit e 7 then .migrating
  else match need with
    | .load => if bit e 3 then .ok (field e 14 38 * 16384 + va % size) (bit e 63) (bit e 6) size else .fault 1
    | .store => if bit e 4 then .ok (field e 14 38 * 16384 + va % size) (bit e 63) (bit e 6) size else .fault 2
    | .atomic => if bit e 5 then .ok (field e 14 38 * 16384 + va % size) (bit e 63) (bit e 6) size else .fault 3

/-- The cached leaf for an address. -/
def tlbHit (l : List TlbEntry) (pid va : Nat) : Option TlbEntry :=
  l.find? fun t => t.pid == pid && t.va ≤ va && va < t.va + t.size

/-- The entries of a TLB of at most `limit` that stay when one comes in: which one a full TLB replaces is open, by the free value `n` (R188;
log 7). -/
def tlbRoom (l : List TlbEntry) (limit n : Nat) : List TlbEntry := if l.length < limit then l else l.eraseIdx (n % l.length)

/-- Puts a leaf into a TLB, in the place of those for the same address. -/
def tlbPut (l : List TlbEntry) (limit n : Nat) (t : TlbEntry) : List TlbEntry :=
  t :: tlbRoom (l.filter fun x => !(x.pid == t.pid && x.va < t.va + t.size && t.va < x.va + x.size)) limit n

/-- The station of an address (R188). -/
def stationOf (va : Nat) : Nat := field va 14 3

/-- A leaf stands in both levels of a die (R188). -/
def Die.cache (d : Die) (station n : Nat) (t : TlbEntry) : Die :=
  { d with tlb := tlbPut d.tlb 16384 n t, tlb1 := d.tlb1.setIfInBounds station (tlbPut (d.tlb1[station]?.getD []) 512 n t) }

/-- The four level-3 entries of the aligned group of a page (R187). -/
def groupEntries (m : Memory) (root va : Nat) : List (Option Nat) :=
  (List.range 4).map fun i => match walkFrom m (va / 65536 * 65536 + 16384 * i) 4 0 root with
    | .ok (e, 3) => some e
    | _ => none

/-- CONTIG counts: all four entries set it, map four consecutive pages and agree in bits [7:0] (R187). -/
def contiguous (g : List (Option Nat)) : Bool :=
  match g with
  | [some a, some b, some c, some d] =>
    bit a 8 && [b, c, d].zipIdx.all fun p => field p.1 0 9 == field a 0 9 && bit p.1 63 == bit a 63 && field p.1 14 38 == field a 14 38 + p.2 + 1
  | _ => false

/-- The entry that the TLBs hold for a leaf: of the page, or of a group of 64 KiB (R187, R188). -/
def cachedLeaf (m : Memory) (root pid va e level : Nat) : TlbEntry :=
  let g := groupEntries m root va
  if level = 3 && bit e 8 && contiguous g then
    ⟨pid, va / 65536 * 65536, 65536, BitVec.ofNat 64 ((g.headD none).getD e)⟩
  else ⟨pid, va / pageSize level * pageSize level, pageSize level, BitVec.ofNat 64 e⟩

/-- Translation at a die under a PID (R188): by the first level of the station, the second level of the die, or a walk.
A cached translation may have been replaced meanwhile, so whether it is still used is open (log 7). -/
def State.translate (s : State) (die pid va : Nat) (need : Need) : Walk × State :=
  let (n, s) := s.fresh
  let st := stationOf va
  match tlbHit ((s.die die).tlb1[st]?.getD []) pid va, tlbHit (s.die die).tlb pid va, n % 2 with
  | some t, _, 0 => (leafOutcome need va t.entry.toNat t.size, s)
  | none, some t, 0 =>
    (leafOutcome need va t.entry.toNat t.size, s.modDie die fun d => { d with tlb1 := d.tlb1.setIfInBounds st (tlbPut (d.tlb1[st]?.getD []) 512 (n / 2) t) })
  | _, _, _ =>
    match s.service? pid with
    | none => (.fault 0, s)
    | some j =>
      match walkFrom s.mem va 4 0 j.root with
      | .error k => (.fault k, s)
      | .ok (e, level) =>
        let t := cachedLeaf s.mem j.root pid va e level
        let out := leafOutcome need va t.entry.toNat t.size
        match out with
        | .migrating => (out, s)
        | _ => (out, s.modDie die fun d => d.cache st (n / 2) t)

/-- The places that an address may be translated to now, by a TLB of the die or by the tables: host memory or not, and the address there
(R188). -/
def State.placesOf (s : State) (die pid va : Nat) : List (Bool × Nat) :=
  let cached := ([(s.die die).tlb1[stationOf va]?.getD [], (s.die die).tlb].filterMap fun l => tlbHit l pid va).map fun t => (t.entry.toNat, t.size)
  let walked := match (s.service? pid).map fun j => walkFrom s.mem va 4 0 j.root with
    | some (.ok (e, level)) => [(e, pageSize level)]
    | _ => []
  (cached ++ walked).map fun p => (bit p.1 63, field p.1 14 38 * 16384 + va % p.2)

/-- A pending-fault entry stands for the page at the die (R188). -/
def State.pageFaulted (s : State) (die pid va : Nat) : Bool := (s.die die).pfe.any fun f => f.pid == pid && f.page == va / 16384

/-- A walk did not complete: the die makes a pending-fault entry, unless it holds 256, and sends one fault unless the
page migrates (R188). -/
def State.pageFault (s : State) (die pid va : Nat) (kind : Option Nat) : State :=
  if s.pageFaulted die pid va || 256 ≤ (s.die die).pfe.length then s
  else
    let s := s.modDie die fun d => { d with pfe := d.pfe ++ [⟨pid, va / 16384⟩] }
    match kind with
    | some k => s.postFree 64 (.faultBufferRecord die pid (va / 16384) k)
    | none => s

/-! ### Requests (R182, R188, R296, R365) -/

/-- The request with a number. -/
def State.req? (s : State) (id : Nat) : Option Req := s.reqs.find? fun r => r.id == id

/-- Changes a request. -/
def State.modReq (s : State) (id : Nat) (f : Req → Req) : State :=
  { s with reqs := updateFirst (fun r => r.id == id) f s.reqs }

/-- Changes one element of a request. -/
def Req.modElem (r : Req) (k : Nat) (f : Elem → Elem) : Req :=
  { r with elems := r.elems.mapIdx fun i e => if i = k then f e else e }

/-- Removes a request. -/
def State.dropReq (s : State) (id : Nat) : State := { s with reqs := s.reqs.filter fun r => r.id != id }

/-- Requests held at a station of a die. -/
def State.heldAt (s : State) (die station : Nat) : Nat :=
  (s.reqs.map fun r => (r.elems.filter fun e => e.phase == .held && stationOf e.pa == station && dieOf r.sid.core == die).length).sum

/-- A station that has come to hold 1,024 requests is shut until REPLAY (R188). -/
def State.shutFull (s : State) (die va : Nat) : State :=
  if 1024 ≤ s.heldAt die (stationOf va) then s.modDie die fun d => { d with shut := d.shut ||| (1#8 <<< stationOf va) } else s

/-- The station accepts no further request until REPLAY (R188). -/
def State.stationShut (s : State) (die va : Nat) : Bool :=
  256 ≤ (s.die die).pfe.length || (s.die die).shut.getLsbD (stationOf va)

/-- The page's leaf has MIG set (R187, R192). -/
def State.migrating (s : State) (pid va : Nat) : Bool :=
  match s.service? pid with
  | none => false
  | some j => match walkFrom s.mem va 4 0 j.root with
    | .ok (e, _) => bit e 7
    | .error _ => false

/-- The station holds 64 requests of migrating pages, and this is for such a page (R192). -/
def State.migShut (s : State) (die pid va : Nat) : Bool :=
  64 ≤ s.heldAt die (stationOf va) && s.migrating pid va &&
    64 ≤ (s.reqs.map fun r => (r.elems.filter fun e =>
      e.phase == .held && stationOf e.pa == stationOf va && dieOf r.sid.core == die && s.migrating r.pid e.pa).length).sum

/-- A new request for an address is not accepted now (R188, R192). -/
def State.notAccepted (s : State) (die pid va : Nat) : Bool := s.stationShut die va || s.migShut die pid va

/-- Whether the request reads memory for its strand, or writes it. -/
def ReqKind.reads : ReqKind → Bool
  | .store | .append _ | .link _ | .stsync | .engine _ true => false
  | .lock op _ => !(op == 2 || op == 3)
  | _ => true
def ReqKind.writes : ReqKind → Bool
  | .load | .chase | .waitne | .fetch | .streamRead _ | .fibreRead _ | .engine _ false => false
  | _ => true

/-- What a request needs of its page (R188, R194). -/
def ReqKind.need : ReqKind → Need
  | .store | .append _ | .link _ | .engine _ true => .store
  | .atomic _ | .lock _ _ | .ldsync | .stsync => .atomic
  | _ => .load

/-- A request that counts against the limit of R365: loads, GATHERs, atomics, lock and sync-word forms, WAITNE. -/
def ReqKind.counts : ReqKind → Bool
  | .store | .append _ | .link _ | .streamRead _ | .fibreRead _ | .engine _ _ | .fetch => false
  | _ => true

/-- An acquire access with a load part, or any sc access: later accesses of its strand follow it (R305). -/
def Req.acquires (r : Req) : Bool := r.order == 4 || (r.kind.reads && (r.order == 1 || r.order == 3))

/-- A release access with a store part, or any sc access: it follows earlier accesses of its strand (R305). -/
def Req.releases (r : Req) : Bool := r.order == 4 || (r.kind.writes && (r.order == 2 || r.order == 3))

/-- Requests that stand for accesses of the strand's program (not fetches and not the engines'). -/
def Req.ofStrand (r : Req) (sid : SId) : Bool :=
  r.sid == sid && (match r.kind with | .fetch | .engine _ _ => false | _ => true)

/-- The place of a request in the program order of its strand: the store of a node's link stands where its AENQ does (R196), and a request
that has been issued again where it first stood (R366). -/
def Req.rank (r : Req) : Nat :=
  r.prog.getD (match r.kind with
    | .link n => n
    | _ => r.id)

/-- Two requests name elements by addresses of one space: one virtual space for the device's and the host's memory, a peer's, or the slot
store of a core (R177, R186). -/
def Req.sameSpace (r x : Req) : Bool :=
  (r.space < 2 && x.space < 2) || (r.space == x.space && r.peer == x.peer && (r.space != 3 || r.rcore == x.rcore))

/-- Two element accesses touch a common byte of one space. -/
def overlaps (r : Req) (e : Elem) (r' : Req) (e' : Elem) : Bool :=
  r.sameSpace r' &&
    ((e.va < e'.va + e'.size && e'.va < e.va + e.size) ||
      (e.phase == .home && (e'.phase == .home || e'.phase == .parked) && e.host == e'.host &&
        e.pa < e'.pa + e'.size && e'.pa < e.pa + e.size))

/-- An element that is not translated yet may turn out to lie at bytes of one that is at its home (R186, R296). -/
def State.mayAlias (s : State) (e : Elem) (x : Req) (y : Elem) : Bool :=
  e.phase == .home && x.space < 2 && (y.phase == .walk || y.phase == .held) &&
    (s.placesOf (dieOf x.sid.core) x.pid y.va).any fun p => p.1 == e.host && e.pa < p.2 + y.size && p.2 < e.pa + e.size

/-- Earlier requests of the same strand. -/
def State.earlier (s : State) (r : Req) : List Req :=
  s.reqs.filter fun x => x.ofStrand r.sid && x.rank < r.rank && (!isAway x.sid.pos || (x.task == r.task && x.pid == r.pid))

/-- A record as the cache of a core, or else the table, holds it. -/
def State.tableRecord (s : State) (core pid handle : Nat) : Found :=
  match s.record core pid handle with
  | .miss =>
    let r := match s.layoutAt pid handle with
      | some a => s.mem.readNat a 64
      | none => 0
    if !recValid r then .invalid else if recMalformed r then .malformed else .ok r
  | f => f

/-- The record and index of the element a reference names, if it is valid and in range (R178). -/
def State.refRecord (s : State) (core pid : Nat) (ref : Word) : Option (Nat × Nat) :=
  match s.tableRecord core pid (field ref.toNat 48 16) with
  | .ok r => if recRank r = 1 && field ref.toNat 0 48 < recExt r 0 then some (r, field ref.toNat 0 48) else none
  | _ => none

/-- The record and address of the element a reference names, if it is valid and in range (R178): of a record with HOT nonzero the replica
or cold row of the issuing die, which R178's sum does not mention (DESIGN CHOICE, log 26). -/
def State.refTarget (s : State) (core pid : Nat) (ref : Word) : Option (Nat × Nat) :=
  (s.refRecord core pid ref).map fun p => (p.1, locate p.1 (dieOf core) [p.2])

/-- The space that a record's elements are served in: the own device's number makes a peer record a device record. -/
def State.spaceOf (s : State) (r : Nat) : Nat := if recSpace r = 2 && recPeer r == s.device then 0 else recSpace r

/-- An AENQ will write the link of a node in some of the element's bytes (R196, R296). -/
def State.linksTo (s : State) (x r : Req) (e : Elem) : Bool :=
  x.kind == .atomic 9 && x.space == 0 &&
    match s.refRecord x.sid.core x.pid x.x with
    | none => false
    | some (rec, i) =>
      { x with space := s.spaceOf rec, peer := recPeer rec, rcore := recCore rec }.sameSpace r &&
        (rowsOf rec (dieOf x.sid.core) true i).any fun row =>
          let a := addressOf rec [i] row
          a < e.va + e.size && e.va < a + 8

/-- The nodes that a chase may visit from a reference on, as the links stand, touch the element's bytes (R197). -/
def State.chaseMeets (s : State) (x r : Req) (e : Elem) : Nat → Word → Bool
  | 0, _ => false
  | n + 1, ref => match s.refTarget x.sid.core x.pid ref with
    | none => false
    | some (rec, va) =>
      let node : Elem :=
        { va := va, size := 16, put := 0, width := 16, signed := false, pa := 0, host := false, sync := false, stamp := 0, phase := .walk, data := [] }
      let x' := { x with space := s.spaceOf rec, peer := recPeer rec, rcore := recCore rec }
      overlaps r e x' node || s.mayAlias e x' node ||
        (x'.space < 2 && match (s.placesOf (dieOf x.sid.core) x.pid va).head? with
          | none => false
          | some (host, pa) => s.chaseMeets x r e n (BitVec.ofNat 64 ((if host then s.host else s.mem).readNat pa 8)))

/-- A chase keeps later accesses of its strand waiting, whatever nodes it may visit; one that waits at a station, or for another device, only
those to the nodes ahead of it (R197, R296, R297). -/
def State.chaseHolds (s : State) (x r : Req) (e : Elem) : Bool :=
  x.kind == .chase &&
    (!(x.aside || 2 ≤ x.space || x.elems.any fun y => y.phase == .held) || s.chaseMeets x r e (16 - x.attempts) x.x)

/-! ### Groups (R286, R325) -/

/-- Kind of a barrier group, an ordered group and a reduction group (R286). -/
def groupBarrier : Nat := 1
def groupOrdered : Nat := 2
def groupReduction : Nat := 3

/-- A group of a job (R286). -/
def Job.group? (j : Job) (g : Nat) : Option Group := j.groups.find? fun x => x.index == g
def State.group? (s : State) (pid g : Nat) : Option Group := (s.job? pid).bind fun j => j.group? g

/-- Region base and device of member `i` of an ordered group. -/
def State.orderedMember (s : State) (g : Group) (i : Nat) : Nat × Nat :=
  (field (s.mem.readNat (g.members + 16 * i) 8) 0 52, field (s.mem.readNat (g.members + 16 * i + 8) 8) 0 16)

/-- Device of member `i`. -/
def State.memberDev (s : State) (g : Group) (i : Nat) : Nat :=
  if g.kind = groupOrdered then (s.orderedMember g i).2 else s.mem.readNat (g.members + 2 * i) 2

/-- The members of a group on a device. -/
def State.membersOn (s : State) (g : Group) (dev : Nat) : List Nat :=
  (List.range g.nmemb).filter fun i => s.memberDev g i == dev

/-- The devices of a group, each once, in the order of their first members. -/
def State.memberDevs (s : State) (g : Group) : List Nat := ((List.range g.nmemb).map (s.memberDev g)).eraseDups

/-- The addresses of this device's memory that a store of an ordered group writes: its word, and SEQ (R327). -/
def State.mcstPlaces (s : State) (pid gi word : Nat) : List Nat :=
  match s.group? pid gi with
  | none => []
  | some g => (s.membersOn g s.device).flatMap fun i => let base := (s.orderedMember g i).1; [base, base + 8 * word]

/-- An earlier multicast store of the strand will write some of the bytes of an element at its home, or some of a member on the device that the
element is for (R296, R326, R327). -/
def State.mcstBefore (s : State) (r : Req) (e : Elem) : Bool :=
  s.unapplied.any fun u => u.sid == r.sid && u.serial < r.rank &&
    match u.group with
    | none => false
    | some g =>
      if r.space = 2 then (s.group? r.pid g).any fun x => !(s.membersOn x r.peer).isEmpty
      else e.phase == .home && !e.host && (s.mcstPlaces r.pid g u.word).any fun a => e.pa < a + 8 && a < e.pa + e.size

/-- A shared-map operation of the strand has not acted at its home yet (R163). -/
def State.mapPending (s : State) (sid : SId) : Bool :=
  s.awaits fun e => match e with
    | .sharedMapHomeAction op => op.sid == sid
    | _ => false

/-- An element access may take effect now: no earlier access of its strand to the same bytes is outstanding (R296), no earlier
acquire or shared-map operation is (R163, R305), no earlier chase or multicast store reaches it (R197, R296, R326), and a release or sc
access has no earlier access outstanding, multicast stores too (R305, R306, R326). -/
def State.mayAct (s : State) (r : Req) (e : Elem) : Bool :=
  !s.mapPending r.sid && !(r.releases && s.unapplied.any fun u => u.sid == r.sid && u.serial < r.rank) &&
    !s.mcstBefore r e &&
    (s.earlier r).all fun x =>
      !x.acquires && !r.releases && !s.linksTo x r e && !s.chaseHolds x r e &&
        !(x.elems.any fun e' => e'.phase != .done && (overlaps r e x e' || s.mayAlias e x e'))

/-! ### Causal order through hot rows (R337-R339; log 13) -/

/-- The replicas of a hot-row store: the elements with one place in the source (R176). -/
def Req.replicas (r : Req) (e : Elem) : List Elem := r.elems.filter fun x => x.put == e.put

/-- The replicas of a die, or all of them, hold a request's stores to hot rows. -/
def Req.heldBy (w : Req) (die : Option Nat) : Bool :=
  w.elems.all fun e =>
    let g := w.replicas e
    g.length ≤ 1 || match die with
      | none => e.phase == .done
      | some d => ((g[d]?).map fun x => x.phase == .done).getD true

/-- A store is readable at a die, or everywhere (R337). -/
def State.readable (s : State) (die : Option Nat) (id : Nat) : Bool :=
  match s.req? id with
  | none => true
  | some w => w.heldBy die

/-- What of a list of stores is not readable everywhere yet. -/
def State.stillOpen (s : State) (l : List Heard) : List Heard := (l.filter fun h => !s.readable none h.1).eraseDups

/-- The clock that the strand's next access carries (R337). -/
def State.carried (s : State) (sid : SId) : List Heard :=
  s.stillOpen (((s.strand sid).heard.filter (·.2.isNone)) ++ (s.core sid.core).heard)

/-- What the strand has heard of is readable everywhere. -/
def State.heardAll (s : State) (sid : SId) : Bool := (s.carried sid).isEmpty

/-- What the running strand has heard of counts for the other strands of its core, as it writes what they share (R299-R301,
R337). -/
def State.tellCore (s : State) : State :=
  if s.me.heard.isEmpty then s
  else
    let l := s.carried s.cur
    s.modMyCore fun c => { c with heard := l }

/-- A write, of the clock `r.deps`, may take effect at a place of a die, or at one that every die reads: the stores that it causally
follows are readable there (R337, R338). -/
def State.causal (s : State) (r : Req) (die : Option Nat) : Bool :=
  !(r.scope ≤ 5 || r.releases || !r.fenced.isEmpty) || r.deps.all fun h => h.2.isSome || s.readable die h.1

/-- No access of the strand is outstanding that an ordering asks for, and what it has heard of is readable everywhere. -/
def State.quiet (s : State) (sid : SId) : Bool :=
  (!s.reqs.any fun r => r.ofStrand sid) && !s.unapplied.any (fun u => u.sid == sid) && !s.mapPending sid && s.heardAll sid

/-- An acquire or shared-map operation of the strand is outstanding: its later accesses wait (R163, R302, R305). -/
def State.holdsLater (s : State) (sid : SId) : Bool := s.mapPending sid || s.reqs.any fun r => r.ofStrand sid && r.acquires && !r.aside

/-- An access that acts at its issue waits for the strand's earlier acquires and shared-map operations (R163, R302, R305). -/
def State.afterAcquires (k : State → State) (s : State) : State := if s.holdsLater s.cur then s.lend .poll else k s

/-- Outstanding requests of a strand that count against the limit, and those with a vector source (R365). -/
def State.outstanding (s : State) (sid : SId) : Nat := (s.reqs.filter fun r => r.sid == sid && r.kind.counts && !r.aside).length
def State.outstandingVec (s : State) (sid : SId) : Nat :=
  (s.reqs.filter fun r => r.sid == sid && r.kind.counts && !r.aside && !r.vec.isEmpty).length

/-- At most the cycles of each of the two legs of an access, to its station and to its home: with the events and the polls between
them it stays within the 2,048 of R304. -/
def legCycles : Nat := 800

/-- Those of a request: a chase of 16 visits, which later accesses wait for, and an AENQ with its links stay within R304's and R399's bounds
too. -/
def Req.leg (r : Req) : Nat :=
  match r.kind with
  | .chase => 40
  | .link _ => 200
  | _ => legCycles

/-- Sends the elements of a request that are still to be accessed on their way: to the translation stations, to the core's network interface
for another device or a remote slot, or, of a message that has arrived, to the slot it names (R177, R188, R213, R320). -/
def State.startElems (s : State) (r : Req) : State :=
  (List.range r.elems.length).foldl (fun s k =>
    match r.elems[k]? with
    | some e =>
      if e.phase != .walk then s
      else if r.space = 3 && r.source.isSome then s.postFree r.leg (.remoteSlotAccess r.id k)
      else s.postFree r.leg (.translationWalk r.id k)
    | none => s) s

/-- Adds a request and starts its elements. -/
def State.addReq (s : State) (r : Req) : State := { s with reqs := s.reqs ++ [r] }.startElems r

/-- A request of a strand with no fields of its own. -/
def State.reqOf (s : State) (sid : SId) (kind : ReqKind) (id : Nat) : Req :=
  { id := id, sid := sid, owner := s.ownerOf sid, task := (s.owned sid.core (s.ownerOf sid)).task, pid := s.pidOf sid, kind := kind,
    pc := (s.strand sid).pc, space := 0, peer := 0, rcore := 0, order := 0, scope := 5, spin := false, type := 0, dst := .none,
    dst2 := 0, x := 0, y := 0, xs := [], ys := [], attempts := 0, counted := false, limit := 0, serial := 0, elems := [], words := [],
    vals := [], vec := [], dead := false, failed := 0, source := none, fenced := (s.strand sid).fenced
    prog := (s.strand sid).redo.map (·.prog)
    deps := if kind.writes then s.carried sid else [] }

/-- A request through a record. -/
def State.recordReq (s : State) (sid : SId) (kind : ReqKind) (r : Nat) (id : Nat) : Req :=
  { s.reqOf sid kind id with
    space := s.spaceOf r, peer := recPeer r, rcore := recCore r, type := recFormat r }

/-- A request of the running strand with the fields that every form shares. -/
def State.blankReq (s : State) (kind : ReqKind) (x : Ext) (r : Nat) (id : Nat) : Req :=
  { s.recordReq s.cur kind r id with
    order := x.order.toNat, scope := x.scope.toNat, type := typeOf x.type.toNat (recFormat r), words := s.words }

/-- An element access that is still to be made. -/
def elemAt (va size put width : Nat) (signed : Bool) (data : List Byte) : Elem :=
  { va := va, size := size, put := put, width := width, signed := signed, pa := 0, host := false, sync := false, stamp := 0, phase := .walk, data := data }

/-- An access held at its station: `pa` is the address that waits (R188). -/
def heldElem (va size stamp : Nat) : Elem := { elemAt va size 0 0 false [] with phase := .held, pa := va, stamp := stamp }

/-- An element that needs no access: its bytes are already known. -/
def elemDone (size put width : Nat) (signed : Bool) (data : List Byte) : Elem :=
  { va := 0, size := size, put := put, width := width, signed := signed, pa := 0, host := false, sync := false, stamp := 0, phase := .done, data := data }

end Sys2Proof.Machine
end

