-- ==== Sys2Proof/Machine/Operands.lean ====
section
/-! DEFINITION. Operands: register names and their bytes, sources and destinations with their full/empty bits, the
pops and appends of bound names, and the common course of an instruction's issue (spec 03 R45, R61; 05 R96; 06 R122-R124,
R135-R136; 12 R243; R22, R24). -/

namespace Sys2Proof.Machine

/-- A register operand: its class and number, and its empty policy T (R33, R61). -/
inductive Opnd where
  | s (r : Reg) (t : Bool)
  | v (r : Reg) (t : Bool)
  | w (r : Reg) (t : Bool)
  | tile (r : Reg) (t : Bool)
deriving DecidableEq, Repr

/-- The empty policy of an operand: trap when empty. -/
def Opnd.traps : Opnd → Bool
  | .s _ t | .v _ t | .w _ t | .tile _ t => t

/-- A scalar is no register-space name. -/
def Opnd.isScalar : Opnd → Bool
  | .s _ _ => true
  | _ => false

/-- The generator that a name is bound to. -/
def Strand.bound (st : Strand) : Opnd → Option Nat
  | .s r _ => if r = 0 then none else firstBelow 8 fun q => let g := st.streams[q]?.getD {}; g.cls == 1 && g.reg == r
  | .v r _ => firstBelow 8 fun q => let g := st.streams[q]?.getD {}; g.cls == 2 && g.reg == r
  | _ => none

/-- First byte and size of a register-space name (R123); (0, 0) for a scalar. A bound name stands for the bytes that SOPEN found (R124;
log 9). -/
def Strand.place (st : Strand) : Opnd → Nat × Nat
  | .s _ _ => (0, 0)
  | .v r t => match st.bound (.v r t) with
    | some q => ((st.streams[q]?.getD {}).base, 512)
    | none => (st.vView.base + r.toNat * st.vView.stride, 512)
  | .w r _ => (st.aView.base + r.toNat * st.aView.stride, 5120)
  | .tile r _ => (st.tView.base + r.toNat * st.tView.stride, 4096)

/-- Window size in bytes (R122). -/
def Crew.windowSize (w : Crew) : Nat := 1024 * w.hold.rq

/-- The name lies in the window (R122). -/
def State.inWindow (s : State) (o : Opnd) : Bool :=
  o.isScalar || ((s.me.place o).1 + (s.me.place o).2 ≤ s.myCrew.windowSize)

/-! ### Stream-bound names (R135, R136) -/

/-- A generator of a strand. -/
def Strand.stream (st : Strand) (q : Nat) : Stream := st.streams[q]?.getD {}

/-- Replaces a generator. -/
def Strand.setStream (st : Strand) (q : Nat) (g : Stream) : Strand := { st with streams := st.streams.setIfInBounds q g }

/-- The elements of the record that make up one element of the stream (R135). -/
def Stream.step (g : Stream) : Nat := if g.cls = 1 then 1 else 512 / max 1 (typeSize (recFormat g.record))

/-- A cursor is past the end (R136). -/
def pastEnd (r : Nat) (ks : List Nat) : Bool := recExt r (recRank r - 1) ≤ ks.getD (recRank r - 1) 0

/-- Moves a cursor on by `n` elements of its row; the row done, the next row starts at coordinate 0 (R136). -/
def advance (r n : Nat) (ks : List Nat) : List Nat :=
  (List.range (recRank r - 1)).foldl
    (fun ks i => if recExt r i ≤ ks.getD i 0 then bumpCoord (ks.set i 0) (i + 1) 1 else ks) (bumpCoord ks 0 n)

/-- The coordinates of the element's parts that lie in the row (R136). -/
def rowCoords (g : Stream) (ks : List Nat) : List (List Nat) :=
  ((List.range g.step).map fun j => bumpCoord ks 0 j).filter fun c => inRange g.record c

/-- A stream may use its record: the record's permission, and host space only where the driver has accepted it (R136, R386). -/
def State.mayStream (s : State) (r : Nat) (perm : Nat → Bool) : Bool := perm r && !s.hostClosed r

/-- A fetched element is ready to land. -/
def State.announceStream (s : State) (sid : SId) (q : Nat) : State :=
  let g := (s.strand sid).stream q
  if g.fetched.isEmpty || g.landed then s else s.post 0 (.streamElementLand sid q)

/-- Starts the fetch of the next element unless one is under way, two are waiting, or the tensor ends: each part that lies
in the row is a relaxed load, and an element of no part reads as zero at once (R136; log 9). -/
def State.kickStream (s : State) (sid : SId) (q : Nat) : State :=
  let g := (s.strand sid).stream q
  if g.cls = 0 || g.busy || 2 ≤ g.fetched.length || pastEnd g.record g.fetchAt || !s.mayStream g.record recR then s
  else
    let size := typeSize (recFormat g.record)
    let (id, s) := s.nextSerial
    let parts := (rowCoords g g.fetchAt).map fun c =>
      elemAt (locate g.record (dieOf sid.core) c) size ((c.getD 0 0 - g.fetchAt.getD 0 0) * size) size false []
    if parts.isEmpty then
      let g := { g with fetched := g.fetched ++ [List.replicate (if g.cls = 1 then 8 else 512) 0], fetchAt := advance g.record g.step g.fetchAt }
      (s.modStrand sid fun st => st.setStream q g).announceStream sid q
    else
      (s.modStrand sid fun st => st.setStream q { g with busy := true }).addReq
        { s.recordReq sid (.streamRead q) g.record id with elems := parts }

/-- The head element lands in the bound register and sets it full (R136). -/
def State.landStream (s : State) (sid : SId) (q : Nat) : State :=
  let g := (s.strand sid).stream q
  match g.fetched with
  | [] => s
  | head :: rest =>
    if g.landed || g.cls = 0 then s
    else
      let s := s.modStrand sid fun st => st.setStream q { g with fetched := rest, landed := true }
      let s := if g.cls = 1 then s.modStrand sid fun st => (st.put g.reg (BitVec.ofNat 64 (natOfBytes head))).setFull g.reg
        else
          let base := ((s.strand sid).place (.v g.reg false)).1
          s.modOwned sid.core (s.ownerOf sid) fun w =>
            { w with window := w.window.write base head, empty := delRange (base / 64) 8 w.empty }
      s.kickStream sid q

/-- A pop: the bound name is empty until the next element lands (R136). -/
def State.pop (s : State) (q : Nat) : State :=
  let g := s.me.stream q
  let s := s.modMe fun st => st.setStream q { g with rd := advance g.record g.step g.rd, landed := false }
  let s := if g.cls = 1 then s.modMe fun st => st.setEmpty g.reg
    else
      let base := (s.me.place (.v g.reg false)).1
      s.modMyCrew fun w => w.emptyLines (base / 64) 8
  (s.announceStream s.cur q).kickStream s.cur q

/-- An append takes its place at the write cursor, which moves on, and in the strand's program order; its value is still to come. Bytes
beyond the row are discarded (R136). -/
def State.bookAppend (s : State) (sid : SId) (q : Nat) : Nat × State :=
  let g := (s.strand sid).stream q
  let size := typeSize (recFormat g.record)
  let (id, s) := s.nextSerial
  let parts := (rowCoords g g.wr).flatMap fun c =>
    (rowsOf g.record (dieOf sid.core) true (c.getD (recRank g.record - 1) 0)).map fun row =>
      elemAt (addressOf g.record c row) size ((c.getD 0 0 - g.wr.getD 0 0) * size) 0 false []
  let r : Req := { s.recordReq sid (.append q) g.record id with elems := parts, aside := true }
  (id, { s.modStrand sid fun st => st.setStream q { g with wr := advance g.record g.step g.wr } with reqs := s.reqs ++ [r] })

/-- The value of an append is there: it is stored, with what its strand has heard of by now (R136, R337). -/
def State.fillAppend (s : State) (id : Nat) (bytes : List Byte) : State :=
  match s.req? id with
  | none => s
  | some r =>
    let r := { r with
      aside := false, deps := (r.deps ++ s.carried r.sid).eraseDups, elems := r.elems.map fun e => { e with data := (bytes.drop e.put).take e.size } }
    if r.elems.isEmpty then s.dropReq id else (s.modReq id fun _ => r).startElems r

/-- An append of a value that is there (R136). -/
def State.append (s : State) (sid : SId) (q : Nat) (bytes : List Byte) : State :=
  let (id, s) := s.bookAppend sid q
  s.fillAppend id bytes

/-- A result that comes later takes its place in the stream that its name is bound to, if it is (R136). -/
def State.book (s : State) (o : Opnd) : Booking × State :=
  match s.me.bound o with
  | none => (none, s)
  | some q => let (id, s) := s.bookAppend s.cur q
    (some id, s)

/-! ### Reading -/

/-- What a check of the operands finds. -/
inductive Ready where
  | go
  | wait (w : Wait)
  | trap (code : Nat)
deriving DecidableEq, Repr

/-- Full(r) (R61): a scalar's bit, or every line of a register-space name. -/
def State.isFull (s : State) : Opnd → Bool
  | .s r _ => s.me.isFull r
  | o => let (base, size) := s.me.place o; !anyIn (base / 64) (size / 64) s.myCrew.empty

/-- No earlier producer owns the name (R22, R355). -/
def State.isFree (s : State) : Opnd → Bool
  | .s r _ => s.me.isFree r
  | o => let (base, size) := s.me.place o; s.myCrew.linesFree (base / 64) (size / 64)

/-- What ends the wait for a destination. -/
def State.waitForOwn (s : State) : Opnd → Wait
  | .s r _ => .sregOwn r
  | o => let (base, size) := s.me.place o; .linesOwn (base / 64) (size / 64)

/-- What ends the wait for a name. -/
def State.waitFor (s : State) : Opnd → Wait
  | .s r _ => .sreg r
  | o => let (base, size) := s.me.place o; .lines (base / 64) (size / 64)

/-- Src's checks (R61): a bound name past its end, or without read permission, traps; an empty name blocks, or traps
under T (R22, R24, R136). -/
def State.sourceReady (s : State) (o : Opnd) : Ready :=
  let ended := match s.me.bound o with
    | some q =>
      let g := s.me.stream q
      if pastEnd g.record g.rd then some causeStreamEnded
      else if !s.mayStream g.record recR then some causeLayoutPermission else none
    | none => none
  match ended with
  | some c => .trap c
  | none => if s.isFull o then .go else if o.traps then .trap causeRegisterEmpty else .wait (s.waitFor o)

/-- The checks of a destination, for Dest and Reserve alike (R61): an earlier producer's name blocks (R22), one that a late
fault left empty does not (R355); an append past the
end, or without write permission, traps (R136). -/
def State.destReady (s : State) (o : Opnd) : Ready :=
  match s.me.bound o with
  | some q =>
    let g := s.me.stream q
    if pastEnd g.record g.wr then .trap causeStreamEnded else if !s.mayStream g.record recW then .trap causeLayoutPermission else .go
  | none => if s.isFree o then .go else .wait (s.waitForOwn o)

/-- The first check that does not pass, in the order of the operands. -/
def firstNotReady (check : Opnd → Ready) : List Opnd → Ready
  | [] => .go
  | o :: os => match check o with
    | .go => firstNotReady check os
    | r => r

/-- Pops every bound name among the sources once (R136). -/
def State.popAll (s : State) (srcs : List Opnd) : State :=
  ((srcs.filterMap s.me.bound).eraseDups).foldl State.pop s

/-- Reads the sources in order and goes on, or traps, or waits; names outside the window trap first (R61, R122), and an access to
register space waits for the strand's earlier acquires and shared-map operations (R163, R302, R305). -/
def State.withSources (info : Word) (srcs names : List Opnd) (k : State → State) (s : State) : State :=
  if !((srcs ++ names).all s.inWindow) then s.trap causeWindowBounds info
  else if !((srcs ++ names).all Opnd.isScalar) && s.holdsLater s.cur then s.lend .poll
  else match firstNotReady s.sourceReady srcs with
    | .trap c => s.trap c info
    | .wait w => s.lend w
    | .go => k s

/-- Waits for the destinations and goes on. -/
def State.withDests (info : Word) (dsts : List Opnd) (k : State → State) (s : State) : State :=
  match firstNotReady s.destReady dsts with
  | .trap c => s.trap c info
  | .wait w => s.lend w
  | .go => k s

/-- The course of an issue: sources, the instruction's own trap conditions, destinations, pops, and its effect `k`, which
gets the state whose values it reads and the state with the bound sources popped. -/
def State.issue (info : Word) (srcs dsts : List Opnd) (check : State → Option Nat) (k : State → State → State)
    (s : State) : State :=
  s.withSources info srcs dsts fun s =>
    match check s with
    | some c => s.trap c info
    | none => s.withDests info dsts fun s => k s (s.popAll srcs)

/-- No trap condition of its own. -/
def noTrap (_ : State) : Option Nat := none

/-! ### Values -/

/-- The value of a scalar source. -/
def State.sval (s : State) (r : Reg) : Word := s.me.get r

/-- The bytes of a register-space name. -/
def State.bytesOf (s : State) (o : Opnd) : List Byte :=
  let (base, size) := s.me.place o
  s.myCrew.window.readBytes base size

/-- The 512 bytes of a vector source. -/
def State.vbytes (s : State) (r : Reg) : List Byte := s.bytesOf (.v r false)

/-- The 128 lanes of a vector source (R243). -/
def State.vlanes (s : State) (r : Reg) : List W32 := lanesOf (s.vbytes r)

/-- A lane mask; m0 reads all ones (R242). -/
def Strand.mask (st : Strand) (m : Nat) : BitVec 128 := if m = 0 then BitVec.allOnes 128 else st.masks[m]?.getD 0

/-- Writes a lane mask; writing m0 changes nothing (R242). -/
def Strand.setMask (st : Strand) (m : Nat) (x : BitVec 128) : Strand :=
  if m = 0 then st else { st with masks := st.masks.setIfInBounds m x }

/-- The lanes a mask enables. -/
def lanesOn (m : BitVec 128) : List Bool := (List.range 128).map m.getLsbD

/-- The bytes of the lanes that are enabled. -/
def bytesOn (on : List Bool) : List Bool := on.flatMap fun b => [b, b, b, b]

/-! ### Writing -/

/-- Dest's write of a scalar (R61): the register is full after it, also where a late fault had left it empty (R355); a bound
name appends (R136). -/
def State.putS (s : State) (r : Reg) (x : Word) : State :=
  match s.me.bound (.s r false) with
  | some q => s.append s.cur q (bytesOfNat 8 x.toNat)
  | none => s.modMe fun st => (st.put r x).setFull r

/-- The value of d once the enabled bytes are written. -/
def mergeBytes (old new : List Byte) (on : List Bool) : List Byte :=
  (old.zip (new.zip on)).map fun (o, n, b) => if b then n else o

/-- Dest's write of a vector's enabled bytes; disabled ones keep theirs (R243); a bound name appends. -/
def State.putV (s : State) (r : Reg) (bytes : List Byte) (on : List Bool) : State :=
  let x := mergeBytes (s.vbytes r) bytes on
  match s.me.bound (.v r false) with
  | some q => s.append s.cur q x
  | none =>
    let base := (s.me.place (.v r false)).1
    s.modMyCrew fun w => { w with window := w.window.write base x, empty := delRange (base / 64) 8 w.empty }

/-- Reserve (R61): the name is empty until its delivery. A bound name stays as it is (log 11). -/
def State.reserve (s : State) (o : Opnd) : State :=
  match s.me.bound o, o with
  | some _, _ => s
  | none, .s r _ => s.modMe fun st => st.setEmpty r
  | none, o =>
    let (base, size) := s.me.place o
    s.modMyCrew fun w => w.emptyLines (base / 64) (size / 64)

/-- A scalar result that lands after `lat` cycles (R61 Reserve and Deliver). -/
def State.laterS (s : State) (lat : Nat) (r : Reg) (x : Word) : State :=
  match s.me.bound (.s r false) with
  | some _ => s.putS r x
  | none => (s.reserve (.s r false)).post lat (.deliver (s.scalarDelivery [(r, x)]))

/-- The delivery of a register-space name's bytes: all its lines turn full, the enabled bytes are written. -/
def State.spaceDelivery (s : State) (base : Nat) (bytes : List Byte) (on : List Bool) : Delivery :=
  { sid := s.cur, owner := s.ownerOf s.cur, sregs := [],
    bytes := [(base, bytes, on)], lines := List.range' (base / 64) (bytes.length / 64), win := [] }

/-- A vector result that lands after `lat` cycles. -/
def State.laterV (s : State) (lat : Nat) (r : Reg) (bytes : List Byte) (on : List Bool) : State :=
  match s.me.bound (.v r false) with
  | some _ => s.putV r bytes on
  | none =>
    let base := (s.me.place (.v r false)).1
    (s.reserve (.v r false)).post lat (.deliver (s.spaceDelivery base bytes on))

end Sys2Proof.Machine
end

