-- ==== Sys2Proof/Machine/Numbers.lean ====
section
/-! DEFINITION. Numbers to the last bit (spec 04): storage formats, rounding, arithmetic, conversions, the window format
and the accumulation of the matrix engines. -/

namespace Sys2Proof.Machine

/-! ### Formats (R63, R64) -/

/-- The storage formats (R63). -/
inductive Fmt where
  | e4m3 | e5m2 | bf16 | f32
deriving DecidableEq, Repr

/-- Width in bits. -/
def Fmt.width : Fmt → Nat
  | .e4m3 | .e5m2 => 8
  | .bf16 => 16
  | .f32 => 32

/-- Fraction bits. -/
def Fmt.frac : Fmt → Nat
  | .e4m3 => 3
  | .e5m2 => 2
  | .bf16 => 7
  | .f32 => 23

/-- Exponent bias. -/
def Fmt.bias : Fmt → Nat
  | .e4m3 => 7
  | .e5m2 => 15
  | .bf16 | .f32 => 127

/-- Pattern of the largest finite value. -/
def Fmt.maxPat : Fmt → Nat
  | .e4m3 => 0x7E
  | .e5m2 => 0x7B
  | .bf16 => 0x7F7F
  | .f32 => 0x7F7FFFFF

/-- The canonical NaN (R64). -/
def Fmt.nan : Fmt → Nat
  | .e4m3 => 0x7F
  | .e5m2 => 0x7E
  | .bf16 => 0x7FC0
  | .f32 => 0x7FC00000

/-- Pattern of +Inf; E4M3 has none, and its place is taken by NaN (R63, R68). -/
def Fmt.inf : Fmt → Nat
  | .e4m3 => 0x7F
  | .e5m2 => 0x7C
  | .bf16 => 0x7F80
  | .f32 => 0x7F800000

/-- The sign bit's weight. -/
def Fmt.sign (f : Fmt) : Nat := 2 ^ (f.width - 1)

/-- A pattern with a sign. -/
def Fmt.signed (f : Fmt) (neg : Bool) (mag : Nat) : Nat := if neg then f.sign + mag else mag

/-- Infinity of a sign as a result: in E4M3 the canonical NaN (R68). -/
def Fmt.infOf (f : Fmt) (neg : Bool) : Nat := if f = .e4m3 then f.nan else f.signed neg f.inf

/-- What a pattern stands for: a finite value is ±n * 2^e. -/
inductive FVal where
  | nan
  | inf (neg : Bool)
  | fin (neg : Bool) (n : Nat) (e : Int)
deriving DecidableEq, Repr

/-- The value of a pattern (R63). -/
def Fmt.decode (f : Fmt) (p : Nat) : FVal :=
  let neg := bit p (f.width - 1)
  let mag := p % f.sign
  let ex := mag / 2 ^ f.frac
  let fr := mag % 2 ^ f.frac
  if f.maxPat < mag then (if f ≠ .e4m3 && mag == f.inf then .inf neg else .nan)
  else if ex = 0 then .fin neg fr (1 - (f.bias : Int) - f.frac)
  else .fin neg (2 ^ f.frac + fr) ((ex : Int) - f.bias - f.frac)

/-- A zero of either sign. -/
def FVal.isZero : FVal → Bool
  | .fin _ 0 _ => true
  | _ => false

def FVal.isNan : FVal → Bool
  | .nan => true
  | _ => false

/-- The opposite sign. -/
def FVal.neg : FVal → FVal
  | .nan => .nan
  | .inf s => .inf !s
  | .fin s n e => .fin (!s) n e

/-! ### Rounding (R67-R69) -/

/-- Rounding modes in the order of their QF codes (R47). -/
inductive RMode where
  | rne | rz | ru | rd
deriving DecidableEq, Repr

/-- The mode of a QF field (R47). -/
def RMode.ofQf (q : BitVec 2) : RMode :=
  match q.toNat with
  | 0 => .rne
  | 1 => .rz
  | 2 => .ru
  | _ => .rd

/-- An exact real ±(n + t) * 2^e, where 0 < t < 1 if `sticky` and t = 0 otherwise.
A sticky number carries at least 30 bits in n. -/
structure Exact where
  neg : Bool
  n : Nat
  e : Int
  sticky : Bool := false
deriving DecidableEq, Repr

/-- The exact value of an integer times a power of two. -/
def Exact.ofInt (x : Int) (e : Int) : Exact := ⟨decide (x < 0), x.natAbs, e, false⟩

/-- The magnitude divided by 2^k and rounded to an integer in a mode that knows the sign (R67 step 3). -/
def roundShift (m : RMode) (neg : Bool) (n : Nat) (sticky : Bool) (k : Int) : Nat :=
  if k ≤ 0 then
    let g := n * 2 ^ (-k).toNat
    if sticky && (m == .ru && !neg || m == .rd && neg) then g + 1 else g
  else
    let d := 2 ^ k.toNat
    let g := n / d
    let r := 2 * (n % d) + boolNat sticky
    let up := match m with
      | .rne => decide (d < r) || (r == d && g % 2 == 1)
      | .rz => false
      | .ru => !neg && r != 0
      | .rd => neg && r != 0
    if up then g + 1 else g

/-- The overflow result (R68). -/
def Fmt.overflow (f : Fmt) (m : RMode) (sat neg : Bool) : Nat :=
  if sat || m == .rz || (m == .ru && neg) || (m == .rd && !neg) then f.signed neg f.maxPat else f.infOf neg

/-- Round(x, f, m) of a number that is not zero, or of a zero with its sign (R67); `sat` is .sat (R68).
With k the exponent of x, at least that of the subnormals, and g the integer that the mode picks, (k + bias - 1) * 2^F + g
is the pattern, also where g carries to 2^(F+1). -/
def Fmt.round (f : Fmt) (m : RMode) (sat : Bool) (x : Exact) : Nat :=
  if x.n = 0 && !x.sticky then f.signed x.neg 0
  else
    let k := max (x.e + Nat.log2 x.n) (1 - (f.bias : Int))
    let g := roundShift m x.neg x.n x.sticky (k - f.frac - x.e)
    let mag := (k + f.bias - 1).toNat * 2 ^ f.frac + g
    if f.maxPat < mag then f.overflow m sat x.neg else f.signed x.neg mag

/-- Round of an exact sum, whose zero is +0, or -0 under .rd (R69). -/
def Fmt.roundSum (f : Fmt) (m : RMode) (x : Int) (e : Int) : Nat :=
  if x = 0 then f.signed (m == .rd) 0 else f.round m false (Exact.ofInt x e)

/-! ### Arithmetic (R69, R70) -/

/-- The signed integer of a finite value in units of 2^e, for e no more than its own exponent. -/
def scaledTo (e : Int) (neg : Bool) (n : Nat) (en : Int) : Int :=
  let v : Int := n * 2 ^ (en - e).toNat
  if neg then -v else v

/-- Sum of two values, the second already exact (R69, R70). -/
def Fmt.addVal (f : Fmt) (m : RMode) (x y : FVal) : Nat :=
  match x, y with
  | .nan, _ | _, .nan => f.nan
  | .inf s, .inf t => if s = t then f.infOf s else f.nan
  | .inf s, _ | _, .inf s => f.infOf s
  | .fin s n e, .fin t k e' =>
    if n = 0 && k = 0 then f.signed (if s = t then s else m == .rd) 0
    else
      let u := min e e'
      f.roundSum m (scaledTo u s n e + scaledTo u t k e') u

/-- The exact product of two values. -/
def FVal.mul (x y : FVal) : FVal :=
  match x, y with
  | .nan, _ | _, .nan => .nan
  | .inf s, .inf t => .inf (s != t)
  | .inf s, .fin t n _ | .fin t n _, .inf s => if n = 0 then .nan else .inf (s != t)
  | .fin s n e, .fin t k e' => .fin (s != t) (n * k) (e + e')

/-- A value rounded to a format. -/
def Fmt.roundVal (f : Fmt) (m : RMode) (sat : Bool) : FVal → Nat
  | .nan => f.nan
  | .inf s => if sat then f.signed s f.maxPat else f.infOf s
  | .fin s n e => f.round m sat ⟨s, n, e, false⟩

/-- FADD, FSUB, FMUL and FMA of patterns (R70). -/
def Fmt.add (f : Fmt) (m : RMode) (a b : Nat) : Nat := f.addVal m (f.decode a) (f.decode b)
def Fmt.sub (f : Fmt) (m : RMode) (a b : Nat) : Nat := f.addVal m (f.decode a) (f.decode b).neg
def Fmt.mul (f : Fmt) (m : RMode) (a b : Nat) : Nat := f.roundVal m false ((f.decode a).mul (f.decode b))
def Fmt.fma (f : Fmt) (m : RMode) (a b c : Nat) : Nat := f.addVal m ((f.decode a).mul (f.decode b)) (f.decode c)
/-- a * b - c, rounded once. -/
def Fmt.fms (f : Fmt) (m : RMode) (a b c : Nat) : Nat := f.addVal m ((f.decode a).mul (f.decode b)) (f.decode c).neg

/-- The exact quotient of two positive numbers, with at least 40 bits for numerators and denominators of up to 24 bits;
wider ones pass their own shift. -/
def quotient (neg : Bool) (n : Nat) (e : Int) (d : Nat) (e' : Int) (shift : Nat) : Exact :=
  let q := n * 2 ^ shift
  ⟨neg, q / d, e - e' - shift, q % d != 0⟩

/-- FDIV of patterns (R70). -/
def Fmt.div (f : Fmt) (m : RMode) (a b : Nat) : Nat :=
  match f.decode a, f.decode b with
  | .nan, _ | _, .nan => f.nan
  | .inf _, .inf _ => f.nan
  | .inf s, .fin t _ _ => f.infOf (s != t)
  | .fin s _ _, .inf t => f.signed (s != t) 0
  | .fin s n e, .fin t k e' =>
    if k = 0 then (if n = 0 then f.nan else f.infOf (s != t))
    else if n = 0 then f.signed (s != t) 0
    else f.round m false (quotient (s != t) n e k e' 64)

/-- Integer square root by trial of bits, `fuel` of them. -/
def isqrtFrom (n : Nat) : Nat → Nat → Nat
  | 0, r => r
  | fuel + 1, r => if (r + 2 ^ fuel) * (r + 2 ^ fuel) ≤ n then isqrtFrom n fuel (r + 2 ^ fuel) else isqrtFrom n fuel r

/-- The exact square root of n * 2^e for n below 2^24, with 40 bits or more. -/
def rootOf (n : Nat) (e : Int) : Exact :=
  let odd := (e % 2).toNat
  let v := n * 2 ^ (odd + 80)
  let r := isqrtFrom v 54 0
  ⟨false, r, (e - odd) / 2 - 40, r * r != v⟩

/-- FSQRT of a pattern (R70). -/
def Fmt.sqrt (f : Fmt) (m : RMode) (a : Nat) : Nat :=
  match f.decode a with
  | .nan => f.nan
  | .inf s => if s then f.nan else f.inf
  | .fin s n e => if n = 0 then f.signed s 0 else if s then f.nan else f.round m false (rootOf n e)

/-- Rank of a pattern that is not NaN in the order of values, -0 below +0 (R70). -/
def Fmt.rank (f : Fmt) (p : Nat) : Int :=
  if bit p (f.width - 1) then -((p % f.sign : Nat) : Int) - 1 else p

def Fmt.isNan (f : Fmt) (p : Nat) : Bool := (f.decode p).isNan

/-- FMIN and FMAX of patterns (R70). -/
def Fmt.min (f : Fmt) (a b : Nat) : Nat :=
  if f.isNan a then (if f.isNan b then f.nan else b)
  else if f.isNan b then a else if f.rank a ≤ f.rank b then a else b
def Fmt.max (f : Fmt) (a b : Nat) : Nat :=
  if f.isNan a then (if f.isNan b then f.nan else b)
  else if f.isNan b then a else if f.rank b ≤ f.rank a then a else b

/-- The order of two patterns: none when unordered; -0 equals +0 (R69). -/
def Fmt.cmp (f : Fmt) (a b : Nat) : Option Ordering :=
  if f.isNan a || f.isNan b then none
  else if (f.decode a).isZero && (f.decode b).isZero then some .eq
  else some (compare (f.rank a) (f.rank b))

/-! ### Conversions (R71) -/

/-- An exact value rounded to an integer. -/
def Exact.roundInt (m : RMode) (x : Exact) : Int :=
  let g := roundShift m x.neg x.n x.sticky (-x.e)
  if x.neg then -(g : Int) else g

/-- Float to integer with saturation to [lo, hi] (R71). -/
def Fmt.toInt (f : Fmt) (m : RMode) (lo hi : Int) (p : Nat) : Int :=
  match f.decode p with
  | .nan => 0
  | .inf s => if s then lo else hi
  | .fin s n e => sat ((Exact.mk s n e false).roundInt m) lo hi

/-- Integer to float (R71). -/
def Fmt.ofInt (f : Fmt) (m : RMode) (x : Int) : Nat := f.round m false (Exact.ofInt x 0)

/-- Float to float (R71): a zero keeps its sign. -/
def Fmt.convert (src dst : Fmt) (m : RMode) (sat : Bool) (p : Nat) : Nat := dst.roundVal m sat (src.decode p)

/-! ### The window format (R77-R79) -/

/-- A lane of a window accumulator: the 320-bit integer and its flags. -/
structure WVal where
  w : Int
  fl : WLane
deriving DecidableEq, Repr

/-- No flag, no count. -/
def noFlags : WLane := ⟨false, false, false, false, 0⟩

/-- Adds an exact multiple of 2^-149 (R78): a result out of range wraps and sets sticky overflow. -/
def WVal.addExact (x : WVal) (v : Int) : WVal :=
  let r := x.w + v
  if -2 ^ 319 ≤ r && r < 2 ^ 319 then { x with w := r }
  else { w := Machine.sext (wrap r 320) 320, fl := { x.fl with ovf := true } }

/-- Adds an addend (R78). -/
def WVal.addVal (x : WVal) : FVal → WVal
  | .nan => { x with fl := { x.fl with nan := true } }
  | .inf s => { x with fl := if s then { x.fl with ninf := true } else { x.fl with pinf := true } }
  | .fin s n e => x.addExact (scaledTo (-149) s n e)

/-- Adds a whole window lane: the sum of the integers, and the flags of both. -/
def WVal.addWindow (x y : WVal) : WVal :=
  let r := x.addExact y.w
  { r with fl := { r.fl with nan := x.fl.nan || y.fl.nan, pinf := x.fl.pinf || y.fl.pinf, ninf := x.fl.ninf || y.fl.ninf,
                             ovf := r.fl.ovf || y.fl.ovf } }

/-- What the flags decide about a lane's value (R79 steps 1-3). -/
def winSpecial (fl : WLane) : Option FVal :=
  if fl.nan || (fl.pinf && fl.ninf) then some .nan
  else if fl.pinf then some (.inf false)
  else if fl.ninf then some (.inf true)
  else if fl.ovf then some .nan
  else none

/-- The rounded FP32 value of a lane (R79). -/
def WVal.round (x : WVal) : Nat :=
  match winSpecial x.fl with
  | some v => Fmt.f32.roundVal .rne false v
  | none => Fmt.f32.roundSum .rne x.w (-149)

/-! ### Matrix-engine arithmetic (R72-R76) -/

/-- Class codes of an accumulator element (R74). -/
def clsFinite : Nat := 0
def clsPInf : Nat := 1
def clsNInf : Nat := 2
def clsNan : Nat := 3

/-- Combine of R75. -/
def combineCls (a b : Nat) : Nat :=
  if a = clsNan || b = clsNan then clsNan
  else if a = clsFinite then b
  else if b = clsFinite then a
  else if a = b then a else clsNan

/-- The class of an exact value. -/
def FVal.cls : FVal → Nat
  | .nan => clsNan
  | .inf s => if s then clsNInf else clsPInf
  | .fin _ _ _ => clsFinite

/-- The unit in which the sums P are held: 2^-266 divides every product of two operands (R72). -/
def dotUnit : Int := -266

/-- Adds one product to a sum P of class and units of `dotUnit` (R72). -/
def dotAdd (p : Nat × Int) (a b : FVal) : Nat × Int :=
  match a.mul b with
  | .fin s n e => (p.1, p.2 + scaledTo dotUnit s n e)
  | v => (combineCls p.1 v.cls, p.2)

/-- P as a value: an infinite class hides the finite part (R72). -/
def dotVal (p : Nat × Int) : FVal :=
  if p.1 = clsFinite then .fin (decide (p.2 < 0)) p.2.natAbs dotUnit
  else if p.1 = clsPInf then .inf false
  else if p.1 = clsNInf then .inf true
  else .nan

/-- The scale of R73, as a value. -/
def scaleOf (sa sb : Nat) : FVal := Fmt.f32.decode (Fmt.f32.mul .rne sa sb)

/-- Round(u ÷ 2^k, integer, rne) of an integer (R75). -/
def roundDown (u : Int) (k : Nat) : Int := (Exact.ofInt u (-(k : Int))).roundInt .rne

/-- A mantissa fits (R74). -/
def mantOk (u : Int) : Bool := -2 ^ 47 ≤ u && u < 2 ^ 47

/-- The least k ≥ 1 that brings u into range (R75). -/
def leastShift (u : Int) : Nat :=
  let k := max 1 (Nat.log2 u.natAbs - 47)
  if mantOk (roundDown u k) then k else if mantOk (roundDown u (k + 1)) then k + 1 else k + 2

/-- An element that is finite zero. -/
def AccElem.isZero (x : AccElem) : Bool := x.cls == clsFinite && x.m == 0

/-- K_GROUP_APPLY's arithmetic (R75): each element that the K-group reaches with its contribution c; the elements not
listed contribute finite zero. -/
def AccSlot.applyGroup (s : AccSlot) (cs : List (Nat × FVal)) : AccSlot :=
  let touched := cs.map fun (i, c) =>
    let old := lookupD s.els i {}
    match c with
    | .fin neg n e =>
      if old.cls = clsFinite then (i, clsFinite, old.m + (Exact.mk neg n (e - s.e) false).roundInt .rne) else (i, old.cls, (0 : Int))
    | v => (i, combineCls old.cls v.cls, (0 : Int))
  let rest := (s.els.filter fun p => !cs.any fun c => c.1 == p.1).map fun p => (p.1, p.2.cls, p.2.m)
  let all := touched ++ rest
  let k : Nat := if all.all (fun p => mantOk p.2.2) then 0 else all.foldl (fun k p => if mantOk p.2.2 then k else max k (leastShift p.2.2)) 1
  let huge := decide (1023 < s.e + (k : Int))
  let k' := if huge then (1023 - s.e).toNat else k
  let done := all.map fun (i, c, u) =>
    if huge && c == clsFinite && u != 0 then (i, AccElem.mk (if 0 < u then clsPInf else clsNInf) 0)
    else (i, AccElem.mk c (roundDown u k'))
  { s with els := (done.filter fun p => !p.2.isZero).foldl (fun l p => putAt l p.1 p.2) [], e := s.e + (k' : Int) }

/-- The value of an element in a tile with exponent E (R74). -/
def AccElem.val (x : AccElem) (e : Int) : FVal :=
  if x.cls = clsFinite then .fin (decide (x.m < 0)) x.m.natAbs e
  else if x.cls = clsPInf then .inf false
  else if x.cls = clsNInf then .inf true
  else .nan

/-- A drained element (R76). -/
def AccElem.drain (x : AccElem) (e : Int) (f : Fmt) (sat : Bool) : Nat := f.roundVal .rne sat (x.val e)

end Sys2Proof.Machine
end

