-- ==== Sys2Proof/Machine/Transc.lean ====
section
/-! DEFINITION. The published algorithms (spec 04 R80-R85): every step is one rounding of an exact real to FP32 under
.rne. -/

namespace Sys2Proof.Machine

/-- An exact dyadic real m * 2^e. -/
structure Dy where
  m : Int
  e : Int
deriving DecidableEq, Repr

def Dy.add (x y : Dy) : Dy :=
  let u := min x.e y.e
  ⟨x.m * 2 ^ (x.e - u).toNat + y.m * 2 ^ (y.e - u).toNat, u⟩
def Dy.mul (x y : Dy) : Dy := ⟨x.m * y.m, x.e + y.e⟩
def Dy.neg (x : Dy) : Dy := ⟨-x.m, x.e⟩
/-- x * 2^k. -/
def Dy.scale (x : Dy) (k : Int) : Dy := ⟨x.m, x.e + k⟩
def Dy.ofInt (x : Int) : Dy := ⟨x, 0⟩

/-- The value of a finite FP32 pattern; infinities and NaN do not come here. -/
def dyOf (p : Nat) : Dy :=
  match Fmt.f32.decode p with
  | .fin s n e => ⟨if s then -(n : Int) else n, e⟩
  | _ => ⟨0, 0⟩

/-- Round(x, f32, rne) of an exact real. -/
def dyBits (x : Dy) : Nat := Fmt.f32.roundSum .rne x.m x.e

/-- One step of an algorithm (R80): its rounded value, which stays finite. -/
def Dy.step (x : Dy) : Dy := dyOf (dyBits x)

/-- The largest r below 2^fuel added to `r` with r^64 ≤ n. -/
def root64From (n : Nat) : Nat → Nat → Nat
  | 0, r => r
  | fuel + 1, r => if (r + 2 ^ fuel) ^ 64 ≤ n then root64From n fuel (r + 2 ^ fuel) else root64From n fuel r

/-- T[i] = Round(2^(i/64)) (R82): the 64th root of 2^i to 40 binary places, which is not exact for 0 < i < 64. -/
def tabT (i : Nat) : Dy :=
  if i = 0 then ⟨1, 0⟩
  else dyOf (Fmt.f32.round .rne false ⟨false, root64From (2 ^ (i + 64 * 40)) 42 0, -40, true⟩)

/-- LI[i] = Round(1 / (1 + i/64)) (R83). -/
def tabLI (i : Nat) : Dy := dyOf (Fmt.f32.round .rne false (quotient false 64 0 (64 + i) 0 64))

/-- LT[i] = Round(log2(1 + i/64)) (R83), entries 0 to 31. -/
def tabLTLow : List Nat :=
  [0x00000000, 0x3CB73CB4, 0x3D35D69C, 0x3D8759C5, 0x3DB31FB8, 0x3DDE4212, 0x3E0462C4, 0x3E19574F,
   0x3E2E00D2, 0x3E42615F, 0x3E567AF1, 0x3E6A4F72, 0x3E7DE0B6, 0x3E88983F, 0x3E92203D, 0x3E9B8926,
   0x3EA4D3C2, 0x3EAE00D2, 0x3EB7110E, 0x3EC0052B, 0x3EC8DDD4, 0x3ED19BB0, 0x3EDA3F60, 0x3EE2C97D,
   0x3EEB3A9F, 0x3EF39355, 0x3EFBD42B, 0x3F01FED4, 0x3F060828, 0x3F0A0650, 0x3F0DF989, 0x3F11E20F]

/-- LT[i], entries 32 to 63. -/
def tabLTHigh : List Nat :=
  [0x3F15C01A, 0x3F1993E3, 0x3F1D5DA0, 0x3F211D84, 0x3F24D3C2, 0x3F28808C, 0x3F2C2411, 0x3F2FBE80,
   0x3F335004, 0x3F36D8CB, 0x3F3A58FF, 0x3F3DD0C8, 0x3F41404F, 0x3F44A7BA, 0x3F480731, 0x3F4B5ED7,
   0x3F4EAED0, 0x3F51F740, 0x3F553848, 0x3F587209, 0x3F5BA4A4, 0x3F5ED039, 0x3F61F4E5, 0x3F6512C7,
   0x3F6829FB, 0x3F6B3A9F, 0x3F6E44CD, 0x3F7148A1, 0x3F744636, 0x3F773DA4, 0x3F7A2F04, 0x3F7D1A71]

/-- LT[i] (R83). -/
def tabLT (i : Nat) : Dy := dyOf ((tabLTLow ++ tabLTHigh).getD i 0)

/-- RC[i] = Round(1 / (1 + (2i + 1)/256)) (R84). -/
def tabRC (i : Nat) : Dy := dyOf (Fmt.f32.round .rne false (quotient false 256 0 (257 + 2 * i) 0 64))

/-- RQ[64b + j] = Round(1 / sqrt((1 + b) * (1 + (2j + 1)/128))) (R85): with N = (1 + b) * (129 + 2j) it is
sqrt(128 / N), never exact, since N has an odd factor. -/
def tabRQ (b j : Nat) : Dy :=
  dyOf (Fmt.f32.round .rne false ⟨false, isqrtFrom (128 * 2 ^ 80 / ((1 + b) * (129 + 2 * j))) 44 0, -40, true⟩)

/-- The coefficients of R81. -/
def coC1 : Dy := dyOf 0x3F317218
def coC2 : Dy := dyOf 0x3E75FDF0
def coC3 : Dy := dyOf 0x3D635847
def coK1 : Dy := dyOf 0x3FB8AA3B
def coK2 : Dy := dyOf 0xBF38AA3B
def coK3 : Dy := dyOf 0x3EF6384F

/-- x * 64 rounded to the nearest integer, ties to even. -/
def nearest64 (x : Dy) : Int := (Exact.ofInt x.m (x.e + 6)).roundInt .rne

/-- Exp2 of a finite x (R82). -/
def exp2Fin (x : Dy) : Nat :=
  if 0 ≤ (x.add (Dy.ofInt (-128))).m then Fmt.f32.inf
  else if (x.add (Dy.ofInt 160)).m ≤ 0 then 0
  else
    let j := nearest64 x
    let i := (j % 64).toNat
    let f := (x.add ⟨-j, -6⟩).step
    let p := ((coC3.mul f).add coC2).step
    let p := ((p.mul f).add coC1).step
    let p := (p.mul f).step
    let y := ((tabT i).add ((tabT i).mul p)).step
    dyBits (y.scale ((j - i) / 64))

/-- Exp2 with its special inputs (R80, R82). -/
def exp2Bits (p : Nat) : Nat :=
  match Fmt.f32.decode p with
  | .nan => Fmt.f32.nan
  | .inf s => if s then 0 else Fmt.f32.inf
  | .fin _ _ _ => exp2Fin (dyOf p)

/-- Exp (R82): Exp2 of the rounded product with LOG2E. -/
def expBits (p : Nat) : Nat :=
  match Fmt.f32.decode p with
  | .nan => Fmt.f32.nan
  | .inf s => if s then 0 else Fmt.f32.inf
  | .fin _ _ _ => exp2Bits (dyBits ((dyOf p).mul coK1))

/-- A positive value as 2^e * m with 1 ≤ m < 2 (R80): e, m, and m's 23 fraction bits. -/
def normalised (n : Nat) (e : Int) : Int × Dy × Nat :=
  let l := Nat.log2 n
  (e + l, ⟨n, -(l : Int)⟩, n * 2 ^ (23 - l) - 2 ^ 23)

/-- The floor of (m - 1) * 2^k (R80). -/
def topBits (frac k : Nat) : Nat := frac / 2 ^ (23 - k)

/-- Log2 (R80, R83). -/
def log2Bits (p : Nat) : Nat :=
  match Fmt.f32.decode p with
  | .nan => Fmt.f32.nan
  | .inf s => if s then Fmt.f32.nan else Fmt.f32.inf
  | .fin s n e =>
    if n = 0 then Fmt.f32.infOf true
    else if s then Fmt.f32.nan
    else
      let (ex, m, fr) := normalised n e
      let i := topBits fr 6
      let z := ((m.mul (tabLI i)).add (Dy.ofInt (-1))).step
      let q := ((coK3.mul z).add coK2).step
      let q := ((q.mul z).add coK1).step
      let q := (q.mul z).step
      let t := ((tabLT i).add q).step
      dyBits ((Dy.ofInt ex).add t)

/-- One step of Rcp (R84). -/
def rcpStep (m y : Dy) : Dy :=
  let d := ((Dy.ofInt 1).add (m.mul y).neg).step
  (y.add (y.mul d)).step

/-- Rcp (R80, R84). -/
def rcpBits (p : Nat) : Nat :=
  match Fmt.f32.decode p with
  | .nan => Fmt.f32.nan
  | .inf s => Fmt.f32.signed s 0
  | .fin s n e =>
    if n = 0 then Fmt.f32.infOf s
    else
      let (ex, m, fr) := normalised n e
      let y := rcpStep m (rcpStep m (tabRC (topBits fr 7)))
      Fmt.f32.signed s (dyBits (y.scale (-ex)))

/-- One step of Rsqrt (R85). -/
def rsqrtStep (w y : Dy) : Dy :=
  let q := (y.mul y).step
  let d := ((Dy.ofInt 1).add (w.mul q).neg).step
  (y.add ((y.scale (-1)).mul d)).step

/-- Rsqrt (R80, R85). -/
def rsqrtBits (p : Nat) : Nat :=
  match Fmt.f32.decode p with
  | .nan => Fmt.f32.nan
  | .inf s => if s then Fmt.f32.nan else 0
  | .fin s n e =>
    if n = 0 then Fmt.f32.infOf s
    else if s then Fmt.f32.nan
    else
      let (ex, m, fr) := normalised n e
      let b := (ex % 2).toNat
      let w := m.mul (Dy.ofInt (1 + b))
      let y := rsqrtStep w (rsqrtStep w (tabRQ b (topBits fr 6)))
      dyBits (y.scale (-((ex - b) / 2)))

/-- A published function on a BF16 element (R80): through FP32, rounded once to BF16. -/
def viaF32 (g : Nat → Nat) (p : Nat) : Nat := Fmt.f32.convert .bf16 .rne false (g (Fmt.bf16.convert .f32 .rne false p))

end Sys2Proof.Machine
end

