-- ==== Sys2Proof/Machine/Flags.lean ====
section
/-! DEFINITION. Conditions and skips (spec 03 R34; 05 R92, R103, R104), and the classes of FCLASS (R111).
The machine has no flags register: a compare annuls what follows it. -/

namespace Sys2Proof.Machine

/-- The integer condition of an OP field on patterns of a width: bit 4 selects unsigned (R34). -/
def condInt (op : BitVec 5) {w : Nat} (x y : BitVec w) : Bool :=
  let u := op.getLsbD 4
  let lt := if u then x.ult y else x.slt y
  match op.toNat % 8 with
  | 0 => x == y
  | 1 => x != y
  | 2 => lt
  | 3 => lt || x == y
  | 4 => !(lt || x == y)
  | 5 => !lt
  | 6 => x &&& y != 0
  | _ => x &&& y == 0

/-- The float condition of an OP field on patterns of a format (R34, R69). -/
def condFloat (op : BitVec 5) (f : Fmt) (x y : Nat) : Bool :=
  let c := f.cmp x y
  match op.toNat % 8 with
  | 0 => c == some .eq
  | 1 => c != some .eq
  | 2 => c == some .lt
  | 3 => c == some .lt || c == some .eq
  | 4 => c == some .gt
  | 5 => c == some .gt || c == some .eq
  | 6 => c == none
  | _ => c != none

/-- A compare's effect: a false condition annuls the next k instructions (R92, R103). -/
def State.skipUnless (cond : Bool) (k : BitVec 2) (s : State) : State :=
  if cond then s else s.modMe fun st => { st with annul := k.toNat }

/-- FCLASS (R111): a mask with one bit set. -/
def classOf (p : Nat) : Nat :=
  match Fmt.f32.decode p with
  | .nan => 2 ^ 8
  | .inf s => if s then 1 else 2 ^ 7
  | .fin s n _ =>
    if n = 0 then (if s then 2 ^ 3 else 2 ^ 4)
    else if n < 2 ^ 23 then (if s then 2 ^ 2 else 2 ^ 5)
    else (if s then 2 ^ 1 else 2 ^ 6)

end Sys2Proof.Machine
end

