-- ==== Sys2Proof/Machine/Branch.lean ====
section
/-! DEFINITION. Branches, calls, hardware loops, YIELD, and the two words that trap (spec 05_issue R95, R105-R109;
03_encoding R49, R50; 23_system R393). -/

namespace Sys2Proof.Machine

/-- The link register lk (R96). -/
def lk : Reg := 30

/-- The target of a format B word (R33). -/
def branchTarget (pc : Word) (off : BitVec 22) : Word := pc + 4 * off.signExtend 64

/-- A register target whose bits [1:0] are not 00 traps (R52, R106). -/
def misaligned (r : Reg) (s : State) : Option Nat :=
  if (s.sval r).extractLsb' 0 2 = 0 then none else some causeMisaligned

/-- B (R105). -/
def execB (off : BitVec 22) (s : State) : Host.Outcome State Fault Refusal :=
  .next (s.jump (branchTarget s.me.pc off))

/-- BL (R105): waits for lk. -/
def execBl (off : BitVec 22) (s : State) : Host.Outcome State Fault Refusal :=
  .next (s.issue 0 [] [.s lk false] noTrap fun o s =>
    (s.putS lk (o.me.next 1)).jump (branchTarget o.me.pc off))

/-- BR (R106). -/
def execBr (f : RF) (s : State) : Host.Outcome State Fault Refusal :=
  .next (s.issue 0 [.s f.a f.ta] [] (misaligned f.a) fun o s => s.jump (o.sval f.a))

/-- BLR (R106): `blr lk` reads the old lk. -/
def execBlr (f : RF) (s : State) : Host.Outcome State Fault Refusal :=
  .next (s.issue 0 [.s f.a f.ta] [.s lk false] (misaligned f.a) fun o s =>
    (s.putS lk (o.me.next 1)).jump (o.sval f.a))

/-- RET (R106). -/
def execRet (s : State) : Host.Outcome State Fault Refusal :=
  .next (s.issue 0 [.s lk false] [] (misaligned lk) fun o s => s.jump (o.sval lk))

/-- LOOP (R107): a count of 0 skips the body and applies the loop-back test at its end. -/
def execLoop (f : RF) (x : Ext) (s : State) : Host.Outcome State Fault Refusal :=
  .next (s.issue 0 [.s f.a f.ta] []
    (fun s => if s.sval f.a ≠ 0 ∧ 2 ≤ s.me.loops.length then some causeLoopDepth else none)
    fun o s =>
      let start := o.me.next 3
      let stop := start + BitVec.ofNat 64 (4 * x.immA)
      if o.sval f.a = 0 then s.countIssue.modMe fun st => st.goNext stop
      else (s.modMe fun st => { st with loops := ⟨o.sval f.a, start, stop⟩ :: st.loops }).jump start)

/-- LBRK (R109). -/
def execLbrk (s : State) : Host.Outcome State Fault Refusal :=
  .next (match s.me.loops with
    | [] => s.trap causeNoLoop 0
    | l :: rest => s.countIssue.modMe fun st => { st with loops := rest }.goNext l.stop)

/-- YIELD (R95): it issues, and the strand is not ready in the 16 cycles that follow; it stands in the instruction until then,
since a pre-emption abandons it (R364). -/
def execYield (s : State) : Host.Outcome State Fault Refusal :=
  .next ((s.countIssue.modMe fun st => { st with yielding := true }).post 16 (.yieldEnd s.cur))

/-- The end of a YIELD's 16 cycles: the strand goes on at Next (R95). -/
def execYieldEnd (sid : SId) (s : State) : Host.Outcome State Fault Refusal :=
  .next (s.modStrand sid fun st => if st.yielding then { st with yielding := false }.goNext (st.next 1) else st)

/-- The all-zero word (R49 order 1, R50). -/
def execZeroWord (s : State) : Host.Outcome State Fault Refusal := .next (s.trap causeZeroWord 0)

/-- Debug is enabled for the running job: in owner-debug if it was launched with DBG, in vendor-debug whatever the job
(R390). -/
def State.debugOn (s : State) : Bool :=
  match s.job? (s.pidOf s.cur) with
  | some j => s.bar.dbg == 2 || (s.bar.dbg == 1 && j.dbg)
  | none => false

/-- The all-ones word: BREAK, which resumes at Next (R350), if debug is enabled for the running job; Illegal Instruction
otherwise (R49 order 2, R50). -/
def execBreakWord (s : State) : Host.Outcome State Fault Refusal :=
  .next (if s.debugOn then s.trapAt causeBreak 0 (s.me.next 1) else s.trap causeIllegal 0)

end Sys2Proof.Machine
end

