-- ==== Sys2Proof/Machine/Bank.lean ====
section
/-! DEFINITION. What a write wakes (R93, R199-R201), and the slot store's bytes, granules and bank code (spec 07 R141-R146,
R151-R153). -/

namespace Sys2Proof.Machine

/-! ### Waking (R93, R201) -/

/-- Two runs of bytes meet. -/
def meets (a n b m : Nat) : Bool := a < b + m && b < a + n

/-- Requests parked at an NMU on some of `n` bytes of device memory at `a`, oldest first (R199, R201). -/
def State.parkedOn (s : State) (p : ReqKind → Bool) (a n : Nat) : List Nat :=
  let hits := s.reqs.flatMap fun r => (r.elems.filter fun e =>
    p r.kind && e.phase == .parked && !e.host && r.space != 3 && meets a n e.pa e.size).map fun e => (e.stamp, r.id)
  (sortBy (fun x y => decide (x.1 ≤ y.1)) hits).map (·.2)

/-- Lock forms, and sync-word forms. -/
def ReqKind.isLock : ReqKind → Bool
  | .lock _ _ => true
  | _ => false
def ReqKind.isSync : ReqKind → Bool
  | .ldsync | .stsync => true
  | _ => false

/-- A write to `n` bytes at `a` of a memory (0 device, 1 host, 2 + core the slot store of a core) has become visible: strands
that spin on one of the bytes become ready (R93); locks, sync words and WAITNEs parked on them look again (R199, R201). -/
def State.wrote (s : State) (space a n : Nat) : State :=
  let spinners := s.cores.flatMap fun c => (List.range 17).filterMap fun p =>
    match (c.strand p).spin with
    | some w => if w.watch.any fun (sp, b, m) => sp == space && meets a n b m then some (⟨c.id, p⟩ : SId) else none
    | none => none
  let s := spinners.foldl (fun s sid => s.post 0 (.spinWake sid)) s
  if space ≠ 0 then s
  else
    let s := (s.parkedOn (· == .waitne) a n).foldl (fun s id => s.post 0 (.waitneWake id)) s
    let s := (s.parkedOn ReqKind.isLock a n).foldl (fun s id => s.post 0 (.lockAttempt id)) s
    (s.parkedOn ReqKind.isSync a n).foldl (fun s id => s.post 0 (.syncAttempt id)) s

/-- An untranslated write of device memory, visible to those who watch its bytes (R13, R93, R201). -/
def State.physStore (s : State) (a : Nat) (bs : List Byte) : State := (s.physWrite a bs).wrote 0 a bs.length

/-! ### The bank code (R151-R153) -/

/-- Banks whose symbols every read rebuilds: those that SLOT_ERASED names, from the write on (R152). -/
def Core.rebuilt (c : Core) : BitVec 34 := c.slotErased

/-- The wrong symbols of a codeword in banks that are not rebuilt. -/
def Core.wrongBanks (c : Core) (row word : Nat) : List Nat :=
  ((c.slotErrors.filter fun e => e.row == row && e.word == word && !c.rebuilt.getLsbD e.bank).map (·.bank)).eraseDups

/-- Number of banks rebuilt. -/
def Core.rebuiltCount (c : Core) : Nat := ((List.range 34).filter c.rebuilt.getLsbD).length

/-- A codeword cannot be corrected (R151). -/
def Core.wordBad (c : Core) (row word : Nat) : Bool :=
  let n := (c.wrongBanks row word).length
  if c.rebuiltCount = 0 then 2 ≤ n else c.rebuiltCount ≤ 2 && 1 ≤ n || 2 < c.rebuiltCount

/-- A row has a codeword that cannot be corrected, so that it fails its row check (R151). -/
def Core.rowBad (c : Core) (row : Nat) : Bool := (List.range 32).any fun j => c.wordBad row j

/-- The rows that an access touches. -/
def rowsTouched (a n : Nat) : List Nat := List.range' (a / 1024) ((a + n - 1) / 1024 + 1 - a / 1024)

/-- An access to the slot store meets an uncorrectable error (R153). -/
def Core.slotBad (c : Core) (a n : Nat) : Bool := (rowsTouched a n).any c.rowBad

/-- The corrected symbols of an access that can be corrected: slot and bank (R151, R153). -/
def Core.corrections (c : Core) (a n : Nat) : List (Nat × Nat) :=
  (rowsTouched a n).flatMap fun row => (List.range 32).flatMap fun j =>
    if (List.range n).any (fun i => (a + i) / 1024 == row && (a + i) % 32 == j) then
      (c.wrongBanks row j).map fun b => (row / 16, b)
    else []

/-- INFO of a slot-store message: bank, slot and unit 0 (R359). -/
def bankInfo (slot bank : Nat) : Word := BitVec.ofNat 64 (bank % 64 + slot % 256 * 2 ^ 8)

/-- Sends the corrected records of an access to the mailbox of the core's die (R153, R358, R359). -/
def State.reportCorrected (s : State) (core a n : Nat) : State :=
  ((s.core core).corrections a n).foldl (fun s (slot, bank) =>
    s.mail (dieOf core) ⟨mailWord 4 0 core 0 0 0 0, 0, bankInfo slot bank, 0⟩) s

/-- Sends the corrected records of the granules that an engine has read, by their addresses (R153). -/
def State.reportRead (s : State) (core : Nat) (gs : List Nat) : State :=
  if (s.core core).slotErrors.isEmpty then s else gs.foldl (fun (s : State) a => s.reportCorrected core a 16) s

/-- Sends the uncorrected record of an access (R153). -/
def State.reportUncorrected (s : State) (core a : Nat) : State :=
  s.mail (dieOf core) ⟨mailWord 5 0 core 0 0 0 0, 0, bankInfo (a / 16384) 0, 0⟩

/-! ### Bytes and granules (R141-R145) -/

/-- The first granule and the number of granules that an access covers, numbered through the store (R144). -/
def granulesOf (a n : Nat) : Nat × Nat := (a / 16, (a + n - 1) / 16 + 1 - a / 16)

/-- Some granule that the access covers is empty. -/
def Core.someEmpty (c : Core) (a n : Nat) : Bool := let (g, k) := granulesOf a n; anyIn g k c.empty

/-- The codewords that a write touches, with row and word. -/
def codewordsOf (a : Nat) (on : List Bool) : List (Nat × Nat) :=
  (on.zipIdx.filterMap fun p => if p.1 then some ((a + p.2) / 1024, (a + p.2) % 32) else none).eraseDups

/-- The symbols that a write leaves wrong: it computes both check symbols and writes every bank that is not erased, so an erased bank keeps
its old symbol wherever the new one differs (R151, R152; log 19). -/
def Core.errorsAfter (c : Core) (a : Nat) (bytes : List Byte) (on : List Bool) : List SlotError :=
  if c.slotErrors.isEmpty && c.slotErased = 0 then []
  else
    let words := codewordsOf a on
    let kept := c.slotErrors.filter fun e =>
      let at_ := 1024 * e.row + 32 * e.bank + e.word
      c.slotErased.getLsbD e.bank ||
        !(if e.bank < 32 then a ≤ at_ && at_ < a + bytes.length && on.getD (at_ - a) false else words.contains (e.row, e.word))
    let old := c.slots.readBytes a bytes.length
    let changed := ((bytes.zip old).zip on).zipIdx.filterMap fun p => if p.1.2 && p.1.1.1 != p.1.1.2 then some (a + p.2) else none
    let stale := changed.flatMap fun x =>
      ((x / 32 % 32) :: [32, 33]).filterMap fun bank =>
        if c.slotErased.getLsbD bank then some (⟨x / 1024, x % 32, bank⟩ : SlotError) else none
    (kept ++ stale).eraseDups

/-- Writes bytes of a core's slot store and sets granules full, in one action (R144, R151). -/
def State.slotWrite (s : State) (core a : Nat) (bytes : List Byte) (on : List Bool) (full : List Nat) : State :=
  let s := s.modCore core fun c =>
    { c with
      slots := c.slots.writeMasked a bytes on
      empty := c.empty.filter fun g => !full.contains g
      slotErrors := c.errorsAfter a bytes on }
  s.wrote (2 + core) a bytes.length

/-- A write that sets every granule it touches full (R144): a strand's ST, an engine's granules, remote stores. -/
def State.slotStore (s : State) (core a : Nat) (bytes : List Byte) : State :=
  let (g, k) := granulesOf a bytes.length
  s.slotWrite core a bytes (List.replicate bytes.length true) (List.range' g k)

/-- The job placed on a core: that of its crews (R119, R142). -/
def Core.job (c : Core) : Option Nat := (c.crews.find? fun w => !w.gone).map (·.pid)

/-- The Hasp strand of a core runs a job other than the one placed there (R142, R159). -/
def State.haspForeign (s : State) : Bool := s.isHasp && s.myCore.job != some (s.pidOf s.cur)

/-- CheckSlot's first part (R142, R400): whether the running strand may not name a slot. -/
def State.slotReserved (s : State) (slot : Nat) : Bool :=
  if s.isSup then true
  else if s.me.priv then false
  else if s.isHasp then (248 ≤ slot && slot ≤ 251) || (slot ≤ 247 && s.haspForeign)
  else 248 ≤ slot

/-- CheckSlot (R142, R143): `align` is the multiple the offset must be. -/
def State.checkSlot (s : State) (slot off n align : Nat) : Option Nat :=
  if s.slotReserved slot then some causeSlotReserved
  else if off % align ≠ 0 || 16384 < off + n then some causeSlotAddress
  else none

/-- The slot holds the entries of a chain (R209). -/
def Core.storageSlot (c : Core) (slot : Nat) : Bool :=
  c.chain7.storage.contains slot || c.crews.any fun w => w.chains.toList.any fun ch => ch.storage.contains slot

/-- The bytes that a strand reads of a slot: free values where the slot holds a chain's storage (R209; log 7). -/
def State.slotBytes (s : State) (core a n : Nat) : List Byte × State :=
  if (s.core core).storageSlot (a / 16384) then
    let (x, s) := s.fresh
    (bytesOfNat n x, s)
  else ((s.core core).slots.readBytes a n, s)

/-- The free and the storage slots of a core (R154): a slot that is bound, or holds chain chunks, is busy. -/
def Core.slotBusy (c : Core) (slot : Nat) : Bool :=
  c.keys.any (fun k => k.slot == slot) || c.storageSlot slot

/-- Slots charged to a crew: its bindings and its chain chunks (R128, R156). -/
def Core.charged (c : Core) (w : Crew) : Nat :=
  (c.keys.filter fun k => k.binder == some w.task).length + (w.chains.toList.map fun ch => ch.storage.length).sum

/-- Slots charged to the running strand's crew (R156). -/
def State.myCharge (s : State) : Nat := if s.isHasp then 0 else s.myCore.charged s.myCrew

/-- An instruction of a feature that the driver did not accept is an Illegal Instruction (R49 order 9, R386). -/
def State.gated (n : Nat) (k : State → State) (s : State) : State :=
  if s.feature n then k s else s.trap causeIllegal 0

/-- A privileged instruction traps in user mode (R49 order 10, R61 Priv). -/
def State.privileged (k : State → State) (s : State) : State :=
  if s.me.priv then k s else s.trap causePrivileged 0

end Sys2Proof.Machine
end

