-- ==== Sys2Proof/Machine/Tumbler.lean ====
section
/-! DEFINITION. The Tumbler: free amounts, the test for safe states, grants and the re-examination of waiting requests
(spec 06 R119, R120, R125-R127; 10 R209). -/

namespace Sys2Proof.Machine

def Res.add (x y : Res) : Res := ⟨x.rq + y.rq, x.sl + y.sl, x.ac + y.ac⟩
/-- The difference, 0 where it would be negative. -/
def Res.sub (x y : Res) : Res := ⟨x.rq - y.rq, x.sl - y.sl, x.ac - y.ac⟩
/-- Vector comparison holds in every component (R125). -/
def Res.le (x y : Res) : Bool := x.rq ≤ y.rq && x.sl ≤ y.sl && x.ac ≤ y.ac
/-- Each component's minimum and maximum. -/
def Res.min (x y : Res) : Res := ⟨Nat.min x.rq y.rq, Nat.min x.sl y.sl, Nat.min x.ac y.ac⟩

/-- The amount of one resource: 0 .rq, 1 .sl, 2 .ac (R47). -/
def Res.amount (x : Res) (r : Nat) : Nat := if r = 0 then x.rq else if r = 1 then x.sl else x.ac
/-- An amount of one resource alone. -/
def resOf (r n : Nat) : Res := if r = 0 then ⟨n, 0, 0⟩ else if r = 1 then ⟨0, n, 0⟩ else ⟨0, 0, n⟩

/-- Orphaned entries of the local map: charged to the core's pool (R130). -/
def Core.orphans (c : Core) : Nat := (c.keys.filter fun k => k.binder.isNone).length

/-- Free amounts of a core (R119): the pools less what crews hold, orphaned entries and chain 7's storage. -/
def Core.free (c : Core) : Res :=
  (c.crews.foldl (fun (f : Res) w => f.sub w.hold) ⟨252, 248, 8⟩).sub ⟨0, c.orphans + c.chain7.storage.length, 0⟩

/-- Accumulator slots that some crew holds. -/
def Core.acHeld (c : Core) : BitVec 8 := c.crews.foldl (fun m w => m ||| w.acMask) 0

/-- The lowest `n` free accumulator slots as a mask (R127). -/
def Core.acLowest (c : Core) (n : Nat) : BitVec 8 :=
  (((List.range 8).filter fun i => !c.acHeld.getLsbD i).take n).foldl (fun m i => m ||| (1#8 <<< i)) 0

/-- A crew in the test: what it still needs and what it returns. -/
structure Need3 where
  need : Res
  back : Res
deriving DecidableEq, Repr

/-- A crew as the test sees it: orphaned(c) counts the bindings that would stay (R125, R130). -/
def Core.need3 (c : Core) (w : Crew) : Need3 :=
  let orph := (c.keys.filter fun k => k.binder == some w.task && k.pin != 0).length
  ⟨w.claim.sub w.hold, w.hold.sub ⟨0, orph, 0⟩⟩

/-- The crews placed on the core, those parked resident included; a pre-empted crew's slots count as taken (R125, R367). -/
def Core.placedCrews (c : Core) : List Crew := c.crews.filter fun w => !w.pos.isEmpty

/-- Safe of R125: picks crews that can finish, `fuel` times. -/
def safeFrom : Nat → Res → List Need3 → Bool
  | _, _, [] => true
  | 0, _, _ => false
  | fuel + 1, free, left =>
    match left.find? fun w => w.need.le free with
    | none => false
    | some w => safeFrom fuel (free.add w.back) (left.erase w)

/-- The state in which `grow` more belongs to the crew `who` (none for a request by no crew) is safe (R125). -/
def Core.safeWith (c : Core) (who : Option Nat) (grow : Res) : Bool :=
  let left := c.placedCrews.map fun w =>
    let w := if some w.task == who then { w with hold := w.hold.add grow } else w
    c.need3 w
  safeFrom left.length (c.free.sub grow) left

/-- A request is granted: the amount is free and the state after it is safe (R125). -/
def Core.grantable (c : Core) (who : Option Nat) (grow : Res) : Bool := grow.le c.free && c.safeWith who grow

/-- A fresh accumulator slot (R74, R220). -/
def AccSlot.zero : AccSlot := {}

/-- Resets the accumulator slots of a mask (R220). -/
def Core.zeroSlots (c : Core) (mask : BitVec 8) : Core :=
  { c with acs := c.acs.mapFinIdx fun i a _ => if mask.getLsbD i then AccSlot.zero else a }

/-- The result word of ACQ (R127). -/
def acqResult (w : Crew) (r status low : Nat) : Word :=
  BitVec.ofNat 64 (status * 2 ^ 56 + (if r = 2 then low + w.acMask.toNat * 2 ^ 8 else low))

/-- Grants an amount to a crew: its result and the core after it (R122, R127). -/
def Core.grant (c : Core) (o : Owner) (r n : Nat) : Word × Core :=
  let w := c.owned o
  let mask := if r = 2 then c.acLowest n else 0
  let w' := { w with hold := w.hold.add (resOf r n), acMask := w.acMask ||| mask }
  let low := if r = 0 then w.hold.rq else if r = 1 then w'.hold.sl else mask.toNat
  (acqResult w' r 0 low, (c.setOwned o w').zeroSlots mask)

/-- The instance has no place for another entry: no storage slot, or the newest holds 256 (R209). -/
def Chain.full (ch : Chain) : Bool := ch.storage.isEmpty || 256 ≤ ch.used

/-- Looks at one waiting request (R126, R209): a safe one is granted and its strand is ready in the next cycle. -/
def Core.examine (c : Core) (q : AcqWait) : Core :=
  let put := fun (c : Core) (x : Word) =>
    let st := c.strand q.sid.pos
    let c := c.setStrand q.sid.pos { st with wait := if st.wait = some (.acq q.serial) then some .poll else st.wait }
    { c with acqs := updateFirst (fun a => a.serial == q.serial) (fun a => { a with granted := some x }) c.acqs }
  if q.granted.isSome then c
  else match q.res, c.ownerAt q.sid.pos with
    | some r, .crew t =>
      if c.grantable (some t) (resOf r q.amount) then
        let (x, c) := c.grant (.crew t) r q.amount
        put c x
      else c
    | none, _ =>
      if !c.chain7.full then put c 0
      else if c.grantable none (resOf 1 1) then
        match firstBelow 248 fun i => !c.slotBusy i with
        | some slot => put { c with chain7 := { c.chain7 with storage := c.chain7.storage ++ [slot], used := 0 } } 0
        | none => c
      else c
    | _, _ => c

/-- The Tumbler re-examines every waiting request of the core, oldest first (R126). -/
def State.tumble (s : State) (core : Nat) : State := s.modCore core fun c => c.acqs.foldl Core.examine c

end Sys2Proof.Machine
end

