-- ==== Sys2Proof/Machine/Entries.lean ====
section
/-! DEFINITION. Chain instances and the entries appended to them: fields and static checks (spec 10 R203-R213, R215;
11 R221, R222; 18 R332). -/

namespace Sys2Proof.Machine

/-! ### Instances (R203, R205) -/

/-- The instance of a chain that an owner's forms name: chain 7 is the core's (R205). -/
def Core.chain (c : Core) (o : Owner) (ch : Nat) : Chain :=
  if ch = 7 then c.chain7 else (c.owned o).chains[ch]?.getD {}

/-- Replaces an instance. -/
def Core.setChain (c : Core) (o : Owner) (ch : Nat) (x : Chain) : Core :=
  if ch = 7 then { c with chain7 := x }
  else
    let w := c.owned o
    c.setOwned o { w with chains := w.chains.setIfInBounds ch x }

/-- Changes an instance of a core of the machine. -/
def State.modChain (s : State) (core : Nat) (o : Owner) (ch : Nat) (f : Chain → Chain) : State :=
  s.modCore core fun c => c.setChain o ch (f (c.chain o ch))

/-- (S - n) mod 2^32 < 2^31: ticket n is not ahead of the count (R206, R208, R210). -/
def passed (count : BitVec 32) (n : Nat) : Bool := (count - BitVec.ofNat 32 n).toNat < 2 ^ 31

/-- The bytes of an entry: until it starts, those that stand in its storage; then those that its engine read (R209). -/
def Core.entryBytes (c : Core) (e : Entry) : List Byte :=
  match e.addr with
  | some a => if e.stage = 0 then c.slots.readBytes a 64 else e.bytes
  | none => e.bytes

/-- Changes the entry of a ticket. -/
def Chain.modEntry (ch : Chain) (ticket : Nat) (f : Entry → Entry) : Chain :=
  { ch with entries := updateFirst (fun e => e.ticket == ticket) f ch.entries }

/-- The entry of a ticket. -/
def Chain.entry (ch : Chain) (ticket : Nat) : Option Entry := ch.entries.find? fun e => e.ticket == ticket

/-- The entry of a reference. -/
def State.entry? (s : State) (e : EntryRef) : Option Entry := ((s.core e.core).chain e.owner e.chain).entry e.ticket

/-- Changes the entry of a reference. -/
def State.modEntry (s : State) (e : EntryRef) (f : Entry → Entry) : State :=
  s.modChain e.core e.owner e.chain fun ch => ch.modEntry e.ticket f

/-! ### Fields (R207, R213, R215, R221, R332) -/

def enKind (b : List Byte) : Nat := field (dwordOf b 0) 0 8
def enFlags (b : List Byte) : Nat := field (dwordOf b 0) 16 8
def enWen (b : List Byte) : Bool := bit (dwordOf b 0) 28
def enWchain (b : List Byte) : Nat := field (dwordOf b 0) 29 3
def enWseq (b : List Byte) : Nat := field (dwordOf b 0) 32 32

/-- Copy entry (R213). -/
def cpEf (b : List Byte) : Bool := bit (enFlags b) 0
def cpDir (b : List Byte) : Nat := field (enFlags b) 1 2
def cpHandle (b : List Byte) : Nat := field (dwordOf b 1) 0 16
def cpSlot (b : List Byte) : Nat := field (dwordOf b 1) 16 8
def cpSlot2 (b : List Byte) : Nat := field (dwordOf b 1) 24 8
def cpSoff (b : List Byte) : Nat := field (dwordOf b 1) 32 14
def cpSoff2 (b : List Byte) : Nat := field (dwordOf b 1) 46 14
def cpN0 (b : List Byte) : Nat := field (dwordOf b 2) 0 16
def cpN1 (b : List Byte) : Nat := field (dwordOf b 2) 16 16
def cpRp (b : List Byte) : Nat := field (dwordOf b 2) 32 14
def cpK (b : List Byte) : List Nat := [dwordOf b 3, dwordOf b 4, dwordOf b 5, dwordOf b 6]

/-- Indexed gather entry (R215). -/
def gaHandle (b : List Byte) : Nat := field (dwordOf b 1) 0 16
def gaIslot (b : List Byte) : Nat := field (dwordOf b 1) 16 8
def gaDslot (b : List Byte) : Nat := field (dwordOf b 1) 24 8
def gaIoff (b : List Byte) : Nat := field (dwordOf b 1) 32 14
def gaDoff (b : List Byte) : Nat := field (dwordOf b 1) 46 14
def gaCount (b : List Byte) : Nat := field (dwordOf b 2) 0 16
def gaN0 (b : List Byte) : Nat := field (dwordOf b 2) 16 16
def gaRp (b : List Byte) : Nat := field (dwordOf b 2) 32 14
def gaK (b : List Byte) : List Nat := [dwordOf b 3, dwordOf b 4, dwordOf b 5]

/-- Tile-task record (R221). -/
def tkClr (b : List Byte) : Bool := bit (enFlags b) 0
def tkRbe (b : List Byte) : Bool := bit (enFlags b) 1
def tkSae (b : List Byte) : Bool := bit (enFlags b) 2
def tkSbe (b : List Byte) : Bool := bit (enFlags b) 3
def tkD2en (b : List Byte) : Bool := bit (enFlags b) 4
def tkNok (b : List Byte) : Bool := bit (enFlags b) 5
def tkAidx (b : List Byte) : Nat := field (dwordOf b 1) 0 16
def tkAg (b : List Byte) : Nat := field (dwordOf b 1) 16 16
def tkMoff (b : List Byte) : Nat := field (dwordOf b 1) 32 16
def tkAcc (b : List Byte) : Nat := field (dwordOf b 1) 48 3
def tkNg (b : List Byte) : Nat := field (dwordOf b 1) 51 4 + 1
def tkAfmt (b : List Byte) : Nat := field (dwordOf b 1) 55 2
def tkBfmt (b : List Byte) : Nat := field (dwordOf b 1) 57 2
def tkBswz (b : List Byte) : Nat := field (dwordOf b 1) 59 5
def tkBsl (b : List Byte) (i : Nat) : Nat := (b.getD (16 + i) 0).toNat
def tkSaSlot (b : List Byte) : Nat := field (dwordOf b 4) 0 8
def tkSaOff (b : List Byte) : Nat := field (dwordOf b 4) 8 14
def tkSbSlot (b : List Byte) : Nat := field (dwordOf b 4) 22 8
def tkSbOff (b : List Byte) : Nat := field (dwordOf b 4) 30 14
def tkDm (b : List Byte) : Nat := field (dwordOf b 5) 0 2
def tkOfmt (b : List Byte) : Nat := field (dwordOf b 5) 2 2
def tkSat (b : List Byte) : Bool := bit (dwordOf b 5) 4
def tkOef (b : List Byte) : Bool := bit (dwordOf b 5) 5
def tkOslot (b : List Byte) : Nat := field (dwordOf b 5) 6 8
def tkCacc (b : List Byte) : Nat := field (dwordOf b 5) 14 3
def tkCen (b : List Byte) : Bool := bit (dwordOf b 5) 17
def tkCausal (b : List Byte) : Bool := bit (dwordOf b 5) 18
def tkWin (b : List Byte) : Bool := bit (dwordOf b 5) 19
def tkQstep (b : List Byte) : Nat := field (dwordOf b 5) 20 1
def tkD2chain (b : List Byte) : Nat := field (dwordOf b 5) 21 3
def tkQpos (b : List Byte) : Nat := field (dwordOf b 6) 0 32
def tkKpos (b : List Byte) : Nat := field (dwordOf b 6) 32 32
def tkWstart (b : List Byte) : Nat := field (dwordOf b 7) 0 32
def tkD2seq (b : List Byte) : Nat := field (dwordOf b 7) 32 32
/-- Both operands are BF16. -/
def tkBf16 (b : List Byte) : Bool := tkAfmt b == 2

/-- Bulk reduction entry (R332). -/
def brEf (b : List Byte) : Bool := bit (enFlags b) 0
def brBf16 (b : List Byte) : Bool := bit (enFlags b) 1
def brSslot (b : List Byte) : Nat := field (dwordOf b 1) 0 8
def brSoff (b : List Byte) : Nat := field (dwordOf b 1) 8 14
def brDslot (b : List Byte) : Nat := field (dwordOf b 1) 22 8
def brDoff (b : List Byte) : Nat := field (dwordOf b 1) 30 14
def brNv (b : List Byte) : Nat := field (dwordOf b 1) 44 5 + 1
def brMemb (b : List Byte) : Nat := field (dwordOf b 1) 49 2

/-- Accumulator slots that a tile-task entry names: ACC, and CACC when CEN is set (R227). -/
def tkNames (b : List Byte) (slot : Nat) : Bool := enKind b == 1 && (tkAcc b == slot || (tkCen b && tkCacc b == slot))

/-! ### Static checks (R206, R207, R209, R212, R213, R215, R222, R332) -/

/-- The group of a task's membership (R286). -/
def State.memberGroup (s : State) (pid task m : Nat) : Option Group :=
  (s.job? pid).bind fun j => (j.task? task).bind fun t => ((t.memb[m]?).bind id).bind fun g => j.groups.find? fun x => x.index == g

/-- Kinds that a chain takes (R203). -/
def chainTakes (ch kind : Nat) : Bool :=
  kind == 6 || (if ch ≤ 1 then kind == 1 else if ch ≤ 4 || ch == 7 then kind == 2 else if ch == 5 then kind == 3 else kind == 0x10)

/-- The watched crew, of the appender's job, has been killed, is LOST or has left for good, so its instances are waited for no longer
(R208). -/
def Core.watchGone (c : Core) (watch : Owner) (pid chain : Nat) : Bool :=
  match watch with
  | .crew t => chain != 7 && !c.crews.any fun w => w.task == t && w.pid == pid && !w.gone
  | _ => false

/-- A wait on a chain and ticket is allowed (R206-R208). -/
def waitOk (c : Core) (watch : Owner) (pid : Nat) (priv : Bool) (chain seq : Nat) : Bool :=
  (chain != 7 || priv) && (watch != .hasp || 2 ≤ chain) && (watch != .chain7 || chain == 7) &&
    (passed (c.chain watch chain).a seq || c.watchGone watch pid chain)

/-- The header check (R207). -/
def headerOk (c : Core) (watch : Owner) (pid ch : Nat) (priv : Bool) (b : List Byte) : Bool :=
  chainTakes ch (enKind b) && field (dwordOf b 0) 8 8 == 0 && field (dwordOf b 0) 24 4 == 0 &&
    (if enWen b then waitOk c watch pid priv (enWchain b) (enWseq b) else enWchain b == 0 && enWseq b == 0)

/-- The marker's layout (R212). -/
def markerOk (b : List Byte) : Bool := enFlags b == 0 && (List.range 7).all fun i => dwordOf b (i + 1) == 0

/-- The copy entry's static conditions (R213). -/
def copyOk (b : List Byte) : Bool :=
  let n0 := cpN0 b
  field (enFlags b) 3 5 == 0 && cpDir b != 3 && cpSlot b ≤ 247 && cpSlot2 b ≤ 247 && cpSoff b % 16 == 0 && cpSoff2 b % 16 == 0 &&
    field (dwordOf b 1) 60 4 == 0 && field (dwordOf b 2) 46 18 == 0 && dwordOf b 7 == 0 && cpRp b % 16 == 0 &&
    1 ≤ n0 && n0 ≤ 16384 && 1 ≤ cpN1 b && cpN1 b ≤ 16384 && (cpDir b != 1 || !cpEf b) &&
    (if cpDir b = 2 then
      cpHandle b == 0xFFFF && n0 % 16 == 0 && cpSoff b + n0 ≤ 16384 && cpSoff2 b + n0 ≤ 16384 && cpN1 b == 1 && cpRp b == 0 &&
        (cpK b).all (· == 0)
    else cpSlot2 b == 0 && cpSoff2 b == 0)

/-- The indexed gather entry's static conditions (R215). -/
def gatherOk (b : List Byte) : Bool :=
  field (enFlags b) 1 7 == 0 && gaIslot b ≤ 247 && gaDslot b ≤ 247 && gaIoff b % 4 == 0 && gaDoff b % 16 == 0 && gaRp b % 16 == 0 &&
    field (dwordOf b 1) 60 4 == 0 && field (dwordOf b 2) 46 18 == 0 && dwordOf b 6 == 0 && dwordOf b 7 == 0 && 1 ≤ gaCount b &&
    gaCount b ≤ 4096 && gaIoff b + 4 * gaCount b ≤ 16384 && 1 ≤ gaN0 b && gaN0 b ≤ 16384

/-- The tile-task record's static conditions (R222), of a crew that holds the accumulator slots of `held`. -/
def tileOk (c : Core) (watch : Owner) (pid : Nat) (priv : Bool) (held : BitVec 8) (features : Nat → Bool) (b : List Byte) : Bool :=
  let ng := tkNg b
  let used := if tkNok b then 0 else if tkBf16 b then 2 * ng else ng
  let dm := tkDm b
  field (enFlags b) 6 2 == 0 && held.getLsbD (tkAcc b) && (!tkCen b || (held.getLsbD (tkCacc b) && tkCacc b != tkAcc b)) &&
    tkAfmt b != 3 && tkBfmt b != 3 && ((tkAfmt b == 2) == (tkBfmt b == 2)) && (!tkBf16 b || (!tkRbe b && ng ≤ 8)) &&
    (List.range 16).all (fun i => if i < used then tkBsl b i ≤ 247 else tkBsl b i == 0) &&
    (if tkSae b then tkSaSlot b ≤ 247 && tkSaOff b % 16 == 0 && tkSaOff b + 256 * ng ≤ 16384 else tkSaSlot b == 0 && tkSaOff b == 0) &&
    (if tkSbe b then tkSbSlot b ≤ 247 && tkSbOff b % 16 == 0 && tkSbOff b + 4 * ng ≤ 16384 else tkSbSlot b == 0 && tkSbOff b == 0) &&
    field (dwordOf b 4) 44 20 == 0 && field (dwordOf b 5) 24 40 == 0 &&
    (!tkNok b || (field (dwordOf b 1) 0 48 == 0 && field (dwordOf b 1) 51 13 == 0 && dwordOf b 2 == 0 && dwordOf b 3 == 0 &&
      dwordOf b 4 == 0 && !tkRbe b && !tkSae b && !tkSbe b)) &&
    (if tkD2en b then waitOk c watch pid priv (tkD2chain b) (tkD2seq b) else tkD2chain b == 0 && tkD2seq b == 0) &&
    (if dm = 0 then field (dwordOf b 5) 2 19 == 0 && dwordOf b 6 == 0 && tkWstart b == 0
     else tkOfmt b != 3 && tkOslot b ≤ 247 && (dm == 3 || tkOfmt b != 0 || tkOslot b ≤ 246) &&
       (dm == 2 || (field (dwordOf b 5) 14 7 == 0 && dwordOf b 6 == 0 && tkWstart b == 0)) &&
       (dm != 3 || (tkOfmt b == 0 && !tkSat b))) &&
    (features 1 || !tkBf16 b) && (features 2 || !tkRbe b)

/-- The bulk reduction's static conditions (R332), for a group of the appending crew. -/
def bulkOk (group : Option Group) (features : Nat → Bool) (b : List Byte) : Bool :=
  field (enFlags b) 2 6 == 0 && brSslot b ≤ 247 && brDslot b ≤ 247 && brSoff b % 512 == 0 && brDoff b % 512 == 0 &&
    field (dwordOf b 1) 51 13 == 0 && (List.range 6).all (fun i => dwordOf b (i + 2) == 0) && brSoff b + 512 * brNv b ≤ 16384 &&
    brDoff b + 512 * brNv b ≤ 16384 && features 7 &&
    (match group with | some g => g.kind == groupReduction && !g.sleet | none => false)

/-- Every check of an entry for a chain (R206, R207), at CHAPP and again when it starts (R209): `pid` is the appender's. -/
def State.entryOk (s : State) (core : Nat) (watch : Owner) (pid ch : Nat) (priv : Bool) (b : List Byte) : Bool :=
  let c := s.core core
  let w := c.owned watch
  headerOk c watch pid ch priv b && (watch != .hasp || (2 ≤ ch && (ch != 6 || enKind b == 6))) &&
    (match enKind b with
     | 1 => tileOk c watch pid priv w.acMask s.feature b
     | 2 => copyOk b
     | 3 => gatherOk b
     | 6 => markerOk b
     | _ => bulkOk (s.memberGroup w.pid w.task (brMemb b)) s.feature b)

end Sys2Proof.Machine
end

