-- ==== Sys2Proof/Machine/Chains.lean ====
section
/-! DEFINITION. The chain instructions, the completion sequence, and what halts and resumes an instance (spec 10 R203-R214,
R218; 21 R349, R356). -/

namespace Sys2Proof.Machine

/-! ### Engines are told to look for work -/

/-- The event that lets an engine start an entry: 2 copy, 3 gather/remote, 4 fabric unit; the tile scheduler's own
(R203). -/
def State.kickEngines (s : State) (core : Nat) : State :=
  let s := [2, 3, 4].foldl (fun (s : State) k =>
    if s.awaits (· == .chainEntryStart core k) then s else s.post 0 (.chainEntryStart core k)) s
  if s.awaits (· == .tileRecordStart core) then s else s.post 0 (.tileRecordStart core)

/-! ### The completion sequence (R204, R209) -/

/-- S passes every entry at the head that has completed (R204); what they had heard of stays with the instance (R337, R344). -/
def Chain.advance : Nat → Chain → Chain
  | 0, ch => ch
  | fuel + 1, ch =>
    match ch.entries with
    | e :: rest =>
      if e.stage = 2 && e.ticket = (ch.s + 1).toNat then Chain.advance fuel { ch with s := ch.s + 1, entries := rest, heard := (ch.heard ++ e.deps).eraseDups } else ch
    | [] => ch

/-- Storage slots that S has left behind are returned (R209): all of them when nothing is outstanding, otherwise those other
than the newest that hold no entry. -/
def Chain.trim (ch : Chain) : Chain :=
  if ch.s = ch.a then { ch with storage := [], used := 0 }
  else
    let kept := ch.storage.filter fun sl =>
      some sl == ch.storage.getLast? || ch.entries.any fun e => e.addr.any fun a => a / 16384 == sl
    { ch with storage := kept }

/-- A crew that has gone leaves its core's list once its started entries have finished (R218). -/
def State.reapGone (s : State) (core : Nat) : State :=
  let done := fun (w : Crew) => w.gone && w.chains.toList.all fun x => x.entries.isEmpty
  if (s.core core).crews.any done then
    (s.modCore core fun c => { c with crews := c.crews.filter fun w => !done w }).tumble core
  else s

/-! ### Late faults of entries (R214, R349) -/

/-- The strand that appended an entry, as its crew stands now: a crew of the appender's job, none while it is away or its image is still to be
read (R367). -/
def Core.appender (c : Core) (e : Entry) : Option SId :=
  match e.watch with
  | .hasp => some ⟨c.id, 16⟩
  | .crew t => (c.crews.find? fun w => w.task == t && w.pid == e.pid && !w.instances).bind fun w => (w.pos[e.rank]?).map fun p => ⟨c.id, p⟩
  | .chain7 => none

/-- TRAP_INFO of an engine's late fault (R351). -/
def engineInfo (ticket chain ring : Nat) : Word := BitVec.ofNat 64 (ticket % 2 ^ 32 * 2 ^ 32 + chain % 8 * 2 ^ 29 + ring % 32 * 2 ^ 24)

/-- Stores that the accesses of the running strand follow from now on (R337, R344). -/
def State.follow (s : State) (l : List Heard) : State :=
  if (s.stillOpen l).isEmpty then s else s.modMe fun st => { st with heard := (s.stillOpen st.heard ++ s.stillOpen l).eraseDups }

/-- What the entries of an instance up to a ticket have heard of (R337, R345). -/
def Chain.heardTo (x : Chain) (fork : Nat) : List Heard := x.heard ++ (x.entries.filter fun y => y.fork ≤ fork).flatMap (·.deps)

/-- The first faulted entry halts its instance, and its fault is delivered once no earlier entry of the instance is in progress: the
handler's entry joins them (R214, R345, R349). -/
def State.tellFault (s : State) (core : Nat) (o : Owner) (ch : Nat) : State :=
  let x := (s.core core).chain o ch
  match x.entries.find? fun e => e.stage == 3 && (e.told || !x.entries.any fun y => y.stage == 3 && y.told) with
  | none => s
  | some e =>
    let late := e.sent || x.entries.any fun y => y.stage == 1 && y.fork < e.fork
    let s := s.modChain core o ch fun y => { (y.modEntry e.ticket fun z => { z with told := true, sent := z.sent || !late }) with halt := true }
    let fault : LateFault := ⟨e.code, engineInfo e.ticket ch e.ring, 0, true, false, 0, ch⟩
    if late then s
    else match (s.core core).appender e, e.watch with
      | some sid, _ => (s.lateFault sid fault).asStrand sid fun s => s.follow (x.heardTo e.fork)
      | none, .crew t => (s.lateFaultAway e.pid t e.rank fault).hearAway e.pid t e.rank (s.stillOpen (x.heardTo e.fork))
      | none, _ => s

/-- After an entry has completed: S moves on, storage is returned, a fault that waited for it is
delivered, and waits that watch the instance may be over. -/
def State.bumpChain (s : State) (core : Nat) (o : Owner) (ch : Nat) : State :=
  let before := ((s.core core).chain o ch).storage.length
  let s := (s.modChain core o ch fun x => (x.advance x.entries.length).trim).tellFault core o ch
  let s := if ch = 7 && ((s.core core).chain o ch).storage.length < before then s.tumble core else s
  (s.reapGone core).kickEngines core

/-- An entry is complete (R204). -/
def State.completeEntry (s : State) (e : EntryRef) : State :=
  (s.modEntry e fun x => { x with stage := 2 }).bumpChain e.core e.owner e.chain

/-- The owner of an instance is a crew that has gone for good while its started entries run on (R218). -/
def Core.ownerGone (c : Core) (o : Owner) : Bool := c.crews.any fun w => w.gone && o == .crew w.task

/-- An entry takes a late fault: it does not complete, and the instance is halted (R214); of a crew that has gone nobody is
told, and the entry is over (R218). -/
def State.faultEntry (s : State) (e : EntryRef) (code : Nat) : State :=
  match s.entry? e with
  | none => s
  | some x =>
    if x.stage != 1 then s
    else if (s.core e.core).ownerGone e.owner then s.completeEntry e
    else
      let s := s.modEntry e fun y => { y with stage := 3, code := code, told := false, sent := false, todo := [], ahead := [] }
      (s.modChain e.core e.owner e.chain fun y => { y with halt := true }).tellFault e.core e.owner e.chain

/-- LATE_FAULT (R214). -/
def execLateFault (e : EntryRef) (code : Nat) (s : State) : Host.Outcome State Fault Refusal := .next (s.faultEntry e code)

/-- ENTRY_COMPLETE (R204): every write of the entry has taken effect. -/
def execEntryComplete (e : EntryRef) (s : State) : Host.Outcome State Fault Refusal :=
  .next (match s.entry? e with
    | none => s
    | some x => if x.stage = 1 && x.todo.isEmpty && x.flight = 0 then s.completeEntry e else s)

/-- MARKER_COMPLETE (R212). -/
def execMarkerComplete (e : EntryRef) (s : State) : Host.Outcome State Fault Refusal :=
  .next (match s.entry? e with
    | none => s
    | some x => if x.stage = 1 then s.completeEntry e else s)

/-! ### CHAIN_CTL (R356) -/

/-- A write of CHAIN_CTL to a halted instance: HALT clears and the faulted and, for CANCEL, the unstarted entries change;
a fault that waited is delivered then. -/
def State.resolveHalt (s : State) (core : Nat) (o : Owner) (ch : Nat) (f : Entry → Entry) : State :=
  if !((s.core core).chain o ch).halt then s
  else
    let s := s.modChain core o ch fun x => { x with halt := false, entries := x.entries.map f }
    (s.tellFault core o ch).bumpChain core o ch

/-- An entry whose fault halts the instance. -/
def Entry.halting (e : Entry) : Bool := e.stage == 3 && e.told

/-- RETRY: the faulted entry starts again from its beginning (R356). -/
def State.chainRetry (s : State) (core : Nat) (o : Owner) (ch : Nat) : State :=
  s.resolveHalt core o ch fun e => if e.halting then { e with stage := 0, told := false, sent := false, code := 0, recs := [] } else e

/-- SKIP: the faulted entry counts as complete (R356). -/
def State.chainSkip (s : State) (core : Nat) (o : Owner) (ch : Nat) : State :=
  s.resolveHalt core o ch fun e => if e.halting then { e with stage := 2 } else e

/-- CANCEL: the faulted and every unstarted entry count as complete (R356). -/
def State.chainCancel (s : State) (core : Nat) (o : Owner) (ch : Nat) : State :=
  s.resolveHalt core o ch fun e => if e.halting || e.stage == 0 then { e with stage := 2 } else e

/-- CHAIN_CTL_RETRY (R356). -/
def execChainCtlRetry (core : Nat) (o : Owner) (ch : Nat) (s : State) : Host.Outcome State Fault Refusal :=
  .next (s.chainRetry core o ch)

/-- CHAIN_CTL_SKIP (R356). -/
def execChainCtlSkip (core : Nat) (o : Owner) (ch : Nat) (s : State) : Host.Outcome State Fault Refusal :=
  .next (s.chainSkip core o ch)

/-- CHAIN_CTL_CANCEL (R356). -/
def execChainCtlCancel (core : Nat) (o : Owner) (ch : Nat) (s : State) : Host.Outcome State Fault Refusal :=
  .next (s.chainCancel core o ch)

/-! ### CHAPP, CHWAIT, CHSEQ (R205-R211) -/

/-- The fates that come before operands: chain 7 is privileged, and a supervisor strand has no chains (R205, R400). -/
def chainForm (ch : Nat) (k : State → State) (s : State) : State :=
  if s.isSup then s.trap causeChainEntry 0 else if ch = 7 then s.privileged k else k s

/-- The running strand's rank in its crew. -/
def State.myRank (s : State) : Nat := (s.myCrew.pos.findIdx? (· == s.cur.pos)).getD 0

/-- The trap conditions of CHAPP that its entry decides (R206). -/
def chappTrap (ch : Nat) (b : List Byte) (s : State) : Option Nat :=
  if !s.entryOk s.cur.core (s.ownerOf s.cur) (s.pidOf s.cur) ch s.me.priv b then some causeChainEntry
  else if s.isHasp || ch = 7 then none
  else if (s.myCore.chain (s.ownerOf s.cur) ch).full && s.myCrew.hold.sl ≤ s.myCharge then some causeChainStorage
  else none

/-- Appends an entry at the tail of an instance that has room, with the crew's tables as they stand (R206, R209, R224, R226); the ticket is
the new count A. -/
def State.appendEntry (s : State) (ch : Nat) (b : List Byte) : State :=
  let o := s.ownerOf s.cur
  let x := s.myCore.chain o ch
  let own := s.isHasp && ch ≠ 7
  let (order, s) := s.nextSerial
  let addr := if own then none else x.storage.getLast?.map fun sl => 16384 * sl + 64 * x.used
  let e : Entry :=
    { ticket := (x.a + 1).toNat, addr := addr, bytes := if own then b else [], stage := 0, watch := o, rank := s.myRank,
      fork := order, ring := 0, code := 0, told := false, pid := s.pidOf s.cur, recs := [], todo := [], flight := 0
      priv := s.me.priv
      beam := if ch ≤ 1 then s.myCrew.beam.toList.map (·.toNat) else []
      beamOn := s.myCrew.beamOn
      budget := if ch ≤ 1 then s.myCrew.budget.toList else []
      deps := s.carried s.cur }
  let s := match addr with
    | some a => s.modMyCore fun c =>
      { c with slots := c.slots.write a b, slotErrors := c.errorsAfter a b (List.replicate 64 true) }
    | none => s
  s.modChain s.cur.core o ch fun x => { x with a := x.a + 1, used := if own then x.used else x.used + 1, entries := x.entries ++ [e] }

/-- Makes room at the tail: the lowest-numbered free slot becomes storage (R206). -/
def State.takeStorage (s : State) (ch : Nat) : State :=
  let o := s.ownerOf s.cur
  if !(s.myCore.chain o ch).full then s
  else match firstBelow 248 fun i => !s.myCore.slotBusy i with
    | some sl => s.modChain s.cur.core o ch fun x => { x with storage := x.storage ++ [sl], used := 0 }
    | none => s

/-- The request for chain-7 storage of the running strand is over. -/
def State.endStorageWait (s : State) : State := s.modMyCore fun c => { c with acqs := c.acqs.filter fun a => !(a.sid == s.cur && a.res.isNone) }

/-- CHAPP d, #c, a (R206): a matrix chain of the Hasp strand traps before the source is read. -/
def execChapp (f : RF) (s : State) : Host.Outcome State Fault Refusal :=
  let ch := field f.b.toNat 0 3
  .next (chainForm ch (fun s => if s.isHasp && ch ≤ 1 then s.trap causeChainEntry 0 else
    s.issue 0 [.v f.a f.ta] [.s f.d false] (fun s => chappTrap ch ((s.vbytes f.a).take 64) s) fun o s =>
      let b := (o.vbytes f.a).take 64
      let x := o.myCore.chain (o.ownerOf o.cur) ch
      if (o.isHasp && ch ≠ 7 && x.a - x.s = 64) || (ch = 7 && o.myCore.clearing) then o.lend .poll
      else if ch = 7 && x.full then
        match o.myCore.acqs.find? fun a => a.sid == o.cur && a.res.isNone with
        | some a => o.lend (.acq a.serial)
        | none =>
          let (n, o) := o.nextSerial
          let o := o.modMyCore fun c => { c with acqs := c.acqs ++ [⟨o.cur, n, none, 1, none, 0, none, 1⟩] }
          (o.post 0 (.chain7StorageGrant o.cur.core)).lend (.acq n)
      else
        let s := if o.isHasp || ch = 7 then s.endStorageWait else s.takeStorage ch
        let s := s.appendEntry ch b
        let a := (s.myCore.chain (s.ownerOf s.cur) ch).a
        ((s.kickEngines s.cur.core).putS f.d (a.setWidth 64)).retire 1) s)

/-- CHAIN7_STORAGE_GRANT (R209): the Tumbler looks at the waiting requests. -/
def execChain7StorageGrant (core : Nat) (s : State) : Host.Outcome State Fault Refusal := .next (s.tumble core)

/-- CHWAIT #c, a (R210, R344): waits until S has passed the ticket, and follows the entries it has passed. -/
def execChwait (f : RF) (s : State) : Host.Outcome State Fault Refusal :=
  let ch := field f.b.toNat 0 3
  let srcs := [Opnd.s f.a f.ta]
  .next (chainForm ch (fun s => s.withSources 0 srcs [] fun s =>
    let n := field (s.sval f.a).toNat 0 32
    let x := s.myCore.chain (s.ownerOf s.cur) ch
    if !passed x.a n then s.trap causeChainFuture 0
    else if passed x.s n then ((s.popAll srcs).follow x.heard).retire 1
    else s.lend .poll) s)

/-- The state word of CHSEQ (R211). -/
def Chain.seqWord (x : Chain) : Word :=
  BitVec.ofNat 64 (boolNat x.halt * 2 ^ 63 + (x.a - x.s).toNat % 2 ^ 16 * 2 ^ 32 + x.s.toNat)

/-- CHSEQ d, #c (R211, R344). -/
def execChseq (f : RF) (s : State) : Host.Outcome State Fault Refusal :=
  let ch := field f.b.toNat 0 3
  .next (chainForm ch (fun s => s.issue 0 [] [.s f.d false] noTrap fun o s =>
    let x := o.myCore.chain (o.ownerOf o.cur) ch
    ((s.follow x.heard).putS f.d x.seqWord).retire 1) s)

end Sys2Proof.Machine
end

