-- ==== Sys2Proof/Machine/Requests.lean ====
section
/-! DEFINITION. Memory requests on their way and at their homes: translation, holding, ordering, locks and sync words, and
what a finished request delivers (spec 09 R176, R177, R183-R201; 05 R93; 16 R296, R304-R306; 19 R336-R339). -/

namespace Sys2Proof.Machine

/-! ### What a finished request delivers -/

/-- The element's bytes as its destination takes them (R147, R182). -/
def Elem.value (e : Elem) : List Byte := extendBytes e.signed e.width e.data

/-- The strand waits inside the instruction until the request ends (R88, R198, R200, R201). -/
def ReqKind.waits : ReqKind → Bool
  | .lock op _ => op ≤ 1
  | .ldsync | .stsync | .waitne => true
  | _ => false

/-- The stream that a scalar destination is bound to, of a strand that has waited inside its instruction (R135). -/
def Req.boundTo (s : State) (r : Req) : Option Nat :=
  match r.dst with
  | .scalar x => if r.kind.waits then (s.strand r.sid).bound (.s x false) else none
  | _ => none

/-- The fingerprint of a spinning load (R93): its value, or the XOR of the 64 dwords. -/
def fingerprint (bs : List Byte) : Word := (piecesOf 8 64 bs).foldl (fun x p => x ^^^ BitVec.ofNat 64 (natOfBytes p)) 0

/-- The bytes a spinning load read: memory, address and count (R93). -/
def Req.watch (s : State) (r : Req) : List (Nat × Nat × Nat) :=
  r.elems.filterMap fun e =>
    if r.space = 3 then (if r.peer == s.device then some (2 + r.rcore, e.va, e.size) else none)
    else if r.space = 2 then none else some (if e.host then 1 else 0, e.pa, e.size)

/-- The comparison of a .spin load after its delivery (R93). -/
def State.spinCheck (s : State) (r : Req) (fp : Word) : State :=
  let st := s.strand r.sid
  let same := st.spinPc == r.pc && st.spinFp == fp
  let (n, s) := s.nextSerial
  let s := s.modStrand r.sid fun st =>
    { st with spinPc := r.pc, spinFp := fp, spin := if same then some ⟨n, r.watch s⟩ else st.spin }
  if same then s.post 255 (.spinTimeout r.sid n) else s

/-- The bytes of register space that a request with that destination wrote. -/
def Req.image (s : State) (r : Req) (base : Nat) : List Byte :=
  r.elems.foldl (fun m e => (m.take e.put) ++ e.value ++ m.drop (e.put + e.value.length))
    ((s.owned r.sid.core r.owner).window.readBytes base 512)

/-- A scalar result lands: in its append, or in the register (R61 Deliver, R136). -/
def State.landScalar (s : State) (r : Req) (app : Booking) (d : Reg) (x : Word) : State :=
  match app, r.boundTo s with
  | some a, _ => s.fillAppend a (bytesOfNat 8 x.toNat)
  | none, some q => s.append r.sid q (bytesOfNat 8 x.toNat)
  | none, none => s.deliver { sid := r.sid, owner := r.owner, sregs := [(d, x)], bytes := [], lines := [], win := [] }

/-- Writes a finished request's result (R61 Deliver, R136). -/
def State.deliverReq (s : State) (r : Req) : State :=
  match r.dst with
  | .none => s
  | .scalar x =>
    let v := BitVec.ofNat 64 (natOfBytes ((r.elems.head?.map (·.value)).getD []))
    let s := s.landScalar r r.app x v
    if r.spin then s.spinCheck r v else s
  | .space base =>
    let v := r.image s base
    let s := match r.app with
      | some a => s.fillAppend a v
      | none => s.deliver { sid := r.sid, owner := r.owner, sregs := [], win := [], bytes := [(base, v, List.replicate 512 true)], lines := List.range' (base / 64) 8 }
    if r.spin then s.spinCheck r (fingerprint v) else s

/-- The register number that a late fault of a request reports as left empty (R351). -/
def Req.emptyReg (r : Req) (s : State) : Nat :=
  match r.dst with
  | .none => 0
  | .scalar x => x.toNat
  | .space base =>
    ((List.range 32).find? fun n => ((s.strand r.sid).place (.v (BitVec.ofNat 5 n) false)).1 == base).getD 0

/-- The strand that waits inside the instruction goes on at Next. -/
def State.endWait (s : State) (sid : SId) (serial words : Nat) : State :=
  if (s.strand sid).awaits serial then s.modStrand sid fun st => { st with wait := none }.goNext (st.next words) else s

/-- The destination of a request that failed is left empty (R190, R355). A bound name is its stream's: nothing is appended. -/
def State.leaveEmpty (s : State) (r : Req) : State :=
  let s := (r.app.toList ++ r.app2.toList).foldl State.dropReq s
  match r.dst with
  | .none => s
  | .scalar x => s.modStrand r.sid fun st =>
      let st := if r.app.isSome || (r.boundTo s).isSome then st else st.lose x
      if r.kind == .chase && r.app2.isNone then st.lose r.dst2 else st
  | .space base => if r.app.isSome then s else s.modOwned r.sid.core r.owner fun w => w.loseLines (base / 64) 8

/-- A WAITNE that is taken back has done nothing: its destination is full again (R61, R201, R280). -/
def State.unreserve (s : State) (r : Req) : State :=
  match r.kind, r.dst with
  | .waitne, .scalar x => if (r.boundTo s).isSome then s else s.modStrand r.sid fun st => st.setFull x
  | _, _ => s

/-- The late fault of a request (R202, R349). -/
def State.faultReq (s : State) (r : Req) : State :=
  let store := match r.kind with
    | .store | .append _ => true
    | _ => false
  let fault : LateFault := ⟨r.failed, r.pc, r.emptyReg s, false, store, 0, 0⟩
  if isAway r.sid.pos then s.lateFaultAway r.pid r.task (awayRank r.sid.pos) fault else s.lateFault r.sid fault

/-- The position under which the gather engine of a core sends its requests, and its and the copy engine's place among the strands of a
peer's core (log 12). -/
def gatherPos : Nat := 102
def gatherPeer : Nat := 19
def copyPeer : Nat := 18

/-- Who sent a message, as the device that serves it names him (log 12). -/
def peerSid (src tag : Nat) : SId :=
  let pos := field tag 16 8
  ⟨field tag 0 8, peerPos src (if pos = gatherPos then gatherPeer else if 16 < pos then copyPeer else pos)⟩

/-- A reply message, in class 1 to the gather engine and otherwise in class 0 (R320, R322): OPND holds the late cause or 0
(log 12). -/
def State.answerReq (s : State) (r : Req) (src tag : Nat) : State :=
  s.hubSend { s.blankMsg src opReply r.pid with
    cls := if field tag 16 8 = gatherPos then 1 else 0
    tag := tag, opnd := r.failed * 2 ^ 128, pay := flitsOf ((r.elems.head?.map (·.data)).getD []) }

/-! ### ACHASE's nodes (R178, R197) -/

/-- A reference with handle 0xFFFF is null (R178). -/
def isNull (ref : Word) : Bool := field ref.toNat 48 16 == 0xFFFF

/-- The end of a chase: the reference for d and the status (R197). -/
def State.endChase (s : State) (r : Req) (ref status : Word) : State :=
  let s := s.dropReq r.id
  if r.dead then s
  else
    let s := match r.dst with
      | .scalar d => s.landScalar r r.app d ref
      | _ => s
    s.landScalar r r.app2 r.dst2 status

/-- The elements of a node at an address: link and key, read as one, and as two only where the key lies on the next page, which R178 does not
rule out (DESIGN CHOICE, log 26). -/
def nodeElems (va : Nat) : List Elem :=
  if va % 16384 + 16 ≤ 16384 then [elemAt va 16 0 16 false []] else [elemAt va 8 0 8 false [], elemAt (va + 8) 8 8 8 false []]

/-- The next visit of a chase (R197): `x` is the reference, `attempts` the visits made. -/
def State.visit (s : State) (r : Req) : State :=
  if 16 ≤ r.attempts then s.endChase r r.x 2
  else if isNull r.x then s.endChase r all1 1
  else match s.refTarget r.sid.core r.pid r.x with
    | none => s.endChase r r.x 3
    | some (rec, va) =>
      if !recR rec || s.hostClosed rec then s.endChase r r.x 3
      else
        let r := { r with space := s.spaceOf rec, peer := recPeer rec, rcore := recCore rec, elems := nodeElems va }
        (s.modReq r.id fun _ => r).startElems r

/-- A node has been read (R197): dword 0 is the link, dword 1 the key. -/
def State.visited (s : State) (r : Req) : State :=
  let b := r.elems.flatMap (·.data)
  if BitVec.ofNat 64 (dwordOf b 1) = r.y then s.endChase r r.x 0
  else s.visit { r with x := BitVec.ofNat 64 (dwordOf b 0), attempts := r.attempts + 1 }

/-! ### The end of a request -/

/-- A stream's fetch is done: the element waits to land (R136). -/
def State.streamDone (s : State) (r : Req) (q : Nat) : State :=
  let g := (s.strand r.sid).stream q
  if g.cls = 0 || !g.busy then s
  else
    let width := if g.cls = 1 then 8 else 512
    let bs := r.elems.flatMap (·.data)
    let g := { g with busy := false, fetched := g.fetched ++ [bs ++ List.replicate (width - bs.length) 0],
                      fetchAt := advance g.record g.step g.fetchAt }
    ((s.modStrand r.sid fun st => st.setStream q g).announceStream r.sid q).kickStream r.sid q

/-- A fibre's coordinate has been fetched (R139). -/
def State.fibreDone (s : State) (r : Req) (f : Nat) : State :=
  s.modStrand r.sid fun st =>
    let g := st.fibres[f]?.getD {}
    let g := { g with busy := false, got := some (r.x.toNat, natOfBytes ((r.elems.head?.map (·.data)).getD [])) }
    { st with fibres := st.fibres.setIfInBounds f g }

/-- The number of words of the instruction that a waiting request belongs to: all record forms have three (R32). -/
def recordWords : Nat := 3

/-- An engine's access is done: its engine goes on with the request's data, or takes a late fault (R213-R216). -/
def State.engineGoesOn (s : State) (r : Req) (e : EntryRef) : State :=
  if r.failed ≠ 0 then ((s.modEntry e fun x => { x with flight := x.flight - 1 }).dropReq r.id).post 0 (.lateFault e r.failed)
  else if e.chain = 5 then s.post 0 (.gatherRowLand e r.x.toNat) else s.post 0 (.copyTransfer e.core)

/-- A peer's store has taken effect: its message is acknowledged (R319, R336). -/
def State.ackStore (s : State) (id : Nat) : State :=
  match s.req? id with
  | none => s
  | some r => match r.ack, r.source with
    | some n, some (src, tag) =>
      if r.elems.all fun e => e.phase == .done then
        (s.modReq id fun r => { r with ack := none }).hubSend
          { s.blankMsg src opAck r.pid with cls := 1, tag := field tag 0 16, pseq := n, opnd := 0 }
      else s
    | _, _ => s

/-- A load has returned: its strand has heard of what it read, and so have the later writes that follow it (R305, R337, R338); a result
in register space counts for the whole core. What an engine has read, its entry has heard of (R343, R344). -/
def State.hear (s : State) (r : Req) : State :=
  let l := s.stillOpen r.deps
  if l.isEmpty || r.kind.writes || r.source.isSome || r.dead then s
  else match r.kind with
  | .engine e _ => s.modEntry e fun x => { x with deps := (x.deps ++ l).eraseDups }
  | _ =>
    let s := s.modStrand r.sid fun st => { st with heard := (s.stillOpen st.heard ++ l).eraseDups }
    let s := match r.dst with
      | .space _ => s.modCore r.sid.core fun (c : Core) => { c with heard := s.stillOpen (c.heard ++ l.filter fun (h : Heard) => h.2.isNone) }
      | _ => s
    let tell (x : Req) : Req :=
      if x.ofStrand r.sid && x.kind.writes && r.rank < x.rank && (r.acquires || x.releases) then { x with deps := x.deps ++ l } else x
    { s with reqs := s.reqs.map tell }

/-- A node's link has been written: the AENQ goes on, or fails with it (R196). -/
def State.linkDone (s : State) (aenq code : Nat) : State :=
  if code ≠ 0 then s.modReq aenq fun r => { r with failed := code } else s

/-- Every element of the request is done: its result is delivered, or its late fault raised, and it leaves the list
(R61, R182, R188, R202). -/
def State.finishReq (s : State) (id : Nat) : State :=
  match s.req? id with
  | none => s
  | some r =>
    if !(r.elems.all fun e => e.phase == .done) then s
    else
      let s := s.hear r
      match r.kind with
      | .fetch => s
      | .link n => ((s.dropReq id).linkDone n r.failed).post 0 (.atomicHomeApply n)
      | .engine e _ => s.engineGoesOn r e
      | .streamRead q => (if r.dead then s else if r.failed ≠ 0 then s.faultReq r else s.streamDone r q).dropReq id
      | .fibreRead f => (if r.dead then s else if r.failed ≠ 0 then s.faultReq r else s.fibreDone r f).dropReq id
      | .chase => if r.dead then s.dropReq id else if r.failed ≠ 0 then (((s.leaveEmpty r).faultReq r).dropReq id) else s.visited r
      | _ =>
        let s := s.dropReq id
        match r.source with
        | some (src, tag) => s.answerReq r src tag
        | none =>
          if r.dead then s
          else
            let s := if r.failed ≠ 0 then (s.leaveEmpty r).faultReq r else s.deliverReq r
            s.endWait r.sid r.serial recordWords

/-- Marks an element done with what it read, and finishes the request if it was the last (R182). -/
def State.elemEnd (s : State) (id k : Nat) (data : List Byte) : State :=
  ((s.modReq id fun r => r.modElem k fun e => { e with phase := .done, data := data }).ackStore id).finishReq id

/-- Ends an element with a late cause (R190, R202). -/
def State.elemFail (s : State) (id k code : Nat) : State :=
  ((s.modReq id fun r => { r.modElem k (fun e => { e with phase := .done }) with failed := code }).ackStore id).finishReq id

/-! ### Translation (R186-R188, R402) -/

/-- An element is held at its station, on the page of `va` (R188); one that has been there before keeps its place (R193). -/
def State.holdElem (s : State) (r : Req) (k : Nat) (va : Nat) (kind : Option Nat) : State :=
  let (n, s) := s.nextSerial
  ((s.modReq r.id fun r => r.modElem k fun e => { e with phase := .held, pa := va, stamp := if e.stamp = 0 then n else e.stamp }).shutFull (dieOf r.sid.core) va).pageFault (dieOf r.sid.core) r.pid va kind

/-- The event at the home of a translated element (R177, R194, R198, R200). -/
def Req.homeEvent (r : Req) (k : Nat) (host : Bool) : Instr :=
  match r.kind with
  | .atomic _ => .atomicHomeApply r.id
  | .lock _ _ => .lockAttempt r.id
  | .ldsync | .stsync => .syncAttempt r.id
  | _ => if host then .hostSpaceAccess r.id k else .homeApply r.id k

/-- Operation code of a request to another device (R317). -/
def ReqKind.opcode : ReqKind → Nat
  | .store | .append _ | .link _ | .engine _ true => opWrite
  | .load | .chase | .waitne | .fetch | .streamRead _ | .fibreRead _ | .engine _ false => opRead
  | _ => opAtomic

/-- The failed attempts that a request has left before it parks (R116, R199). -/
def State.retryLimit (s : State) (r : Req) : Nat := if r.source.isSome then r.limit else (s.strand r.sid).retryLimit.toNat

/-- The FENCEs above device scope that a request follows, as four bits for .chs, .job, .sys and .grp (R307, R335; log 12). -/
def fenceBits (l : List FenceAt) : Nat := ((List.range 4).map fun i => if l.any (·.1 == 7 + i) then 2 ^ i else 0).sum
/-- The FENCEs that four bits stand for. -/
def fencesOf (n : Nat) : List FenceAt := (List.range 4).filterMap fun i => if bit n i then some (7 + i, none) else none

/-- The descriptor of a request in OPND (log 12): kind, operation, qualifier, counted writer, size, type, the FENCEs before it, order, scope
and, of a request from a strand, the attempts left. -/
def Req.descriptor (r : Req) (e : Elem) : Nat :=
  let (kind, op, wr) := match r.kind with
    | .store | .append _ | .link _ | .engine _ true => (1, 0, 0)
    | .atomic op => (2, op, 0)
    | .lock op wr => (3, op, boolNat wr)
    | .ldsync => (4, 0, 0)
    | .stsync => (5, 0, 0)
    | .waitne => (6, 0, 0)
    | _ => (0, 0, 0)
  kind + op * 2 ^ 8 + wr * 2 ^ 16 + boolNat r.counted * 2 ^ 17 + e.size % 256 * 2 ^ 24 + r.type % 16 * 2 ^ 32 + fenceBits r.fenced * 2 ^ 36 + r.order % 8 * 2 ^ 40 + r.scope % 16 * 2 ^ 44

/-- The distance of the replicas of a hot-row store, if the element is one (R176). -/
def Req.replicaStep (r : Req) (e : Elem) : Option Nat :=
  match r.replicas e with
  | x :: y :: _ => some (wrap ((y.va : Int) - (x.va : Int)) 58)
  | _ => none

/-- ADDR of an access to another device: a virtual address, or, with bit 63, an address of a core's slot store (R177, R317; log 12). -/
def slotAddr (core a : Nat) : Nat := 2 ^ 63 + core % 256 * 2 ^ 22 + a % 2 ^ 22

/-- The message of an element access on another device (R317, R320). A store to a hot row is one message: bit 18 of its descriptor
says so, and the first operand is the distance of the replicas (R176, R339; log 12). -/
def State.requestMsg (s : State) (r : Req) (k : Nat) (e : Elem) : Msg :=
  let step := if r.kind.writes then r.replicaStep e else none
  { s.blankMsg r.peer r.kind.opcode r.pid with
    addr := if r.space = 3 then slotAddr r.rcore e.va else e.va
    tag := reqTag r.sid r.id k
    opnd := (step.getD r.x.toNat) + r.y.toNat * 2 ^ 64 +
      (r.descriptor e + boolNat step.isSome * 2 ^ 18 + (s.retryLimit r - r.attempts) % 2 ^ 16 * 2 ^ 48) * 2 ^ 128
    pay := flitsOf (e.data ++ r.xs ++ r.ys) }

/-- A request of an indexed gather, here or from another device. -/
def Req.isRow (r : Req) : Bool :=
  match r.kind with
  | .engine e _ => e.chain == 5
  | _ => r.source.isSome && r.sid.pos % 32 == peerPos 0 gatherPeer % 32

/-- Earlier requests of one gather entry to the target of a request: they are not overtaken (R216). -/
def State.rowsBefore (s : State) (r : Req) : List Req :=
  if !r.isRow then []
  else s.reqs.filter fun x => x.isRow && x.id < r.id && x.sid == r.sid && x.kind == r.kind && x.space == r.space && x.peer == r.peer &&
    (x.space != 3 || x.rcore == r.rcore)

/-- They have left, or entered their stations. -/
def State.rowsGone (s : State) (r : Req) : Bool := (s.rowsBefore r).all fun x => x.elems.all fun y => y.phase != .walk

/-- The element may leave for another device: earlier elements for it have left, the orders of R305 allow it, and what a release
follows is readable (R296, R321, R338). -/
def State.mayLeave (s : State) (r : Req) (k : Nat) (e : Elem) : Bool :=
  s.mayAct r e && s.rowsGone r && !(r.elems.take k).any (fun x => x.phase == .walk) && (!r.kind.writes || s.causal r none) &&
    (s.earlier r).all fun x => x.aside || !(x.peer == r.peer && 2 ≤ x.space && x.elems.any fun y => y.phase == .walk)

/-- The places of a request's elements with one place in the source. -/
def Req.group (r : Req) (k : Nat) : List Nat :=
  match r.elems[k]? with
  | none => []
  | some e => if r.kind.writes then (List.range r.elems.length).filter fun i => (r.elems[i]?.map (·.put)) == some e.put else [k]

/-- Another device has answered for an element, and for the other replicas of a hot row with it. -/
def State.peerEnd (s : State) (r : Req) (k : Nat) (data : List Byte) (code : Nat) : State :=
  let others := (r.group k).filter (· != k)
  let s := s.modReq r.id fun r => { r with elems := r.elems.mapIdx fun i e => if others.contains i then { e with phase := .done } else e }
  if code ≠ 0 then s.elemFail r.id k code else s.elemEnd r.id k data

/-- A row enters the station after those before it, and a peer's store once the earlier stores of its strand have been translated, so that
those with one home keep their order there (R216, R338). -/
def State.peerInTurn (s : State) (r : Req) : Bool :=
  s.rowsGone r && (r.source.isNone || !r.kind.writes || (s.earlier r).all fun x =>
    !x.kind.writes || x.elems.all fun y => y.phase != .walk && y.phase != .held)

/-- TRANSLATION_WALK (R188): the element is translated and goes to its home, or is held; an element for another device
leaves on the fabric (R177), the replicas of a hot row as one message. One of no bytes ends with its translation, in its order among the
strand's accesses (R184, R305). Where the record's SPACE and the page's HOST bit differ the spec does
not say who serves the access; the page's bit decides (DESIGN CHOICE, log 26). -/
def execTranslationWalk (id k : Nat) (s : State) : Host.Outcome State Fault Refusal :=
  .next (match s.req? id with
    | none => s
    | some r =>
      match r.elems[k]? with
      | none => s
      | some e =>
        if e.phase != .walk then s
        else if 2 ≤ r.space then
          let group := r.group k
          if group.head? != some k then s
          else if s.mayLeave r k e && !(s.core r.sid.core).cannotSend then
            (s.modReq id fun r => { r with elems := r.elems.mapIdx fun i e => if group.contains i then { e with phase := .home } else e }).sendMsg
              r.sid.core (s.requestMsg r k e)
          else s.postFree 64 (.translationWalk id k)
        else if s.notAccepted (dieOf r.sid.core) r.pid e.va || !s.peerInTurn r then s.postFree 64 (.translationWalk id k)
        else if s.pageFaulted (dieOf r.sid.core) r.pid e.va then s.holdElem r k e.va none
        else match s.translate (dieOf r.sid.core) r.pid e.va r.kind.need with
          | (.ok pa host sync page, s) =>
            if e.size = 0 then (if s.mayAct r e then s.elemEnd id k [] else s.postFree 64 (.translationWalk id k))
            else if r.kind.isSync && !sync then s.elemFail id k causeSyncPage
            else
              let (n, s) := s.nextSerial
              (s.modReq id fun r => r.modElem k fun e =>
                { e with phase := .home, pa := pa, host := host, sync := sync, page := page, stamp := if e.stamp = 0 then n else e.stamp }).postFree
                r.leg (r.homeEvent k host)
          | (.fault kind, s) => s.holdElem r k e.va (some kind)
          | (.migrating, s) => s.holdElem r k e.va none)

/-- FAULT_BUFFER_RECORD (R189): the fault joins its entry, takes the lowest free one, or is dropped. -/
def execFaultBufferRecord (die pid page kind : Nat) (s : State) : Host.Outcome State Fault Refusal :=
  let bitDie : BitVec 4 := 1#4 <<< die
  let bitKind : BitVec 6 := 1#6 <<< kind
  .next (match (List.range 8).find? fun i => let f := s.faults[i]?.getD {}; f.valid && f.pid == pid && f.page == page with
    | some i =>
      let f := s.faults[i]?.getD {}
      let f := { f with dies := f.dies ||| bitDie, kinds := f.kinds ||| bitKind }
      { s with faults := s.faults.setIfInBounds i f }
    | none =>
      match (List.range 8).find? fun i => !(s.faults[i]?.getD {}).valid with
      | some i =>
        let s := { s with faults := s.faults.setIfInBounds i ⟨true, false, page, pid, bitDie, bitKind⟩ }
        if s.faultHost then { s with msix := s.msix ||| 2#4 } else s.interrupt 0
      | none => { s with dropped := true, dropCount := if s.dropCount = 0xFFFF then s.dropCount else s.dropCount + 1 })

/-- LAYOUT_CACHE_FILL (R174). -/
def execLayoutCacheFill (core pid handle : Nat) (s : State) : Host.Outcome State Fault Refusal :=
  guardPhysical (s.fillRecord core pid handle)

/-! ### At the home (R176, R183, R296, R304-R306, R336-R339) -/

/-- Two elements of one request store to one place: the earlier goes first (R185). -/
def Req.ownOrder (r : Req) (k : Nat) (e : Elem) : Bool :=
  !(r.kind.writes && (r.elems.take k).any fun x => x.phase != .done && x.va < e.va + e.size && e.va < x.va + x.size)

/-- Two elements of stores touch a common byte, by their physical or their virtual addresses. -/
def sameBytes (r : Req) (e : Elem) (x : Req) (y : Elem) : Bool :=
  x.sameSpace r && ((y.phase == .home && e.phase == .home && y.host == e.host && meets e.pa e.size y.pa y.size) ||
    (x.pid == r.pid && meets e.va e.size y.va y.size))

/-- The moment of the first application of a store at one place of its source, none while no replica is done (R297). -/
def Req.firstAt (x : Req) (y : Elem) : Option Nat := (((x.replicas y).filter fun z => z.phase == .done).map (·.stamp)).min?

/-- The write order of a hot row is the same at every replica, that of the first applications (R297): a store waits where another one of the
location, which reached some replica before it did, has not arrived. -/
def State.writeOrder (s : State) (r : Req) (e : Elem) : Bool :=
  s.reqs.all fun x => x.id == r.id || !x.kind.writes || !x.elems.any fun y =>
    y.phase != .done && sameBytes r e x y && match x.firstAt y, r.firstAt e with
      | none, _ => false
      | some _, none => true
      | some a, some b => decide (a < b)

/-- NMU of a physical address (R186). -/
def nmuOf (pa : Nat) : Nat := 4 * (pa / (48 * 2 ^ 30)) + field pa 14 2

/-- Stores of a strand of another device are applied in its program order at each home (R338). -/
def State.peerOrder (s : State) (r : Req) (e : Elem) : Bool :=
  r.source.isNone || !r.kind.writes || (s.earlier r).all fun x => !x.kind.writes || x.elems.all fun y =>
    y.phase != .home || y.host != e.host || nmuOf y.pa != nmuOf e.pa

/-- The die whose strands alone read an element of a write: that of a replica (R336); none where every die does. -/
def Req.placeDie (r : Req) (e : Elem) : Option Nat :=
  let g := r.replicas e
  if g.length ≤ 1 then none else g.findIdx? fun x => x.va == e.va

/-- The element may act at its home now. -/
def State.actsNow (s : State) (r : Req) (k : Nat) (e : Elem) : Bool :=
  s.mayAct r e && r.ownOrder k e &&
    (!r.kind.writes || ((r.replicas e).all (fun x => x.phase == .home || x.phase == .done) && s.writeOrder r e && s.peerOrder r e &&
      s.causal r (r.placeDie e)))

/-! ### What a load hears of (R337-R339; log 13) -/

/-- The devices of two strands, of this device or of a peer. -/
def State.deviceOf (s : State) (r : Req) : Nat := (r.source.map (·.1)).getD s.device

/-- The cluster of a core: a 2 x 2 block of its die's mesh; a supervisor core forms one alone (R12, R303). -/
def clusterOf (core : Nat) : Nat :=
  if core < 256 then core / 64 * 16 + core % 64 / 16 * 4 + core % 8 / 2 else core

/-- The strand of a request lies in the .grp instance of a group of a PID (R340): it belongs to a member task of a barrier or an ordered
group, or its device holds a member region or a member. The task of a strand of another device is not told here; it counts as one that
holds the membership (DEDUCED, log 13). -/
def State.inGroup (s : State) (pid gi : Nat) (x : Req) : Bool :=
  match s.group? pid gi with
  | none => false
  | some g =>
    let task := x.pid == pid && (x.source.isSome || ((s.job? pid).bind fun j => j.task? x.task).any fun t => t.memb.contains (some gi))
    let here := (s.memberDevs g).contains (s.deviceOf x)
    if g.kind = groupBarrier then task else if g.kind = groupOrdered then task || here else here

/-- The strands of two requests lie in one instance of a scope, of .grp that of a group of the second's PID; where a message does not tell
the group, .grp is taken as .job, whose devices hold every member (R303, R335, R340; log 13). -/
def State.oneInstance (s : State) (scope : Nat) (group : Option Nat) (x r : Req) : Bool :=
  let a := s.deviceOf x
  let b := s.deviceOf r
  match scope, group with
  | 0, _ => a == b && x.sid == r.sid
  | 1, _ => a == b && x.sid.core == r.sid.core && x.owner == r.owner
  | 2, _ => a == b && x.sid.core == r.sid.core
  | 3, _ => a == b && clusterOf x.sid.core == clusterOf r.sid.core
  | 4, _ => a == b && dieOf x.sid.core == dieOf r.sid.core
  | 5, _ | 6, _ => a == b
  | 7, _ => devX a == devX b && devY a == devY b
  | 9, _ => true
  | 10, some g => s.inGroup r.pid g x && s.inGroup r.pid g r
  | _, _ => a == b || x.pid == r.pid || (b == s.device && (s.job? x.pid).isSome) || (a == s.device && (s.job? r.pid).isSome)

/-- A store releases for a reader: by its own order, or behind a FENCE with a release side whose instance holds both (R305, R307). -/
def State.releasesFor (s : State) (x r : Req) : Bool :=
  (x.releases && s.oneInstance x.scope none x r) || x.fenced.any fun f => s.oneInstance f.1 f.2 x r

/-- How a load that reads a store to a hot row which some replica lacks hears of it: within the device at scope .dev or narrower, or as
an acquire that a release synchronizes with; otherwise, of a release, only after an acquire FENCE that does (R305, R307, R337, R338). -/
def State.hears (s : State) (x r : Req) : Option (Option Nat) :=
  if x.scope ≤ 5 && x.source.isNone && r.source.isNone then some none
  else if s.releasesFor x r then some (if r.acquires && s.oneInstance r.scope none x r then none else some x.id)
  else none

/-- The stores that a load of an element hears of: those it reads, and what they follow themselves. -/
def State.heardAt (s : State) (r : Req) (e : Elem) : List Heard :=
  s.reqs.flatMap fun x =>
    if x.id != r.id && x.kind.writes && x.space == 0 && 4 ≤ x.elems.length &&
        (x.elems.any fun y => y.phase == .done && !y.host && meets e.pa e.size y.pa y.size) && !x.heldBy none then
      match s.hears x r with
      | some b => (x.id, b) :: (x.deps.filter (·.2.isNone)).map fun d => (d.1, b)
      | none => []
    else []

/-- What the running strand has heard of once it has passed an acquire FENCE (R307, R338). -/
def State.heardFenced (s : State) (f : FenceAt) : List Heard :=
  s.me.heard.map fun h => match h.2 with
    | some v => if (s.req? v).all fun x => s.oneInstance f.1 f.2 x (s.reqOf s.cur .load 0) then (h.1, none) else h
    | none => h

/-- A frame has been handed off by a migration (R193). -/
def State.handedOff (s : State) (pa : Nat) : Bool := s.marks.contains (pa / 16384)

/-- Writes device memory at a home: a plain store sets the sync bits of a SYNC page full (R200). -/
def State.memStore (s : State) (pa : Nat) (bs : List Byte) (sync : Bool) : State :=
  let s := { s with
    mem := s.mem.write pa bs
    syncEmpty := if sync then delRange (pa / 8) ((pa + bs.length - 1) / 8 + 1 - pa / 8) s.syncEmpty else s.syncEmpty }
  s.wrote 0 pa bs.length

/-- WAITNE's read (R201): a different value ends it, an equal one parks it until a write or for 256 cycles. -/
def State.waitneRead (s : State) (r : Req) (k : Nat) (v : List Byte) (list : Bool) : State :=
  if natOfBytes v ≠ wrap r.x.toNat (8 * v.length) then s.elemEnd r.id k v
  else
    let (n, s) := s.nextSerial
    (s.modReq r.id fun r => { r.modElem k (fun e => { e with phase := .parked, stamp := n }) with counted := list, attempts := n }).post 256
      (.waitneTimeout r.id n)

/-- The waiting list of an NMU is full (R199); a WAITNE that found it so waits beside it (R201). -/
def State.listFull (s : State) (pa : Nat) : Bool :=
  1024 ≤ (s.reqs.map fun r => (r.elems.filter fun e =>
    e.phase == .parked && (r.kind != .waitne || r.counted) && !e.host && r.space != 3 && nmuOf e.pa == nmuOf pa).length).sum

/-- Stores an element where its page says (R177, R200). -/
def State.storeAt (s : State) (x : Elem) : State :=
  if x.host then ({ s with host := s.host.write x.pa x.data }).wrote 1 x.pa x.size else s.memStore x.pa x.data x.sync

/-- A store's element takes effect: its moment is kept for the write order of a hot row (R297). -/
def State.applyElem (s : State) (id k : Nat) (x : Elem) : State :=
  let (n, s) := s.nextSerial
  ((s.storeAt x).modReq id fun r => r.modElem k fun e => { e with stamp := n }).elemEnd id k x.data

/-- A store's element takes effect, the four replicas of an sc store to a hot row in one action (R304, R339): none while one of them may not. -/
def State.storeGroup (s : State) (r : Req) (k : Nat) : Option State :=
  let group := (if r.order = 4 then r.group k else [k]).filterMap fun i => (r.elems[i]?).map fun x => (i, x)
  let todo := group.filter fun p => p.2.phase != .done
  if todo.all fun p => s.actsNow r p.1 p.2 && (p.2.host || !s.handedOff p.2.pa) then
    some (todo.foldl (fun s p => s.applyElem r.id p.1 p.2) s)
  else none

/-- An element that may not act yet looks again: at once where it waits for another of its own request. -/
def State.lookAgain (s : State) (r : Req) (k : Nat) (e : Elem) (ev : Instr) : State := if r.ownOrder k e then s.postFree 64 ev else s.post 0 ev

/-- HOME_APPLY (R183, R304, R339): one element access takes effect at its home NMU, an sc store to a hot row at all four; a load of another
device waits until every replica holds what it would hear of (R338). -/
def execHomeApply (id k : Nat) (s : State) : Host.Outcome State Fault Refusal :=
  .next (match s.req? id with
    | none => s
    | some r =>
      match r.elems[k]? with
      | none => s
      | some e =>
        if e.phase != .home then s
        else if s.handedOff e.pa then s.post 0 (.redirect id k)
        else if r.kind.writes then (s.storeGroup r k).getD (s.lookAgain r k e (.homeApply id k))
        else if !s.actsNow r k e || (r.source.isSome && !(s.heardAt r e).isEmpty) then s.postFree 64 (.homeApply id k)
        else
          let v := s.mem.readBytes e.pa e.size
          let s := s.modReq id fun r => { r with deps := (r.deps ++ s.heardAt r e).eraseDups }
          if r.kind == .waitne then s.waitneRead r k v (!s.listFull e.pa) else s.elemEnd id k v)

/-- HOST_SPACE_ACCESS (R177, R336, R339): the host serves the element in its memory. -/
def execHostSpaceAccess (id k : Nat) (s : State) : Host.Outcome State Fault Refusal :=
  .next (match s.req? id with
    | none => s
    | some r =>
      match r.elems[k]? with
      | none => s
      | some e =>
        if e.phase != .home then s
        else if r.kind.writes then (s.storeGroup r k).getD (s.lookAgain r k e (.hostSpaceAccess id k))
        else if !s.actsNow r k e then s.postFree 64 (.hostSpaceAccess id k)
        else
          let v := s.host.readBytes e.pa e.size
          if r.kind == .waitne then s.waitneRead r k v false else s.elemEnd id k v)

/-- A core runs the job of a request (R142, R177). -/
def State.coreRuns (s : State) (core pid : Nat) : Bool := (s.core core).job == some pid

/-- REMOTE_SLOT_ACCESS (R177, R219): a read waits for its granules, and one that meets an uncorrectable codeword fails; a write sets its
granules full, and a core of another job refuses. -/
def execRemoteSlotAccess (id k : Nat) (s : State) : Host.Outcome State Fault Refusal :=
  .next (match s.req? id with
    | none => s
    | some r =>
      match r.elems[k]? with
      | none => s
      | some e =>
        if e.phase != .walk && e.phase != .home then s
        else if e.size = 0 then (if s.mayAct r e then s.elemEnd id k [] else s.postFree 64 (.remoteSlotAccess id k))
        else if !s.coreRuns r.rcore r.pid then s.elemFail id k causeRemoteRefused
        else if !(s.mayAct r e && r.ownOrder k e && (s.rowsBefore r).all (fun x => x.elems.all fun y => y.phase == .done) && (!r.kind.writes || s.causal r (some (dieOf r.rcore)))) then
          s.postFree 64 (.remoteSlotAccess id k)
        else if r.kind.writes then
          let s := s.modCore r.rcore fun c => { c with heard := s.stillOpen (c.heard ++ r.deps.filter (·.2.isNone)) }
          (s.slotStore r.rcore e.va e.data).elemEnd id k e.data
        else if (s.core r.rcore).someEmpty e.va e.size then s.postFree 64 (.remoteSlotAccess id k)
        else if (s.core r.rcore).slotBad e.va e.size then (s.reportUncorrected r.rcore e.va).elemFail id k causeSlotUncorrectable
        else
          let (v, s) := s.slotBytes r.rcore e.va e.size
          let s := (s.reportCorrected r.rcore e.va e.size).modReq id fun q => { q with deps := (q.deps ++ (s.core r.rcore).heard).eraseDups }
          if r.kind == .waitne then s.waitneRead r k v false else s.elemEnd id k v)

/-- REDIRECT (R193): the station translates the element again and resends it. -/
def execRedirect (id k : Nat) (s : State) : Host.Outcome State Fault Refusal :=
  .next (match s.req? id with
    | none => s
    | some r =>
      match r.elems[k]? with
      | none => s
      | some e =>
        if e.phase != .home && e.phase != .parked then s
        else (s.modReq id fun r => r.modElem k fun e => { e with phase := .walk }).post 0 (.translationWalk id k))

/-- Requests parked on a waiting list are sent back to their stations, to be translated anew (R191, R193). -/
def State.sendBack (s : State) (p : Req → Elem → Bool) : State :=
  s.reqs.foldl (fun (s : State) r => (List.range r.elems.length).foldl (fun (s : State) k =>
    match r.elems[k]? with
    | some e => if e.phase == .parked && r.space < 2 && p r e then s.post 0 (.redirect r.id k) else s
    | none => s) s) s

/-! ### Atomics (R194-R196) -/

/-- Lesser and greater of two .f32 patterns, and their sum (R64, R70). -/
def atomicFloat (op : Nat) (x y : Nat) : Nat :=
  if op = 0 then Fmt.add Fmt.f32 .rne x y else if op = 1 then Fmt.min Fmt.f32 x y else Fmt.max Fmt.f32 x y

/-- New value of an element under an operation of R194; `y` is ACAS's expected value. -/
def atomicNew (op type size old x y : Nat) : Nat :=
  let n := 8 * size
  let x := x % 2 ^ n
  if op ≤ 2 && type == 12 then atomicFloat op old x
  else if op = 0 then wrap (old + x) n
  else if op ≤ 2 then
    let less := if typeSigned type then sext x n < sext old n else x < old
    if (op = 1) == less then x else old
  else if op = 3 then old &&& x
  else if op = 4 then old ||| x
  else if op = 5 then old ^^^ x
  else if op = 6 then x
  else if old = y % 2 ^ n then x else old

/-- ACAS4's comparison: every enabled dword matches (R195). -/
def acas4Ok (old expected : List Byte) : Bool :=
  let dw := fun (b : List Byte) (i : Nat) => (b.drop (8 * i)).take 8
  (List.range 4).all fun i => !bit (expected.getD 32 0).toNat i || dw old i == dw expected i

/-- Writes an atomic's new value at its element; the word's full/empty bit stays (R194, R200). -/
def State.atomicPut (s : State) (host : Bool) (pa : Nat) (bs : List Byte) : State :=
  if host then ({ s with host := s.host.write pa bs }).wrote 1 pa bs.length
  else ({ s with mem := s.mem.write pa bs }).wrote 0 pa bs.length

/-- ACAS4 writes the enabled dwords, if all of them matched (R195). -/
def State.putDwords (s : State) (host : Bool) (pa : Nat) (new expected : List Byte) : State :=
  (List.range 4).foldl (fun (s : State) i =>
    if bit (expected.getD 32 0).toNat i then s.atomicPut host (pa + 8 * i) ((new.drop (8 * i)).take 8) else s) s

/-- A relaxed store of an AENQ to the link of a node, in every replica of a hot row (R176, R196). -/
def State.linkStore (s : State) (r : Req) (rec i : Nat) (link : Word) : State :=
  let (id, s) := s.nextSerial
  let bs := bytesOfNat 8 link.toNat
  s.addReq { s.recordReq r.sid (.link r.id) rec id with
    prog := some r.rank, pid := r.pid, task := r.task, owner := r.owner, dead := r.dead, deps := r.deps
    elems := (rowsOf rec (dieOf r.sid.core) true i).map fun row => elemAt (addressOf rec [i] row) 8 0 0 false bs }

/-- A node that AENQ may link: valid, in range and writable (R196). -/
def State.nodeOf (s : State) (r : Req) (ref : Word) : Option (Nat × Nat) :=
  (s.refRecord r.sid.core r.pid ref).filter fun p => recW p.1 && !s.hostClosed p.1

/-- AENQ's action (R196), HEAD and TAIL at `pa`: first next(n) is written, then the list is updated as one action and next(old) written,
and the AENQ completes when that store has. `xs` says how far it has come: nothing yet, [0] the first link on its way, [1] the
second, with TAIL's old value in `y`. -/
def State.enqueue (s : State) (r : Req) (host : Bool) (pa : Nat) : State :=
  let old := BitVec.ofNat 64 ((if host then s.host else s.mem).readNat (pa + 8) 8)
  let end_ (x : Word) (s : State) : State := if r.failed ≠ 0 then s.elemFail r.id 0 r.failed else s.elemEnd r.id 0 (bytesOfNat 8 x.toNat)
  if r.xs == [1] then end_ r.y s
  else match s.nodeOf r r.x, s.nodeOf r old, isNull old with
    | none, _, _ => s.elemEnd r.id 0 (bytesOfNat 8 all1.toNat)
    | some _, none, false => s.elemEnd r.id 0 (bytesOfNat 8 all1.toNat)
    | some n, there, null =>
      if r.xs.isEmpty then (s.modReq r.id fun r => { r with xs := [0] }).linkStore r n.1 n.2 all1
      else if r.failed ≠ 0 then end_ old s
      else
        let s := s.atomicPut host (pa + 8) (bytesOfNat 8 r.x.toNat)
        match there, null with
        | some o, false => (s.modReq r.id fun r => { r with xs := [1], y := old }).linkStore r o.1 o.2 r.x
        | _, _ => end_ old (s.atomicPut host pa (bytesOfNat 8 r.x.toNat))

/-- A link of an AENQ is on its way. -/
def State.linking (s : State) (id : Nat) : Bool := s.reqs.any fun x => x.kind == .link id

/-- ATOMIC_HOME_APPLY (R194-R196): one atomic takes effect at its home as one action; a chase makes its first visit
(R197). -/
def execAtomicHomeApply (id : Nat) (s : State) : Host.Outcome State Fault Refusal :=
  .next (match s.req? id with
    | none => s
    | some r =>
      match r.kind, r.elems[0]? with
      | .chase, _ => if r.elems.isEmpty then (if s.mapPending r.sid || (s.earlier r).any (·.acquires) || (r.releases && !(s.earlier r).isEmpty)
          then s.postFree 64 (.atomicHomeApply id) else s.visit r) else s
      | .atomic op, some e =>
        if e.phase != .home || s.linking id then s
        else if !e.host && s.handedOff e.pa then s.post 0 (.redirect id 0)
        else if (op ≠ 9 || r.xs.isEmpty) && !s.actsNow r 0 e then s.postFree 64 (.atomicHomeApply id)
        else
          let old := (if e.host then s.host else s.mem).readBytes e.pa e.size
          if op = 9 then s.enqueue r e.host e.pa
          else if op = 8 then
            let ok := acas4Ok old r.ys
            (if ok then s.putDwords e.host e.pa r.xs r.ys else s).elemEnd id 0 (old ++ [if ok then 1 else 0])
          else
            (s.atomicPut e.host e.pa (bytesOfNat e.size (atomicNew op r.type e.size (natOfBytes old) r.x.toNat r.y.toNat))).elemEnd id 0 old
      | _, _ => s)

/-! ### Locks and sync words (R198-R200) -/

def lkWp (w : Nat) : Bool := bit w 63
def lkWh (w : Nat) : Bool := bit w 62
def lkWw (w : Nat) : Nat := field w 48 14
def lkRd (w : Nat) : Nat := field w 0 48

/-- One attempt on a lock word (R198): the new word and the value delivered, none where it fails. -/
def lockTry (w op : Nat) (wr counted : Bool) : Option (Nat × Nat) :=
  let reader := !lkWh w && (!lkWp w || lkWw w == 0)
  let writer := !lkWh w && lkRd w == 0
  let asReader := w + 1
  let asWriter := w + 2 ^ 62 - (if counted && 0 < lkWw w then 2 ^ 48 else 0)
  match op with
  | 0 => if reader then some (asReader, w) else none
  | 1 => if writer then some (asWriter, w) else none
  | 2 => if lkRd w ≠ 0 then some (w - 1, 0) else none
  | 3 => if lkWh w then some (w - 2 ^ 62, 0) else none
  | _ => if wr then (if writer then some (asWriter, 1) else none) else (if reader then some (asReader, 1) else none)

/-- A failed attempt: it parks at the home once the limit is reached and the list has room; otherwise it is sent again, by a strand of
another device when the failure has returned to it (R199; log 12). -/
def State.retryLater (s : State) (r : Req) : State :=
  let pa := (r.elems.head?.map (·.pa)).getD 0
  let (n, s) := s.nextSerial
  if s.retryLimit r ≤ r.attempts + 1 && !s.listFull pa then
    s.modReq r.id fun r => { r.modElem 0 (fun e => { e with phase := .parked, stamp := n }) with attempts := r.attempts + 1 }
  else match r.source with
    | some (src, tag) => (s.dropReq r.id).answerPeer src r.pid r.sid (tagReq tag) 9 0 0 (boolNat r.counted) 0
    | none =>
      (s.modReq r.id fun r =>
        { r.modElem 0 (fun e => { e with phase := .walk, stamp := n }) with attempts := r.attempts + 1 }).postFree legCycles (.lockRetry r.id)

/-- The failure of an attempt on another device has returned: it is sent again (R199). -/
def State.attemptFailed (s : State) (id : Nat) (counted : Bool) : State :=
  match s.req? id with
  | none => s
  | some _ =>
    (s.modReq id fun r =>
      { r.modElem 0 (fun e => { e with phase := .walk }) with attempts := r.attempts + 1, counted := r.counted || counted }).postFree legCycles
        (.lockRetry id)

/-- Writes a lock word. -/
def State.lockWrite (s : State) (e : Elem) (w : Nat) : State :=
  if e.host then { s with host := s.host.writeNat e.pa 8 w } else { s with mem := s.mem.writeNat e.pa 8 w }

/-- Reads a lock word. -/
def State.lockRead (s : State) (e : Elem) : Nat := (if e.host then s.host else s.mem).readNat e.pa 8

/-- WAITING_LIST_GRANT for a lock word (R199): each parked attempt whose condition holds is granted, oldest first. -/
def State.grantLocks (s : State) (pa : Nat) : State :=
  (s.parkedOn ReqKind.isLock pa 8).foldl (fun s id =>
    match s.req? id with
    | some r =>
      match r.kind, r.elems.head? with
      | .lock op wr, some e =>
        match lockTry (s.lockRead e) op wr r.counted with
        | some (w, x) => (s.lockWrite e w).elemEnd id 0 (bytesOfNat 8 x)
        | none => s
      | _, _ => s
    | none => s) s

/-- Readers of a lock word see its change (R93, R201). -/
def State.wroteLock (s : State) (e : Elem) : State := s.wrote (if e.host then 1 else 0) e.pa 8

/-- LOCK_ATTEMPT (R198, R199): granted or failed as one action, with the grants that a changed word allows. Operation 5 takes back a
waiting writer whose strand has given up (log 12). -/
def execLockAttempt (id : Nat) (s : State) : Host.Outcome State Fault Refusal :=
  .next (match s.req? id with
    | none => s
    | some r =>
      match r.kind, r.elems.head? with
      | .lock op wr, some e =>
        if e.phase != .home && e.phase != .parked then s
        else if !e.host && s.handedOff e.pa then s.post 0 (.redirect id 0)
        else if e.phase == .home && !s.actsNow r 0 e then s.postFree 64 (.lockAttempt id)
        else
          let word := s.lockRead e
          if op = 5 then (((s.lockWrite e (putField word 48 14 (lkWw word - 1))).elemEnd id 0 []).grantLocks e.pa).wroteLock e
          else match lockTry word op wr r.counted with
          | some (w, x) => (((s.lockWrite e w).elemEnd id 0 (bytesOfNat 8 x)).grantLocks e.pa).wroteLock e
          | none =>
            if op = 2 || op = 3 then s.elemFail id 0 causeLockState
            else if op = 4 then s.elemEnd id 0 (bytesOfNat 8 0)
            else if e.phase == .parked then s
            else if op = 1 && !r.counted && lkWw word < 16383 then
              let s := s.lockWrite e (word + 2 ^ 48)
              let r := { r with counted := true }
              ((s.modReq id fun _ => r).retryLater r).wroteLock e
            else s.retryLater r
      | _, _ => s)

/-- LOCK_RETRY (R199): the failed attempt is sent again. -/
def execLockRetry (id : Nat) (s : State) : Host.Outcome State Fault Refusal :=
  .next (match s.req? id with
    | none => s
    | some r => s.startElems r)

/-- One attempt on a sync word (R200): the state after it, none where it fails. -/
def State.syncTry (s : State) (r : Req) (e : Elem) : Option State :=
  let full := !s.syncEmpty.contains (e.pa / 8)
  if r.kind == .ldsync then
    if full then
      some ({ s with syncEmpty := addRange (e.pa / 8) 1 s.syncEmpty }.elemEnd r.id 0 (s.mem.readBytes e.pa 8))
    else none
  else if full then none
  else some ((s.memStore e.pa (bytesOfNat 8 r.x.toNat) true).elemEnd r.id 0 [])

/-- WAITING_LIST_GRANT for a sync word (R199). -/
def State.grantSyncs (s : State) (pa : Nat) : State :=
  (s.parkedOn ReqKind.isSync pa 8).foldl (fun s id =>
    match s.req? id with
    | some r => match r.elems.head? with
      | some e => (s.syncTry r e).getD s
      | none => s
    | none => s) s

/-- SYNC_ATTEMPT (R200). -/
def execSyncAttempt (id : Nat) (s : State) : Host.Outcome State Fault Refusal :=
  .next (match s.req? id with
    | none => s
    | some r =>
      match r.elems.head? with
      | none => s
      | some e =>
        if !r.kind.isSync || (e.phase != .home && e.phase != .parked) then s
        else if s.handedOff e.pa then s.post 0 (.redirect id 0)
        else if e.phase == .home && !s.actsNow r 0 e then s.postFree 64 (.syncAttempt id)
        else match s.syncTry r e with
          | some s => s.grantSyncs e.pa
          | none => if e.phase == .parked then s else s.retryLater r)

/-! ### WAITNE and spin lending (R93, R201) -/

/-- A parked WAITNE reads again: a new read, translated anew (R191, R201). -/
def State.waitneAgain (s : State) (r : Req) : State :=
  match r.elems.head? with
  | some e =>
    if e.phase != .parked then s
    else
      if r.space = 3 then (s.modReq r.id fun r => r.modElem 0 fun e => { e with phase := .home }).post 0 (.remoteSlotAccess r.id 0)
      else (s.modReq r.id fun r => r.modElem 0 fun e => { e with phase := .walk }).post 0 (.translationWalk r.id 0)
  | none => s

/-- WAITNE_WAKE (R201): the home reports a write to the element. -/
def execWaitneWake (id : Nat) (s : State) : Host.Outcome State Fault Refusal :=
  .next (match s.req? id with
    | some r => if r.kind == .waitne && r.counted then s.waitneAgain r else s
    | none => s)

/-- WAITNE_TIMEOUT (R201): 256 cycles have passed since the park numbered `serial`. -/
def execWaitneTimeout (id serial : Nat) (s : State) : Host.Outcome State Fault Refusal :=
  .next (match s.req? id with
    | some r => if r.kind == .waitne && r.attempts == serial then s.waitneAgain r else s
    | none => s)

/-- SPIN_WAKE (R93): a byte that the load read has been written. -/
def execSpinWake (sid : SId) (s : State) : Host.Outcome State Fault Refusal := .next (s.modStrand sid fun st => { st with spin := none })

/-- SPIN_TIMEOUT (R93): 256 cycles have passed since the delivery. -/
def execSpinTimeout (sid : SId) (serial : Nat) (s : State) : Host.Outcome State Fault Refusal :=
  .next (s.modStrand sid fun st =>
    match st.spin with
    | some w => if w.serial = serial then { st with spin := none } else st
    | none => st)

/-- DELIVER (R61, R96). -/
def execDeliver (p : Delivery) (s : State) : Host.Outcome State Fault Refusal := .next (s.deliver p)

end Sys2Proof.Machine
end

