-- ==== Sys2Proof/Machine/Homes.lean ====
section
/-! DEFINITION. Channels and barriers: the instructions, their homes and the replies; how a wait is abandoned (spec 14
R272, R275-R282, R285-R290; 21 R349, R364). -/

namespace Sys2Proof.Machine

/-! ### Ready tasks (R272) -/

/-- The dies a task may run on (R268). -/
def Task.dies (t : Task) : BitVec 4 := if t.aff = 0 then 15#4 else t.aff

/-- A die if the task may run there, otherwise the lowest that it may run on (R272). -/
def Task.dieFor (t : Task) (d : Nat) : Nat :=
  if t.dies.getLsbD d then d else (firstBelow 4 t.dies.getLsbD).getD 0

/-- The dispatchers are told to look: a die places at most one crew every 32 cycles (R275). -/
def State.kickDispatch (s : State) : State :=
  [0, 1, 2, 3].foldl (fun (s : State) d =>
    if s.awaits (· == .dispatchPlace d) then s
    else s.post (match (s.die d).lastPlace with
      | some c => c + 32 - s.cycle
      | none => 0) (.dispatchPlace d)) s

/-- 2^20 cycles, after which an entry is held (R273). -/
def holdCycles : Nat := 2 ^ 20

/-- An entry is made in a die's pool, or joins the overflow list when the pool's 1,024 entries are taken (R272). -/
def State.poolAdd (s : State) (d : Nat) (e : PoolEntry) : State :=
  if 1024 ≤ (s.die d).pool.length then s.modDie d fun x => { x with overflow := x.overflow ++ [e] }
  else ((s.modDie d fun x => { x with pool := x.pool ++ [e] }).post holdCycles (.poolEntryHold d e.pid e.task)).kickDispatch

/-- A task becomes ready: it has at most one entry on the device (R272). -/
def State.makeReady (s : State) (pid task die : Nat) : State :=
  match (s.job? pid).bind fun j => j.task? task with
  | none => s
  | some t =>
    if t.phase = .ready then s
    else
      (s.modJob pid fun j => j.modTask task fun t => { t with phase := .ready }).poolAdd (t.dieFor die) ⟨pid, task, s.cycle, false⟩

/-! ### Distances (R275) -/

/-- Half the time of a channel or barrier operation between a core and a home on this device. -/
def homeTime (core die : Nat) : Nat := if dieOf core = die then 12 else 40

/-! ### Channels (R276-R282) -/

def Job.chan? (j : Job) (n : Nat) : Option Channel := j.chans.find? fun c => c.num == n
def Job.modChan (j : Job) (n : Nat) (f : Channel → Channel) : Job :=
  { j with chans := updateFirst (fun c => c.num == n) f j.chans }
def State.chan? (s : State) (pid n : Nat) : Option Channel := (s.job? pid).bind fun j => j.chan? n
def State.modChan (s : State) (pid n : Nat) (f : Channel → Channel) : State := s.modJob pid fun j => j.modChan n f

/-- A task is finished (R267). -/
def Task.finished (t : Task) : Bool := t.phase == .settled || t.phase == .killed || t.phase == .lost

/-- The job is complete on this device (R267). -/
def State.jobOver (s : State) (j : Job) : Bool :=
  j.live && !j.done && j.tasks.all Task.finished && j.chans.all fun c => c.cdev != s.device || c.count == 0

/-- Looks whether a job is complete (R267). -/
def State.checkJob (s : State) (pid : Nat) : State :=
  match s.job? pid with
  | some j => if s.jobOver j && !s.awaits (· == .jobComplete pid) then s.post 0 (.jobComplete pid) else s
  | none => s

/-- Tokens that a consumer may take: those before a cut's marker (R373). -/
def Channel.takeable (c : Channel) : Nat := c.marker.getD c.count

/-- The reply of a channel's home: the other half of the operation's time, counted from the cycle in which the home acted, the
one before its event runs (R275). That to another device says whether the operation was an EOS, and of one without registers the channel
(log 12). -/
def State.chanReply (s : State) (ch : Channel) (op : ChanOp) (closed : Bool) (regs : List (Reg × Word)) : State :=
  match peerOf op.sid.pos with
  | some dev => s.answerPeer dev op.pid op.sid op.serial 4 ((regs.head?.map (·.2)).getD (BitVec.ofNat 64 op.chan)) ((regs[1]?.map (·.2)).getD 0)
      (boolNat closed + regs.length * 2 + ((regs.head?.map (·.1.toNat)).getD 0) * 2 ^ 3 + ((regs[1]?.map (·.1.toNat)).getD 0) * 2 ^ 8 +
        boolNat (op.val.getLsbD 63) * 2 ^ 13) 0
  | none => s.post (homeTime op.sid.core ch.homeDie - 1) (.channelReply ⟨op.sid, op.serial, closed, regs⟩)

/-- A waiting SEND ends in a trap (R281, R282). -/
def State.chanTrap (s : State) (op : ChanOp) (code : Nat) : State :=
  match peerOf op.sid.pos with
  | some dev => s.answerPeer dev op.pid op.sid op.serial 4 0 0 0 code
  | none => if (s.strand op.sid).awaits op.serial then s.trapOf op.sid code else s

/-- The consumer's park sees a token, or the pooled task becomes ready; a park that is still being registered at other homes takes effect
first (R272, R283). -/
def State.wakeTask (s : State) (pid task die : Nat) : State :=
  match (s.job? pid).bind fun j => j.task? task with
  | none => s
  | some t =>
    if t.phase = .parkedPooled then s.makeReady pid task die
    else match t.lastCore with
      | none => s
      | some core =>
        match (s.core core).parks.find? fun p => p.task == task with
        | none => s
        | some p =>
          let s := s.modCore core fun c =>
            { c with parks := updateFirst (fun p => p.task == task) (fun p => if p.stage = 2 then { p with woken := some die } else { p with token := true }) c.parks }
          if p.stage = 3 then s.post (homeTime core die - 1) (.parkTakeEffect core task) else s

/-- A token enters the ring (R278). -/
def State.enqueueToken (s : State) (pid : Nat) (ch : Channel) (x : Word) : State :=
  let s := s.physStore (ch.base + 8 * ch.tail) (bytesOfNat 8 x.toNat)
  let s := s.modChan pid ch.num fun c =>
    { c with tail := (c.tail + 1) % c.cap, count := c.count + 1, closedP := c.closedP || x.getLsbD 63, moved := s.cycle - 1 }
  if ch.parked then s.wakeTask pid ch.ctask ch.homeDie else s

/-- A token leaves the ring (R278). -/
def State.dequeueToken (s : State) (pid : Nat) (ch : Channel) : Word × State :=
  let (bs, s) := s.physRead (ch.base + 8 * ch.head) 8
  let x := BitVec.ofNat 64 (natOfBytes bs)
  (x, s.modChan pid ch.num fun c =>
    { c with
      head := (c.head + 1) % c.cap
      count := c.count - 1
      closedC := c.closedC || x.getLsbD 63
      marker := c.marker.map (· - 1)
      moved := s.cycle - 1 })

/-- Serves what waits at a channel, in order of arrival: an end of the stream closes the waiting RECVs, a token goes to the
oldest RECV, room to the oldest SEND (R278, R285). -/
def State.serveChannel (pid n : Nat) : Nat → State → State
  | 0, s => s
  | fuel + 1, s =>
    match s.chan? pid n with
    | none => s
    | some ch =>
      match ch.recvs with
      | op :: rest =>
        if ch.closedC then
          serveChannel pid n fuel ((s.modChan pid n fun c => { c with recvs := rest }).chanReply ch op true [])
        else if ch.takeable ≠ 0 then
          let (x, s) := s.dequeueToken pid ch
          serveChannel pid n fuel ((s.modChan pid n fun c => { c with recvs := rest }).chanReply ch op false [(op.d, x)])
        else serveSend pid n ch fuel s
      | [] => serveSend pid n ch fuel s
where
  serveSend (pid n : Nat) (ch : Channel) (fuel : Nat) (s : State) : State :=
    match ch.sends with
    | (op, _) :: rest =>
      if ch.closedP then
        serveChannel pid n fuel ((s.modChan pid n fun c => { c with sends := rest }).chanReply ch op true [])
      else if ch.sink then
        let s := s.modChan pid n fun c => { c with sends := rest, closedP := op.val.getLsbD 63 }
        serveChannel pid n fuel (s.chanReply ch op false [])
      else if ch.count < ch.cap then
        let s := (s.modChan pid n fun c => { c with sends := rest }).enqueueToken pid ch op.val
        serveChannel pid n fuel (s.chanReply ch op false [])
      else s
    | [] =>
      if ch.lostEos && !ch.closedP && ch.count < ch.cap then s.post 0 (.lostEosEnqueue pid n) else s

/-- Enough for everything that can be served at once. -/
def Channel.work (c : Channel) : Nat := 2 * (c.sends.length + c.recvs.length) + 2

/-- Serves a channel until nothing more can go on, then looks whether the job is over. -/
def State.serve (s : State) (pid n : Nat) : State :=
  match s.chan? pid n with
  | none => s
  | some ch => (State.serveChannel pid n (2 * ch.work) s).checkJob pid

/-- 65,536 cycles, after which a ring of waiting SENDs is ended (R281). -/
def ringCycles : Nat := 65536

/-- A SEND or EOS acts at the channel's home (R278). -/
def State.tokenArrives (s : State) (op : ChanOp) : State :=
  match s.chan? op.pid op.chan with
  | none => s
  | some ch =>
    if ch.closedP then s.chanReply ch op true []
    else if ch.sink then
      (s.modChan op.pid op.chan fun c => { c with closedP := c.closedP || op.val.getLsbD 63 }).chanReply ch op false []
    else if ch.sends.isEmpty && ch.count < ch.cap then
      ((s.enqueueToken op.pid ch op.val).chanReply ch op false []).serve op.pid op.chan
    else
      let gone := 1 + if (peerOf op.sid.pos).isSome then 0 else homeTime op.sid.core ch.homeDie
      let s := s.modChan op.pid op.chan fun c => { c with sends := c.sends ++ [(op, s.cycle - gone)] }
      if op.val.getLsbD 63 then s else s.post (ringCycles - gone) (.channelCycle op.pid op.chan)

/-- SEND_AT_HOME (R277, R278). -/
def execSendAtHome (op : ChanOp) (s : State) : Host.Outcome State Fault Refusal := guardPhysical (s.tokenArrives op)

/-- EOS_AT_HOME (R277, R278). -/
def execEosAtHome (op : ChanOp) (s : State) : Host.Outcome State Fault Refusal := guardPhysical (s.tokenArrives op)

/-- RECV_AT_HOME (R277, R278). -/
def execRecvAtHome (op : ChanOp) (s : State) : Host.Outcome State Fault Refusal :=
  guardPhysical ((s.modChan op.pid op.chan fun c => { c with recvs := c.recvs ++ [op] }).serve op.pid op.chan)

/-- RECVNB_AT_HOME (R277, R278): without waiting; a RECV that waits is served first. -/
def execRecvnbAtHome (op : ChanOp) (s : State) : Host.Outcome State Fault Refusal :=
  guardPhysical (match s.chan? op.pid op.chan with
    | none => s
    | some ch =>
      if ch.closedC then s.chanReply ch op false [(op.d, 2 ^ 63), (op.a, 2)]
      else if ch.takeable = 0 then s.chanReply ch op false [(op.d, 0), (op.a, 0)]
      else
        let (x, s) := s.dequeueToken op.pid ch
        (s.chanReply ch op false [(op.d, x), (op.a, 1)]).serve op.pid op.chan)

/-- A home's results reach the strand that waits: Dest waits for the registers, which `again` tries once more, and then writes
them, and the strand goes on (R61, R278, R290). -/
def State.landRegs (s : State) (sid : SId) (serial : Nat) (regs : List (Reg × Word)) (again : Instr) : State :=
  match firstNotReady ({ s with cur := sid }).destReady (regs.map fun p => Opnd.s p.1 false) with
  | .trap c => s.trapOf sid c
  | .wait _ => s.post 0 again
  | .go => (s.asStrand sid fun s => regs.foldl (fun s p => s.putS p.1 p.2) s).endWait sid serial 1

/-- The reply of a channel's home reaches the strand: its registers, or Channel Closed (R278). -/
def State.takeChannelReply (s : State) (r : ChanReply) : State :=
  if !(s.strand r.sid).awaits r.serial then s
  else if r.closed then s.trapOf r.sid causeChannelClosed
  else s.landRegs r.sid r.serial r.regs (.channelReply r)

/-- CHANNEL_REPLY (R275, R278). -/
def execChannelReply (r : ChanReply) (s : State) : Host.Outcome State Fault Refusal := .next (s.takeChannelReply r)

/-- LOST_EOS_ENQUEUE (R285): the end of the stream that a lost or killed producer did not send enters as soon as there is
room. -/
def execLostEosEnqueue (pid chan : Nat) (s : State) : Host.Outcome State Fault Refusal :=
  guardPhysical (match s.chan? pid chan with
    | none => s
    | some ch =>
      if ch.closedP then s
      else if ch.sink then (s.modChan pid chan fun c => { c with closedP := true, lostEos := false }).checkJob pid
      else if ch.count < ch.cap then
        ((s.modChan pid chan fun c => { c with lostEos := false }).enqueueToken pid ch (2 ^ 63 + 1)).serve pid chan
      else s.modChan pid chan fun c => { c with lostEos := true })

/-! ### Rings and stalls (R281, R282) -/

/-- A SEND, and no EOS, waits on the full ring: an edge from the producer to the consumer. -/
def Channel.edge (c : Channel) : Bool := c.sends.any fun p => !p.1.val.getLsbD 63

/-- The cycle from which a channel's edge and tokens have stood still. -/
def Channel.stillSince (c : Channel) : Nat :=
  max c.moved (((c.sends.find? fun p => !p.1.val.getLsbD 63).map (·.2)).getD 0)

/-- The channel has an edge that has stood still for 65,536 cycles. -/
def Channel.stands (c : Channel) (now : Nat) : Bool := c.edge && c.stillSince + ringCycles ≤ now

/-- A path of still edges from a task to a task over channels homed on a die: their numbers. -/
def Job.path (j : Job) (now die : Nat) (goal : Nat × Nat) : Nat → Nat × Nat → List Nat → Option (List Nat)
  | 0, _, _ => none
  | fuel + 1, here, seen =>
    if here = goal then some []
    else
      (j.chans.filter fun c => c.homeDie == die && c.stands now && (c.pdev, c.ptask) == here && !seen.contains c.num).findSome? fun c =>
        (Job.path j now die goal fuel (c.cdev, c.ctask) (c.num :: seen)).map (c.num :: ·)

/-- The ring of still edges through a channel (R281). -/
def Job.ring (j : Job) (now : Nat) (c : Channel) : Option (List Nat) :=
  if c.stands now then (j.path now c.homeDie (c.pdev, c.ptask) (j.chans.length + 1) (c.cdev, c.ctask) [c.num]).map (c.num :: ·) else none

/-- Cycles until another edge of a die has stood still long enough; 0 where there is none. -/
def Job.nextStill (j : Job) (now die : Nat) : Nat :=
  (j.chans.filter fun c => c.homeDie == die && c.edge && !c.stands now).foldl (fun n c =>
    let k := c.stillSince + ringCycles - now
    if n = 0 then k else min n k) 0

/-- CHANNEL_CYCLE (R281): a ring that has stood still for 65,536 cycles is ended; each of its waiting SENDs traps. While the
channel's own edge stands, the next edge to have stood so long is looked at. -/
def execChannelCycle (pid chan : Nat) (s : State) : Host.Outcome State Fault Refusal :=
  .next (match (s.job? pid).bind fun j => (j.chan? chan).map fun c => (j, c) with
    | none => s
    | some (j, ch) =>
      let now := s.cycle - 1
      match j.ring now ch with
      | none =>
        let n := j.nextStill now ch.homeDie
        if ch.edge && n ≠ 0 then s.post (n - 1) (.channelCycle pid chan) else s
      | some ns =>
        (j.chans.filter fun c => ns.contains c.num).foldl (fun s c =>
          let (out, left) := c.sends.partition fun p => !p.1.val.getLsbD 63
          let s := s.modChan pid c.num fun x => { x with sends := left, moved := now }
          out.foldl (fun s p => s.chanTrap p.1 causeChannelCycle) s) s)

/-- The message that takes back the waiting operation of a strand at a home on another device (log 12). -/
def State.cancelMsg (s : State) (sid : SId) (n dev op code : Nat) : Msg :=
  { s.blankMsg dev op (s.pidOf sid) with tag := reqTag sid n 0, opnd := (2 ^ 7 + code * 2 ^ 16) * 2 ^ 128 }

/-- The waiting operation of a strand at a home on another device is to be taken back; the strand waits for the answer, and takes
the trap `code` where it is not 0 (R280, R282; log 12). -/
def State.sendCancel (s : State) (sid : SId) (n dev op code : Nat) : State :=
  (s.modStrand sid fun st => { st with wait := some (.cancel n) }).sendMsg sid.core (s.cancelMsg sid n dev op code)

/-- SEND_STALL (R282): the SEND that still waits traps; one at a home on another device is taken back first. -/
def execSendStall (op : ChanOp) (s : State) : Host.Outcome State Fault Refusal :=
  .next (match s.chan? op.pid op.chan with
    | none => s
    | some ch =>
      if ch.sends.any fun p => p.1 == op then
        (s.modChan op.pid op.chan fun c => { c with sends := c.sends.filter (fun p => p.1 != op), moved := s.cycle - 1 }).chanTrap op
          causeSendStall
      else if ch.cdev = s.device || (s.strand op.sid).wait ≠ some (.reply op.serial) then s
      else if (s.core op.sid.core).cannotSend then s.post 0 (.sendStall op)
      else s.sendCancel op.sid op.serial ch.cdev opChannel causeSendStall)

/-! ### The channel instructions (R278) -/

/-- A task channel of the running strand's task: whether it is an input, and the channel's number. -/
def State.myChan (s : State) (i : Nat) : Option (Bool × Nat) := s.myTask?.bind fun t => (t.chans[i]?).getD none

/-- A Hasp or supervisor strand, which has no task (R278, R283, R287, R400). -/
def State.noTask (s : State) : Bool := s.isHasp || s.isSup

/-- The operation leaves for its channel's home; `kind` is the OP field. A SEND's stall is counted from its issue, wherever the home is
(R282). -/
def State.toChannelHome (s : State) (kind : Nat) (op : ChanOp) : State :=
  let limit := ((s.job? op.pid).map (·.sendStall)).getD 0
  let s := if kind = 0 && limit ≠ 0 then s.post (limit * 1024) (.sendStall op) else s
  match s.chan? op.pid op.chan with
  | none => s
  | some ch =>
    if ch.cdev = s.device then
      s.post (homeTime op.sid.core ch.homeDie) (match kind with
        | 0 => .sendAtHome op
        | 1 => .recvAtHome op
        | 2 => .recvnbAtHome op
        | _ => .eosAtHome op)
    else
      let s := s.modStrand op.sid fun st => { st with far := some (ch.cdev, opChannel) }
      s.sendMsg op.sid.core
        { s.blankMsg ch.cdev opChannel op.pid with
          addr := op.chan
          tag := reqTag op.sid op.serial 0
          opnd := op.val.toNat + (kind + op.d.toNat * 2 ^ 8 + op.a.toNat * 2 ^ 16) * 2 ^ 128 }

/-- The course of a channel instruction: it issues, and the strand waits for the home's reply, after which Dest waits for d and
a (R278). -/
def chanForm (kind : Nat) (input : Bool) (f : RF) (srcs : List Opnd) (val : State → Word) (s : State) : State :=
  if s.noTask then s.trap causeTaskState 0
  else match s.myChan f.b.toNat with
    | none => s.trap causeChannelInvalid 0
    | some (isIn, n) =>
      if isIn ≠ input then s.trap causeChannelInvalid 0
      else s.withSources 0 srcs [] fun s =>
        let away := (s.chan? (s.pidOf s.cur) n).any fun ch => ch.cdev != s.device
        if s.holdsLater s.cur || (!input && !s.quiet s.cur) || (away && s.myCore.cannotSend) then s.lend .poll
        else
          let x := val s
          let (k, s) := s.nextSerial
          ((s.popAll srcs).toChannelHome kind ⟨s.cur, s.pidOf s.cur, n, x, f.d, f.a, k⟩).stay (.reply k)

/-- SEND #c, a (R278): bit 63 of the value is cleared; a release. -/
def execSend (f : RF) (s : State) : Host.Outcome State Fault Refusal :=
  .next (chanForm 0 false f [.s f.a f.ta] (fun s => s.sval f.a &&& ~~~(1#64 <<< 63)) s)

/-- RECV d, #c (R278). -/
def execRecv (f : RF) (s : State) : Host.Outcome State Fault Refusal :=
  .next (chanForm 1 true f [] (fun _ => 0) s)

/-- RECVNB d, a, #c (R278): a takes the status. -/
def execRecvnb (f : RF) (s : State) : Host.Outcome State Fault Refusal :=
  .next (chanForm 2 true f [] (fun _ => 0) s)

/-- EOS #c (R278): a release. -/
def execEos (f : RF) (s : State) : Host.Outcome State Fault Refusal :=
  .next (chanForm 3 false f [] (fun _ => 2 ^ 63) s)

/-! ### Barriers (R286-R290) -/

def State.modBarrier (s : State) (pid g : Nat) (f : Barrier → Barrier) : State :=
  s.modJob pid fun j => { j with barriers := updateFirst (fun b => b.group == g) f j.barriers }

/-- The reply of a barrier's home. -/
def State.barReply (s : State) (op : BarOp) (refused arrival ends : Bool) (p : Nat) : State :=
  match peerOf op.sid.pos with
  | some dev => s.answerPeer dev op.pid op.sid op.serial 5 (BitVec.ofNat 64 p) 0
      (boolNat refused + 2 * boolNat arrival + 4 * boolNat ends + op.memb * 8 + op.d.toNat * 32) 0
  | none =>
    let die := ((s.group? op.pid op.group).map (·.homeDie)).getD 0
    s.post (homeTime op.sid.core die - 1) (.barrierReply ⟨op.sid, op.memb, refused, p, arrival, ends, op.d, op.serial⟩)

/-- arrive(member, drop) of R290: whether phase p completes. -/
def Barrier.arrive (b : Barrier) (member : Nat × Nat) (drop : Bool) : Barrier × Bool :=
  let b := { b with arr := member :: b.arr, n := b.n + 1 }
  let b := if drop then { b with drop := member :: b.drop, d := b.d + 1 } else b
  if b.n = b.e then ({ b with ph := (b.ph + 1) % 2 ^ 32, e := b.e - b.d, n := 0, d := 0, arr := [] }, true) else (b, false)

/-- PHASE_COMPLETE (R290): every BWAIT on the phase is released. -/
def State.releaseWaiters (s : State) (pid g p : Nat) : State :=
  match (s.job? pid).bind fun j => j.barriers.find? fun b => b.group == g with
  | none => s
  | some b =>
    let (out, left) := b.waiters.partition fun w => w.2 == p
    out.foldl (fun s w => s.barReply w.1 false false true p) (s.modBarrier pid g fun b => { b with waiters := left })

/-- The member that an operation speaks for: a task of a device (R288). -/
def State.memberOf (s : State) (op : BarOp) : Nat × Nat := ((peerOf op.sid.pos).getD s.device, op.task)

/-- A barrier operation acts at the group's home (R290). -/
def State.barrierAt (s : State) (op : BarOp) : State :=
  match (s.job? op.pid).bind fun j => j.barriers.find? fun b => b.group == op.group with
  | none => s
  | some b =>
    match op.phase with
    | some p =>
      if b.ph ≠ p then s.barReply op false false true p
      else s.modBarrier op.pid op.group fun b => { b with waiters := b.waiters ++ [(op, p)] }
    | none =>
      let member := s.memberOf op
      if b.drop.contains member || b.arr.contains member then s.barReply op true false true 0
      else
        let p := b.ph
        let (b', complete) := b.arrive member op.drop
        let s := s.modBarrier op.pid op.group fun _ => b'
        let s := if complete then s.releaseWaiters op.pid op.group p else s
        if op.sync && !complete then
          (s.modBarrier op.pid op.group fun b => { b with waiters := b.waiters ++ [(op, p)] }).barReply op false true false p
        else s.barReply op false true true p

/-- BARRIER_ARRIVE_AT_HOME (R290). -/
def execBarrierArriveAtHome (op : BarOp) (s : State) : Host.Outcome State Fault Refusal := .next (s.barrierAt op)

/-- An implicit drop at the group's home (R285, R290): nothing for a member that has dropped; never an over-arrival. -/
def State.dropAtHome (s : State) (pid g : Nat) (member : Nat × Nat) : State :=
  match (s.job? pid).bind fun j => j.barriers.find? fun b => b.group == g with
  | none => s
  | some b =>
    if b.drop.contains member then s
    else if b.arr.contains member then s.modBarrier pid g fun b => { b with drop := member :: b.drop, d := b.d + 1 }
    else
      let (b', complete) := b.arrive member true
      let s := s.modBarrier pid g fun _ => b'
      if complete then s.releaseWaiters pid g b.ph else s

/-- IMPLICIT_DROP (R285, R290): at the home, or by a message to its device. -/
def execImplicitDrop (pid task memb : Nat) (s : State) : Host.Outcome State Fault Refusal :=
  .next (match (s.job? pid).bind fun j => (j.task? task).bind fun t => ((t.memb[memb]?).getD none).bind j.group? with
    | none => s
    | some g =>
      if g.kind ≠ 1 then s
      else if g.homeDev = s.device then s.dropAtHome pid g.index (s.device, task)
      else s.hubSend { s.blankMsg g.homeDev opBarrier pid with group := g.index, opnd := task + 8 * 2 ^ 128 })

/-- The crew of a task on a core. -/
def State.modCrew (s : State) (core task : Nat) (f : Crew → Crew) : State := s.modOwned core (.crew task) f

/-- The reply of a barrier's home reaches the strand (R290): LAST is kept with the crew. -/
def State.takeBarrierReply (s : State) (r : BarReply) : State :=
  let s := if r.arrival then s.modOwned r.sid.core (s.ownerOf r.sid) fun w =>
      { w with lastPhase := w.lastPhase.setIfInBounds r.memb (some r.phase) } else s
  if !(s.strand r.sid).awaits r.serial then s
  else if r.refused then s.trapOf r.sid causeOverArrival
  else if r.ends then s.landRegs r.sid r.serial [(r.d, BitVec.ofNat 64 r.phase)] (.barrierReply r)
  else s

/-- BARRIER_REPLY (R275, R290). -/
def execBarrierReply (r : BarReply) (s : State) : Host.Outcome State Fault Refusal := .next (s.takeBarrierReply r)

/-- The operation leaves for its group's home. -/
def State.toBarrierHome (s : State) (g : Group) (op : BarOp) : State :=
  if g.homeDev = s.device then s.post (homeTime op.sid.core g.homeDie) (.barrierArriveAtHome op)
  else (s.modStrand op.sid fun st => { st with far := some (g.homeDev, opBarrier) }).sendMsg op.sid.core { s.blankMsg g.homeDev opBarrier op.pid with
    group := op.group
    tag := reqTag op.sid op.serial 0
    opnd := op.task + (op.phase.getD 0) * 2 ^ 64 +
      (boolNat op.drop + 2 * boolNat op.sync + 4 * boolNat op.phase.isSome + op.memb * 2 ^ 8 + op.d.toNat * 2 ^ 16) * 2 ^ 128 }

/-- The course of a barrier instruction (R287-R290); `kind` is the OP field. -/
def barrierForm (kind : Nat) (f : RF) (s : State) : State :=
  let m := f.b.toNat
  if s.noTask then s.trap causeTaskState 0
  else match s.myTask?.bind fun t => (t.memb[m]?).getD none with
    | none => s.trap causeIllegal 0
    | some n =>
      match s.group? (s.pidOf s.cur) n with
      | none => s.trap causeGroupKind 0
      | some g =>
        if g.kind ≠ 1 then s.trap causeGroupKind 0
        else
          let half := (s.myRank, m)
          let resumed := kind == 2 && s.myCrew.synced.contains half
          let waits := kind == 1 || resumed
          let last := (s.myCrew.lastPhase[m]?).getD none
          if waits && last.isNone then s.withDests 0 [.s f.d false] fun s => (s.putS f.d all1).retire 1
          else if s.holdsLater s.cur || (!waits && !s.quiet s.cur) || (g.homeDev ≠ s.device && s.myCore.cannotSend) then s.lend .poll
          else
            let (k, s) := s.nextSerial
            let s := if resumed then s.modMyCrew fun w => { w with synced := w.synced.filter (· != half) } else s
            let op : BarOp :=
              { sid := s.cur, pid := s.pidOf s.cur, task := s.myCrew.task, group := n, memb := m, drop := kind == 3,
                sync := kind == 2, phase := if waits then last else none, d := f.d, serial := k }
            (s.toBarrierHome g op).stay (.reply k)

/-- BARRIVE (R290). -/
def execBarrive (f : RF) (s : State) : Host.Outcome State Fault Refusal := .next (barrierForm 0 f s)
/-- BWAIT (R290). -/
def execBwait (f : RF) (s : State) : Host.Outcome State Fault Refusal := .next (barrierForm 1 f s)
/-- BSYNC (R290). -/
def execBsync (f : RF) (s : State) : Host.Outcome State Fault Refusal := .next (barrierForm 2 f s)
/-- BDROP (R290). -/
def execBdrop (f : RF) (s : State) : Host.Outcome State Fault Refusal := .next (barrierForm 3 f s)

/-! ### Abandoning a wait (R198, R280, R349, R364) -/

/-- The replies on their way to a strand take effect: the home has acted first (R280). -/
def State.landReplies (s : State) (sid : SId) (serial : Nat) : State :=
  let mine := s.pending.filter fun e => match e.ev with
    | .channelReply r => r.sid == sid && r.serial == serial
    | .barrierReply r => r.sid == sid && r.serial == serial
    | _ => false
  let s := { s with pending := s.pending.filter fun e => !mine.contains e }
  mine.foldl (fun s e => match e.ev with
    | .channelReply r => s.takeChannelReply r
    | .barrierReply r => s.takeBarrierReply r
    | _ => s) s

/-- The channel and barrier operations of a wait that have not acted are cancelled; whether there were any (R280). -/
def State.cancelHomes (s : State) (sid : SId) (serial : Nat) : Bool × State :=
  let mine (x : SId) (n : Nat) : Bool := x == sid && n == serial
  let due := s.awaits fun e => match e with
    | .sendAtHome op | .eosAtHome op | .recvAtHome op | .recvnbAtHome op => mine op.sid op.serial
    | .barrierArriveAtHome op => mine op.sid op.serial
    | _ => false
  let s' := s.withdraw fun e => match e with
    | .sendAtHome op | .eosAtHome op | .recvAtHome op | .recvnbAtHome op => mine op.sid op.serial
    | .barrierArriveAtHome op => mine op.sid op.serial
    | _ => false
  let held := s.jobs.any fun j =>
    j.chans.any (fun c => c.sends.any (fun p => mine p.1.sid p.1.serial) || c.recvs.any fun p => mine p.sid p.serial) ||
      j.barriers.any fun b => b.waiters.any fun w => mine w.1.sid w.1.serial
  let halves := s.jobs.flatMap fun j => j.barriers.flatMap fun b =>
    (b.waiters.filter fun w => mine w.1.sid w.1.serial && w.1.sync && w.1.phase.isNone).map fun w => (w.1.memb, w.2)
  let clear (c : Channel) : Channel :=
    let left := c.sends.filter fun p => !mine p.1.sid p.1.serial
    { c with
      sends := left
      recvs := c.recvs.filter fun p => !mine p.sid p.serial
      moved := if left.length < c.sends.length then s.cycle else c.moved }
  let calm (b : Barrier) : Barrier := { b with waiters := b.waiters.filter fun w => !mine w.1.sid w.1.serial }
  let strip (j : Job) : Job := { j with chans := j.chans.map clear, barriers := j.barriers.map calm }
  let s' := { s' with jobs := s'.jobs.map strip }
  let rank := (((s.owned sid.core (s.ownerOf sid)).pos.findIdx? (· == sid.pos))).getD 0
  let s' := s'.modOwned sid.core (s.ownerOf sid) fun w =>
    halves.foldl (fun w h => { w with synced := (rank, h.1) :: w.synced, lastPhase := w.lastPhase.setIfInBounds h.1 (some h.2) }) w
  (due || held, s')

/-- The lock, sync-word or WAITNE request of a wait is cancelled at its home; a counted waiting writer is taken back, on another device
by a request that does nothing else (R198, R199, R201; log 12). -/
def State.cancelRequest (s : State) (r : Req) : State :=
  let s := match r.elems.head? with
    | some e =>
      if !(r.counted && r.kind.isLock) then s
      else if 2 ≤ r.space && r.source.isNone then
        let (id, s) := s.nextSerial
        s.addReq { r with
          id := id, serial := 0, kind := .lock 5 true, dst := .none, dead := true, counted := false, attempts := 0
          elems := [{ e with phase := .walk, data := [] }] }
      else
        let w := s.lockRead e
        ((s.lockWrite e (putField w 48 14 (lkWw w - 1))).grantLocks e.pa).wroteLock e
    | none => s
  (s.unreserve r).dropReq r.id

/-- The parks of a task are no longer registered at its inputs' homes (R283). -/
def State.unregister (s : State) (core pid task : Nat) : State :=
  let s := s.withdraw fun e => match e with
    | .parkRegister c t _ => c == core && t == task
    | .parkTakeEffect c t => c == core && t == task
    | _ => false
  s.modJob pid fun j => { j with chans := j.chans.map fun c =>
    if c.cdev == s.device && c.ctask == task then { c with parked := false } else c }

/-- A strand leaves its crew's park (R283, R349): the park starts again when it parks again. -/
def State.leavePark (s : State) (sid : SId) : State :=
  let left (p : Park) : Park :=
    if p.strands.contains sid then { p with strands := p.strands.filter (· != sid), stage := 0, waiting := [], token := false, woken := none } else p
  let w := s.owned sid.core (s.ownerOf sid)
  (s.unregister sid.core w.pid w.task).modCore sid.core fun c =>
    { c with parks := (c.parks.filter fun p => p.strands != [sid]).map left }

/-- A message of the strand that its core's interface has not injected is taken back; whether there was one (R318). -/
def State.unsend (s : State) (sid : SId) (n : Nat) : Bool × State :=
  let c := s.core sid.core
  let mine (m : Msg) : Bool := m.tag == reqTag sid n 0 && m.op != opReply
  (c.inject.any mine, s.modCore sid.core fun c => { c with inject := c.inject.filter fun m => !mine m })

/-- The strand stands in its crew's park, and whether the park has taken effect. -/
def State.parkOf (s : State) (sid : SId) : Option Park := (s.core sid.core).parks.find? fun p => p.strands.contains sid

/-- The strand's ACQ that the Tumbler has granted. -/
def State.grantedAcq (s : State) (sid : SId) : Option (AcqWait × Word) :=
  (s.core sid.core).acqs.findSome? fun a => if a.sid == sid && a.res.isSome then a.granted.map fun x => (a, x) else none

/-- A granted ACQ has taken place: its result lands once d is free, and the strand goes on (R127, R131; log 20). -/
def State.landAcq (s : State) (sid : SId) (a : AcqWait) (x : Word) : Bool × State :=
  let over_ (s : State) : State := s.modCore sid.core fun c => { c with acqs := c.acqs.filter fun b => b.serial != a.serial }
  match firstNotReady ({ s with cur := sid }).destReady [.s a.d false] with
  | .wait _ => (false, s)
  | .trap c => (true, (over_ s).trapOf sid c)
  | .go =>
    let s := (over_ s).asStrand sid fun s => (s.popAll (a.src.toList.map fun r => .s r false)).putS a.d x
    (true, s.modStrand sid fun st => { st with issued := st.issued + 1, wait := none }.goNext (st.next a.words))

/-- A home's answer to the strand is about to land. -/
def State.answered (s : State) (sid : SId) (serial : Nat) : Bool :=
  s.awaits fun e => match e with
    | .channelReply r => r.sid == sid && r.serial == serial
    | .barrierReply r => r.sid == sid && r.serial == serial
    | _ => false

/-- The wait for a home's reply is abandoned: what the home has done lands, what has not reached it or still waits there is taken
back; at a home on another device by a message, whose answer is waited for (R280, R349, R364). -/
def State.abandonReply (s : State) (sid : SId) (n : Nat) : Bool × State :=
  let still := fun (s : State) => (true, s.modStrand sid fun st => { st with wait := none })
  let cancel := fun (s : State) (dev op : Nat) => (false, if (s.core sid.core).cannotSend then s else s.sendCancel sid n dev op 0)
  let s := s.landReplies sid n
  if (s.strand sid).wait ≠ some (.reply n) then (true, s)
  else if s.answered sid n then (false, s)
  else match s.parkOf sid with
    | some p => if p.stage = 3 then (false, s) else still (s.leavePark sid)
    | none =>
      let (sent, t) := s.unsend sid n
      match s.reqs.find? fun r => r.sid == sid && r.serial == n with
      | some r =>
        if 2 ≤ r.space && !sent && r.elems.any (fun e => e.phase == .home) then cancel s r.peer opAtomic
        else still (t.cancelRequest r)
      | none =>
        let (any, t) := t.cancelHomes sid n
        if any || sent then still t
        else match (s.strand sid).far with
          | some (dev, op) => cancel s dev op
          | none => (false, s)

/-- The strand abandons the wait it is in, or its home's reply lands; false where that is not decided yet: an operation at a home on
another device, a park that has taken effect, or a result that waits for its register (R280, R349, R364). -/
def State.abandon (s : State) (sid : SId) : Bool × State :=
  let still := fun (s : State) => (true, s.modStrand sid fun st => { st with wait := none })
  match s.grantedAcq sid, (s.strand sid).wait with
  | some (a, x), _ => s.landAcq sid a x
  | none, some (.reply n) => s.abandonReply sid n
  | none, some (.cancel _) => (false, s)
  | none, some (.acq n) => still (s.modCore sid.core fun c => { c with acqs := c.acqs.filter fun a => a.serial != n })
  | none, _ => still s

/-- A KILL takes the waiting operation of a strand back from a home on another device also while the core's interface accepts no message: the
cancel stands behind the spilled ones (R280, R318, R357). -/
def State.forceCancel (s : State) (sid : SId) : State :=
  match (s.strand sid).wait with
  | some (.reply n) =>
    let send := fun (dev op : Nat) => s.modCore sid.core fun c => { c with spilled := c.spilled ++ [s.cancelMsg sid n dev op 0] }
    if s.answered sid n || (s.parkOf sid).isSome then s
    else match s.reqs.find? fun r => r.sid == sid && r.serial == n with
      | some r => if 2 ≤ r.space && r.elems.any (fun e => e.phase == .home) then send r.peer opAtomic else s
      | none => match (s.strand sid).far with
        | some (dev, op) => send dev op
        | none => s
  | _ => s

/-- A cancel from another device: what waits here for the operation goes, a BSYNC's counted arrival stays, and the answer says whether
there was any (R280, R290; log 12). -/
def State.cancelHere (s : State) (m : Msg) (sid : SId) (n code : Nat) : State :=
  let answer := fun (s : State) (flags : Nat) => s.answerPeer m.src m.pid sid n 8 0 0 flags code
  match s.reqs.find? fun r => r.source == some (m.src, m.tag) with
  | some r => answer (s.cancelRequest r) 1
  | none =>
    let half := s.jobs.findSome? fun j => j.barriers.findSome? fun b =>
      (b.waiters.find? fun w => w.1.sid == sid && w.1.serial == n && w.1.sync && w.1.phase.isNone).map fun w => w.1.memb
    let (any, t) := s.cancelHomes sid n
    answer t (boolNat any + match half with
      | some m => 2 + 4 * m
      | none => 0)

/-- The answer to a cancel reaches the strand: the wait is over, and a BSYNC's arrival is remembered (R280, R290); a stalled SEND traps
(R282). -/
def State.cancelled (s : State) (sid : SId) (n flags code : Nat) : State :=
  if (s.strand sid).wait ≠ some (.cancel n) || !bit flags 0 then s
  else
    let o := s.ownerOf sid
    let rank := ((s.owned sid.core o).pos.findIdx? (· == sid.pos)).getD 0
    let s := match s.req? n with
      | some r => (s.unreserve r).dropReq n
      | none => s
    let s := s.modStrand sid fun st => { st with wait := none }
    let s := if bit flags 1 then s.modOwned sid.core o fun w => { w with synced := (rank, field flags 2 2) :: w.synced } else s
    if code = 0 then s else s.trapOf sid code

end Sys2Proof.Machine
end

