-- ==== Sys2Proof/Machine/CrewRes.lean ====
section
/-! DEFINITION. Claims, acquisitions and releases, views, VMOV, and the stack accesses (spec 06 R121, R126-R134, R400). -/

namespace Sys2Proof.Machine

/-! ### CLAIM, ACQ, REL (R127-R129) -/

/-- The resource of a QF field (R47). -/
def resIndex (f : RF) : Nat := f.qf.toNat

/-- Sets one component. -/
def Res.put (x : Res) (r n : Nat) : Res := if r = 0 then { x with rq := n } else if r = 1 then { x with sl := n } else { x with ac := n }

/-- CLAIM's effect (R129): claim := max(holding, min(claim, n)); the Tumbler looks again (R126). -/
def claimForm (words : Nat) (f : RF) (srcs : List Opnd) (amount : State → Nat) (s : State) : State :=
  s.issue 0 srcs [.s f.d false] noTrap fun o s =>
    let w := o.myCrew
    let r := resIndex f
    let new := max (w.hold.amount r) (min (w.claim.amount r) (amount o))
    let s := s.modMyCrew fun w => { w with claim := w.claim.put r new }
    ((s.tumble s.cur.core).putS f.d (BitVec.ofNat 64 new)).retire words

/-- CLAIM d, a (R129). -/
def execClaim (f : RF) (s : State) : Host.Outcome State Fault Refusal :=
  .next (claimForm 1 f [.s f.a f.ta] (fun o => (o.sval f.a).toNat) s)

/-- CLAIM d, #n (R129). -/
def execClaimImmediate (f : RF) (x : Ext) (s : State) : Host.Outcome State Fault Refusal :=
  .next (claimForm 3 f [] (fun _ => x.immA) s)

/-- The waiting request of the running strand's ACQ. -/
def State.myAcq (s : State) : Option AcqWait := s.myCore.acqs.find? fun a => a.sid == s.cur && a.res.isSome

/-- Removes the running strand's waiting request. -/
def State.dropMyAcq (s : State) : State := s.modMyCore fun c => { c with acqs := c.acqs.filter fun a => !(a.sid == s.cur && a.res.isSome) }

/-- The register of a scalar operand. -/
def Opnd.sreg? : Opnd → Option Reg
  | .s r _ => some r
  | _ => none

/-- Queues the request that the running strand's ACQ makes (R126). -/
def State.queueAcq (s : State) (words : Nat) (f : RF) (srcs : List Opnd) (r n : Nat) (granted : Option Word) : Nat × State :=
  let (k, s) := s.nextSerial
  (k, s.modMyCore fun c => { c with acqs := c.acqs ++ [⟨s.cur, k, some r, n, granted, f.d, srcs.head?.bind Opnd.sreg?, words⟩] })

/-- A granted ACQ completes: its result goes to d, once d is full (R127). -/
def acqDone (words : Nat) (f : RF) (srcs : List Opnd) (x : Word) (s : State) : State :=
  s.withDests 0 [.s f.d false] fun s => (((s.dropMyAcq).popAll srcs).putS f.d x).retire words

/-- Trap conditions of ACQ (R121, R127): those of its destination too, since nothing is granted to an instruction that traps (R61, R136). -/
def acqTrap (r n : Nat) (d : Opnd) (s : State) : Option Nat :=
  if s.myCrew.claim.amount r < s.myCrew.hold.amount r + n then some causeClaimExceeded
  else match s.destReady d with
    | .trap c => some c
    | _ => none

/-- The grant that the running strand's ACQ has waited for: its own, by resource and destination (R126). -/
def State.acqGranted (s : State) (f : RF) : Option Word :=
  (s.myAcq.filter fun a => a.res == some (resIndex f) && a.d == f.d).bind (·.granted)

/-- ACQ and ACQ.nb (R127): an amount of 0 is always granted. What ACQ.sl #0 and CLAIM.sl report in the Hasp strand, which holds no slot
allowance (R121), the spec leaves open; the model reports the fixed 4 of its holding record (DESIGN CHOICE, log 26). -/
def acqForm (words : Nat) (nb : Bool) (f : RF) (srcs : List Opnd) (amount : State → Nat) (s : State) : State :=
  match s.acqGranted f with
  | some x => acqDone words f srcs x s
  | none =>
    s.withSources 0 srcs [] fun s =>
      let r := resIndex f
      let n := amount s
      match acqTrap r n (.s f.d false) s with
      | some c => s.trap c 0
      | none =>
        if n = 0 then acqDone words f srcs (acqResult s.myCrew r 0 (if r = 2 then 0 else s.myCrew.hold.amount r)) s
        else if s.myCore.grantable (some s.myCrew.task) (resOf r n) then
          let (x, c) := s.myCore.grant (s.ownerOf s.cur) r n
          let s := s.modMyCore fun _ => c
          let (_, s) := s.queueAcq words f srcs r n (some x)
          acqDone words f srcs x s
        else if nb then
          let st := if n ≤ s.myCore.free.amount r then 1 else 2
          acqDone words f srcs (acqResult s.myCrew r st (if r = 2 then 0 else s.myCrew.hold.amount r)) s
        else
          match s.myAcq with
          | some a => s.lend (.acq a.serial)
          | none => let (k, s) := s.queueAcq words f srcs r n none; s.lend (.acq k)

/-- ACQ d, a (R127). -/
def execAcq (f : RF) (s : State) : Host.Outcome State Fault Refusal :=
  .next (acqForm 1 false f [.s f.a f.ta] (fun o => (o.sval f.a).toNat) s)

/-- ACQ d, #n (R127). -/
def execAcqImmediate (f : RF) (x : Ext) (s : State) : Host.Outcome State Fault Refusal :=
  .next (acqForm 3 false f [] (fun _ => x.immA) s)

/-- ACQ.nb d, a (R127). -/
def execAcqNb (f : RF) (s : State) : Host.Outcome State Fault Refusal :=
  .next (acqForm 1 true f [.s f.a f.ta] (fun o => (o.sval f.a).toNat) s)

/-- ACQ.nb d, #n (R127). -/
def execAcqNbImmediate (f : RF) (x : Ext) (s : State) : Host.Outcome State Fault Refusal :=
  .next (acqForm 3 true f [] (fun _ => x.immA) s)

/-- The amount an ACQ or REL operand stands for: for .ac of REL, the slots of the mask. -/
def relMask (n : Nat) : BitVec 8 := BitVec.ofNat 8 n

/-- Number of slots in a mask. -/
def maskCount (m : BitVec 8) : Nat := ((List.range 8).filter m.getLsbD).length

/-- An open vector stream of a strand of the crew is bound to bytes at or above an offset (R128). -/
def State.streamAbove (s : State) (core : Nat) (w : Crew) (off : Nat) : Bool :=
  w.pos.any fun p =>
    let st := s.strand ⟨core, p⟩
    st.streams.toList.any fun g =>
      let (base, size) := st.place (.v g.reg false)
      g.cls == 2 && off < base + size

/-- REL's trap conditions (R128). -/
def relTrap (r n : Nat) (s : State) : Option Nat :=
  let w := s.myCrew
  let m := relMask n
  if r = 2 then
    if m &&& ~~~w.acMask ≠ 0 || w.hold.ac < w.floor.ac + maskCount m then some causeReleaseInvalid else none
  else if w.hold.amount r < w.floor.amount r + n then some causeReleaseInvalid
  else if r = 1 && w.hold.sl < s.myCharge + n then some causeReleaseInvalid
  else if r = 0 && n ≠ 0 && s.streamAbove s.cur.core w (w.windowSize - 1024 * n) then some causeWindowBusy
  else none

/-- A tile-task record of the owner that has not completed names a slot of the mask (R128, R236). -/
def Core.tileNames (c : Core) (o : Owner) (m : BitVec 8) : Bool :=
  [0, 1].any fun ch => (c.chain o ch).entries.any fun e =>
    e.stage != 2 && (List.range 8).any fun i => m.getLsbD i && tkNames (c.entryBytes e) i

/-- What REL waits for (R128): full lines in the quanta it releases, or the completion of records that name a slot. -/
def relWait (r n : Nat) (s : State) : Option Wait :=
  let w := s.myCrew
  if r = 0 then
    let first := (w.windowSize - 1024 * n) / 64
    if anyIn first (16 * n) w.empty then some (.lines first (16 * n)) else none
  else if r = 2 && s.myCore.tileNames (s.ownerOf s.cur) (relMask n) then some .poll
  else none

/-- REL (R128): the release takes effect in one step, and the Tumbler looks again. -/
def relForm (words : Nat) (f : RF) (srcs : List Opnd) (amount : State → Nat) (s : State) : State :=
  let r := resIndex f
  s.issue 0 srcs [] (fun s => relTrap r (amount s) s) fun o s =>
    let n := amount o
    match relWait r n o with
    | some w => o.lend w
    | none =>
      let s := s.modMyCrew fun w =>
        if r = 0 then { w with hold := w.hold.sub (resOf 0 n), window := w.window.truncate (w.windowSize - 1024 * n) }
        else if r = 1 then { w with hold := w.hold.sub (resOf 1 n) }
        else { w with hold := w.hold.sub (resOf 2 (maskCount (relMask n))), acMask := w.acMask &&& ~~~(relMask n) }
      (s.tumble s.cur.core).retire words

/-- REL a (R128). -/
def execRel (f : RF) (s : State) : Host.Outcome State Fault Refusal :=
  .next (relForm 1 f [.s f.a f.ta] (fun o => (o.sval f.a).toNat) s)

/-- REL #n (R128). -/
def execRelImmediate (f : RF) (x : Ext) (s : State) : Host.Outcome State Fault Refusal :=
  .next (relForm 3 f [] (fun _ => x.immA) s)

/-! ### Views and moves (R132, R133) -/

/-- Register size of a view and the number of its names (R132). -/
def viewSize (q : Nat) : Nat := if q = 0 then 512 else if q = 1 then 5120 else 4096
def viewCount (q : Nat) : Nat := if q = 0 then 32 else 8

/-- A view is within the limits of R132. -/
def viewOk (q base stride : Nat) : Bool :=
  base % 64 == 0 && stride % 64 == 0 && viewSize q ≤ stride && stride ≤ 65536 &&
    base + (viewCount q - 1) * stride + viewSize q ≤ 262144

/-- SETVIEW (R132). -/
def execSetview (f : RF) (s : State) : Host.Outcome State Fault Refusal :=
  let q := f.qf.toNat
  .next (s.issue 0 [.s f.a f.ta, .s f.b f.tb] []
    (fun s => if viewOk q (s.sval f.a).toNat (s.sval f.b).toNat then none else some causeViewInvalid)
    fun o s =>
      let v : ViewReg := ⟨(o.sval f.a).toNat, (o.sval f.b).toNat⟩
      (s.modMe fun st =>
        if q = 0 then { st with vView := v } else if q = 1 then { st with aView := v } else { st with tView := v }).retire 1)

/-- VMOV (R133): all 512 bytes. -/
def execVmov (f : RF) (s : State) : Host.Outcome State Fault Refusal :=
  .next (s.issue 0 [.v f.a f.ta] [.v f.d false] noTrap fun o s =>
    (s.putV f.d (o.vbytes f.a) (List.replicate 512 true)).retire 1)

/-! ### SPLD and SPST (R134) -/

/-- The dword at an offset is not aligned or not in the window (R134). -/
def spTrap (off : Nat) (s : State) : Option Nat :=
  if off % 8 ≠ 0 || s.myCrew.windowSize < off + 8 then some causeWindowBounds else none

/-- SPLD: waits for the line, then for d; the offset is an exact sum (R7). -/
def spldForm (words : Nat) (f : RF) (imm : Nat) (s : State) : State :=
  s.withSources 0 [.s f.a f.ta] [] <| State.afterAcquires fun s =>
    let o := (s.sval f.a).toNat + imm
    match spTrap o s with
    | some c => s.trap c 0
    | none =>
      if s.myCrew.empty.contains (o / 64) then s.lend (.lines (o / 64) 1)
      else s.withDests 0 [.s f.d false] fun s =>
        ((s.popAll [.s f.a f.ta]).putS f.d (BitVec.ofNat 64 (s.myCrew.window.readNat o 8))).retire words

/-- SPLD d, a (R134). -/
def execSpld (f : RF) (s : State) : Host.Outcome State Fault Refusal := .next (spldForm 1 f 0 s)

/-- SPLD d, a, #off (R134). -/
def execSpldOffset (f : RF) (x : Ext) (s : State) : Host.Outcome State Fault Refusal := .next (spldForm 3 f x.immA s)

/-- SPST: waits until the line is full, also where a late fault has left it empty (R134). -/
def spstForm (words : Nat) (f : RF) (imm : Nat) (s : State) : State :=
  s.withSources 0 [.s f.a f.ta, .s f.b f.tb] [] <| State.afterAcquires fun s =>
    let o := (s.sval f.b).toNat + imm
    match spTrap o s with
    | some c => s.trap c 0
    | none =>
      if s.myCrew.empty.contains (o / 64) then s.lend (.lines (o / 64) 1)
      else
        let x := s.sval f.a
        ((s.popAll [.s f.a f.ta, .s f.b f.tb]).tellCore.modMyCrew fun w => { w with window := w.window.writeNat o 8 x.toNat }).retire words

/-- SPST a, b (R134). -/
def execSpst (f : RF) (s : State) : Host.Outcome State Fault Refusal := .next (spstForm 1 f 0 s)

/-- SPST a, b, #off (R134). -/
def execSpstOffset (f : RF) (x : Ext) (s : State) : Host.Outcome State Fault Refusal := .next (spstForm 3 f x.immA s)

end Sys2Proof.Machine
end

