-- ==== Sys2Proof/Machine/Streams.lean ====
section
/-! DEFINITION. Stream and fibre generators (spec 06 R135-R139). -/

namespace Sys2Proof.Machine

/-! ### Streams (R135-R137) -/

/-- Coordinate registers of an extension: c0 to c0 + N (R37). -/
def coordRegs (x : Ext) : List Reg := [x.c0, x.c1, x.c2, x.c3].take (x.n + 1)

/-- The class of d under a TYPE: 1 scalar, 2 vector (R135). -/
def streamCls (type : Nat) : Nat := if type = 4 || type = 8 then 1 else 2

/-- The record's format fits the type (R135). -/
def streamFits (type fmt : Nat) : Bool :=
  type == 0 || (if type = 4 || type = 8 then fmt == 4 || fmt == 8 else fmt == type)

/-- The operand that SOPEN binds. -/
def streamOpnd (type : Nat) (d : Reg) : Opnd := if streamCls type = 1 then .s d false else .v d false

/-- SOPEN d, a, %h, c0, ... (R135). -/
def execSopen (f : RF) (x : Ext) (s : State) : Host.Outcome State Fault Refusal :=
  let q := f.a.toNat
  let type := x.type.toNat
  let d := streamOpnd type f.d
  let coords := coordRegs x
  .next (s.withSources 0 (coords.map fun c => Opnd.s c false) [d] fun s =>
    s.withRecord x.handle (fun r s =>
      if (s.me.stream q).cls ≠ 0 || (s.me.bound d).isSome then s.trap causeStreamBusy 0
      else if !streamFits type (recFormat r) || recRank r < coords.length then s.trap causeStreamFormat 0
      else if s.isFree d then
        let ks := padCoords (coords.map fun c => (s.sval c).toNat)
        let s := s.popAll (coords.map fun c => Opnd.s c false)
        let g : Stream :=
          { cls := streamCls type, handle := x.handle.toNat, reg := f.d, type := type, base := (s.me.place d).1, record := r, rd := ks, wr := ks,
            fetchAt := ks, fetched := [], busy := false, landed := false }
        let s := (s.reserve d).modMe fun st => st.setStream q g
        (s.kickStream s.cur q).retire 3
      else s.lend (s.waitForOwn d)))

/-- STEND d, a (R137). -/
def execStend (f : RF) (s : State) : Host.Outcome State Fault Refusal :=
  .next (s.issue 0 [] [.s f.d false] noTrap fun o s =>
    let g := o.me.stream f.a.toNat
    (s.putS f.d (boolWord (g.cls == 0 || pastEnd g.record g.rd))).retire 1)

/-- SCLOSE a (R137): waits for the stream's appends, then unbinds; the register, a vector as SOPEN found it, is full with what it holds. -/
def execSclose (f : RF) (s : State) : Host.Outcome State Fault Refusal :=
  let q := f.a.toNat
  .next (
    let g := s.me.stream q
    if g.cls = 0 then s.retire 1
    else if s.reqs.any (fun r => r.sid == s.cur && r.kind == .append q) then s.lend .poll
    else
      let s := { s with reqs := s.reqs.filter fun r => !(r.sid == s.cur && r.kind == ReqKind.streamRead q) }
      let s := s.modMe fun st => st.setStream q {}
      let s := if g.cls = 1 then s.modMe fun st => st.setFull g.reg
        else
          s.modMyCrew fun w => { w with empty := delRange (g.base / 64) 8 w.empty }
      s.retire 1)

/-- STREAM_ELEMENT_LAND (R136): the head element that was fetched lands, if the register waits for it. -/
def execStreamElementLand (sid : SId) (q : Nat) (s : State) : Host.Outcome State Fault Refusal := .next (s.landStream sid q)

/-! ### Fibres (R139) -/

/-- A fibre generator of a strand. -/
def Strand.fibre (st : Strand) (i : Nat) : Fibre := st.fibres[i]?.getD {}
def Strand.setFibre (st : Strand) (i : Nat) (g : Fibre) : Strand := { st with fibres := st.fibres.setIfInBounds i g }

/-- A closed or finished fibre has no coordinate. -/
def Fibre.ended (g : Fibre) : Bool := !g.isOpen || g.e ≤ g.p

/-- FOPEN d, %h, a, b (R139). -/
def execFopen (f : RF) (x : Ext) (s : State) : Host.Outcome State Fault Refusal :=
  let i := f.d.toNat
  .next (s.gated 5 fun s => s.withSources 0 [.s f.a f.ta, .s f.b f.tb] [] fun s =>
    s.withRecord x.handle (fun r s =>
      if recRank r ≠ 1 || recFormat r ≠ 7 || !recR r then s.trap causeFibreRecord 0
      else if (s.me.fibre i).isOpen then s.trap causeStreamBusy 0
      else
        let g : Fibre :=
          { isOpen := true, handle := x.handle.toNat, record := r, p := field (s.sval f.a).toNat 0 32,
            e := min (field (s.sval f.b).toNat 0 32) (recExt r 0) }
        ((s.popAll [.s f.a f.ta, .s f.b f.tb]).modMe fun st => st.setFibre i g).retire 3))

/-- C(f) as it has been fetched for the fibre's position. -/
def Fibre.coord (g : Fibre) : Option Nat := g.got.bind fun (p, c) => if p = g.p then some c else none

/-- The running strand waits for C(f) of a fibre, which is fetched by a relaxed load (R139); a host-space record that the driver has not
accepted traps (R386). -/
def State.fetchFibre (s : State) (i : Nat) : State :=
  let g := s.me.fibre i
  if s.hostClosed g.record then s.trap causeLayoutPermission 0
  else if g.busy then s.lend .poll
  else
    let (id, s) := s.nextSerial
    ((s.modMe fun st => st.setFibre i { g with busy := true }).addReq
      { s.recordReq s.cur (.fibreRead i) g.record id with
        x := BitVec.ofNat 64 g.p, elems := [elemAt (locate g.record (dieOf s.cur.core) [g.p]) 4 0 4 false []] }).lend .poll

/-- FADV d, a (R139). -/
def execFadv (f : RF) (s : State) : Host.Outcome State Fault Refusal :=
  let i := f.a.toNat
  .next (s.gated 5 fun s =>
    let g := s.me.fibre i
    if g.ended then s.issue 0 [] [.s f.d false] noTrap fun _ s => (s.putS f.d all1).retire 1
    else match g.coord with
      | none => s.fetchFibre i
      | some c => s.issue 0 [] [.s f.d false] noTrap fun _ s =>
        ((s.modMe fun st => st.setFibre i { g with p := g.p + 1 }).putS f.d (BitVec.ofNat 64 (g.p * 2 ^ 32 + c))).retire 1)

/-- FTEND d, a (R139). -/
def execFtend (f : RF) (s : State) : Host.Outcome State Fault Refusal :=
  .next (s.gated 5 fun s => s.issue 0 [] [.s f.d false] noTrap fun o s =>
    (s.putS f.d (boolWord (o.me.fibre f.a.toNat).ended)).retire 1)

/-- FCLOSE a (R139). -/
def execFclose (f : RF) (s : State) : Host.Outcome State Fault Refusal :=
  .next (s.gated 5 fun s =>
    let s := { s with reqs := s.reqs.filter fun r => !(r.sid == s.cur && r.kind == ReqKind.fibreRead f.a.toNat) }
    (s.modMe fun st => st.setFibre f.a.toNat {}).retire 1)

/-- FISECT d, a, b (R139): one comparison each time it issues, until both stand at a match or one has ended. -/
def execFisect (f : RF) (s : State) : Host.Outcome State Fault Refusal :=
  let i := f.a.toNat
  let j := f.b.toNat
  .next (s.gated 5 fun s =>
    let g := s.me.fibre i
    let h := s.me.fibre j
    if g.ended || h.ended then s.issue 0 [] [.s f.d false] noTrap fun _ s => (s.putS f.d all1).retire 1
    else match g.coord, h.coord with
      | none, _ => s.fetchFibre i
      | _, none => s.fetchFibre j
      | some x, some y =>
        if x = y then s.issue 0 [] [.s f.d false] noTrap fun _ s => (s.putS f.d (BitVec.ofNat 64 x)).retire 1
        else if x < y then (s.modMe fun st => st.setFibre i { g with p := g.p + 1 }).lend .poll
        else (s.modMe fun st => st.setFibre j { h with p := h.p + 1 }).lend .poll)

end Sys2Proof.Machine
end

