-- ==== Sys2Proof/Machine/Memory.lean ====
section
/-! DEFINITION. The record forms: LNARROW, LREAD, LWRITE, loads and stores, gather and scatter, atomics, locks, sync words
and WAITNE as they issue, REPLAY and TLBINV (spec 09 R179-R201; 21 R365). -/

namespace Sys2Proof.Machine

/-! ### Records (R179-R181) -/

/-- LREAD d, %h, #i (R180): a record with VALID = 0 reads as it stands. -/
def execLread (f : RF) (x : Ext) (s : State) : Host.Outcome State Fault Refusal :=
  let info := handleInfo x.handle
  .next (if x.handle = 0xFFFF#16 then s.trap causeLayoutInvalid info
    else match s.myCore.lcache.find? fun e => e.1 == recKey (s.pidOf s.cur) x.handle.toNat with
      | none => (s.wantRecord s.cur.core (s.pidOf s.cur) x.handle.toNat).lend .poll
      | some (_, r) => s.withDests info [.s f.d false] fun s => (s.putS f.d (BitVec.ofNat 64 (field r (64 * x.immA) 64))).retire 3)

/-- Writes a record of the layout table, visible to those who watch its bytes (R93, R174, R181). -/
def State.storeRecord (s : State) (pid handle r : Nat) : State :=
  let t := s.writeRecord pid handle r
  match s.layoutAt pid handle with
  | some a => t.wrote 0 a 64
  | none => t

/-- LWRITE %h, a, #i (R181). -/
def execLwrite (f : RF) (x : Ext) (s : State) : Host.Outcome State Fault Refusal :=
  let info := handleInfo x.handle
  guardPhysical (s.privileged fun s => s.issue info [.s f.a f.ta] []
    (fun _ => if x.handle = 0xFFFF#16 then some causeLayoutInvalid else none) fun o s =>
      let s := s.modMe fun st => { st with stage := st.stage.setIfInBounds x.immA (o.sval f.a) }
      if x.immA < 7 then s.retire 3
      else (s.storeRecord (s.pidOf s.cur) x.handle.toNat (natOfBytes (s.me.stage.toList.flatMap fun w => bytesOfNat 8 w.toNat))).retire 3)

/-- The narrower record that LNARROW derives from `r` under a specification, none where R179 traps. -/
def narrowed (r h : Nat) (v : List Byte) : Option Nat :=
  let o := fun i => dwordOf v i
  let e := fun i => dwordOf v (4 + i)
  let rank := recRank r
  let used := (List.range rank).all fun i => e i != 0 && e i ≤ 2 ^ 32 - 1 && o i + e i ≤ recExt r i
  let clear := (List.range 4).all (fun i => i < rank || (o i == 0 && e i == 0)) &&
    field (dwordOf v 8) 4 60 == 0 && (v.drop 72).all (· == 0)
  let move : Int := ((List.range rank).map fun i => (o i : Int) * recStride r i).sum
  let n := (List.range rank).foldl (fun n i => putField n (128 + 32 * i) 32 (e i)) r
  let n := putField n 76 4 (field r 76 4 &&& field (dwordOf v 8) 0 4)
  let slotAt : Int := (recSlotOff r : Int) + move
  let n := if recSpace r = 3 then putField n 8 14 slotAt.toNat else putField n 0 58 (wrap ((recBase r : Int) + move) 58)
  let inside := recSpace r != 3 || (0 ≤ slotAt + recLow n && slotAt + recHigh n + typeSize (recFormat n) ≤ 16384 && 0 ≤ slotAt)
  if !recN r || h < 0xF000 || h = 0xFFFF || !used || (recHot r ≠ 0 && o (rank - 1) ≠ 0) || !clear || !inside then none else some n

/-- LNARROW %src, a, b (R179). -/
def execLnarrow (f : RF) (x : Ext) (s : State) : Host.Outcome State Fault Refusal :=
  let info := handleInfo x.handle
  let srcs := [Opnd.s f.a f.ta, .v f.b f.tb]
  guardPhysical (s.withSources info srcs [] fun s => s.withRecord x.handle fun r s =>
    let h := field (s.sval f.a).toNat 0 16
    match narrowed r h (s.vbytes f.b) with
    | none => s.trap causeNarrowInvalid info
    | some n => ((s.popAll srcs).storeRecord (s.pidOf s.cur) h n).retire 3)

/-! ### The course of a record form -/

/-- The request cannot be accepted now (R188, R318, R365). -/
def State.stalls (s : State) (r : Req) : Bool :=
  (r.kind.counts && (16 ≤ s.outstanding s.cur || (!r.vec.isEmpty && 4 ≤ s.outstandingVec s.cur))) ||
    (r.space ≤ 1 && r.elems.any fun e => e.phase == .walk && s.notAccepted (dieOf s.cur.core) r.pid e.va) ||
    (2 ≤ r.space && s.myCore.cannotSend)

/-- Values of the registers that a replay record keeps: a, b, c0 to c3 (R366). -/
def keptVals (f : RF) (x : Ext) (s : State) : List Word := [f.a, f.b, x.c0, x.c1, x.c2, x.c3].map s.sval

/-- The request touches bytes that an earlier store of the strand has not reached: it waits, lending its turns (R296). -/
def State.behindStore (s : State) (r : Req) : Bool :=
  s.reqs.any fun x => x.ofStrand r.sid && x.kind.writes && x.rank < r.rank && x.elems.any fun y => y.phase != .done && r.elems.any fun e => overlaps r e x y

/-- The results of a request take their places in the streams that their names are bound to (R136); one that is issued again keeps its
destination and its places (R366). -/
def Req.booked (r : Req) (dsts : List Opnd) (s : State) : Req × State :=
  match s.me.redo with
  | some d => ({ r with dst := d.dst, app := d.app, app2 := d.app2 }, s)
  | none =>
    match dsts with
    | [] => (r, s)
    | [d] => let (a, s) := s.book d
      ({ r with app := a }, s)
    | d :: e :: _ => let (a, s) := s.book d
      let (b, s) := s.book e
      ({ r with app := a, app2 := b }, s)

/-- A record form (R182): sources, the record, the form's checks, room for the request, destinations; then the request is
made by `fill` and `go` sends it on its way. -/
def recordForm (f : RF) (x : Ext) (kind : ReqKind) (srcs dsts : List Opnd) (check : Nat → State → Option Nat)
    (fill : Nat → State → Req → Req) (go : Req → State → State) (s : State) : State :=
  let info := handleInfo x.handle
  s.withSources info srcs dsts fun s => s.withRecord x.handle fun r s =>
    match check r s with
    | some c => s.trap c info
    | none =>
      let (id, t) := s.nextSerial
      let req := fill r s { s.blankReq kind x r id with vals := keptVals f x s }
      if s.stalls req || s.behindStore req then s.lend .poll else s.withDests info dsts fun _ => go req (t.popAll srcs)

/-- The request leaves and the strand goes on; its destinations are reserved (R182). -/
def goOn (dsts : List Opnd) (r : Req) (s : State) : State :=
  let (r, s) := r.booked dsts s
  ((dsts.foldl State.reserve s).addReq r).retire recordWords

/-- The request leaves and the strand waits inside the instruction for its end (R88, R199, R201). -/
def goWait (r : Req) (s : State) : State := (s.addReq { r with serial := r.id }).stay (.reply r.id)

/-- The coordinates that a form's registers hold (R175). -/
def coordsOf (x : Ext) (s : State) : List Nat := (coordRegs x).map fun c => (s.sval c).toNat

/-- The checks that every record form makes before its coordinates: type, permission, rank (R172, R175, R182). -/
def recordTrap (x : Ext) (n : Nat) (perm : Nat → Bool) (r : Nat) (s : State) : Option Nat :=
  if !typeFits x.type.toNat (recFormat r) then some causeLayoutType
  else if !perm r || s.hostClosed r then some causeLayoutPermission
  else if recRank r < n then some causeLayoutRank
  else none

/-- Out-of-range coordinates trap only where PAD says fault (R182). -/
def boundsTrap (r : Nat) (coords : List (List Nat)) : Option Nat :=
  if recPad r = 0 && coords.any (fun c => !inRange r c) then some causeLayoutBounds else none

/-- The bytes that a load takes out of range: PADV's low bytes, or zero (R182). -/
def padBytes (r : Nat) : List Byte := bytesOfNat (typeSize (recFormat r)) (if recPad r = 1 then recPadv r else 0)

/-- The element that a load reads at coordinates (R182). -/
def loadElem (r die put width : Nat) (signed : Bool) (c : List Nat) : Elem :=
  let size := typeSize (recFormat r)
  if inRange r c then elemAt (locate r die c) size put width signed [] else elemDone size put width signed (padBytes r)

/-- The elements that a store writes at coordinates: all four replicas of a hot row, none out of range (R176, R182). -/
def storeElems (r die put : Nat) (data : List Byte) (c : List Nat) : List Elem :=
  if inRange r c then
    (rowsOf r die true ((padCoords c).getD (recRank r - 1) 0)).map fun row =>
      elemAt (addressOf r c row) (typeSize (recFormat r)) put 0 false data
  else []

/-- A zero-length access: translated at its first element, and nothing else (R184). -/
def zeroElem (r die : Nat) (c : List Nat) : List Elem := if inRange r c then [elemAt (locate r die c) 0 0 0 false []] else []

/-- A request none of whose elements is to be accessed is done at once. -/
def State.settle (s : State) (id : Nat) : State := s.finishReq id

/-- As `goOn`, for requests that may have nothing to access. -/
def goOnSettle (dsts : List Opnd) (r : Req) (s : State) : State :=
  let (r, s) := r.booked dsts s
  (((dsts.foldl State.reserve s).addReq r).settle r.id).retire recordWords

/-! ### LD, ST, VLD, VST (R182-R184) -/

/-- The coordinates of a vector access's elements and whether each is enabled: L = 512 / size along dimension 0 (R182). -/
def vecParts (r : Nat) (ks : List Nat) (m : BitVec 128) : List (Nat × Bool × List Nat) :=
  let size := typeSize (recFormat r)
  (List.range (512 / max size 1)).map fun j => (j, m.getLsbD (j * size / 4), bumpCoord ks 0 j)

/-- The enabled parts. -/
def onParts (ps : List (Nat × Bool × List Nat)) : List (Nat × List Nat) := ps.filterMap fun (j, on, c) => if on then some (j, c) else none

/-- The coordinates that the checks of a vector access look at: the enabled elements, or the first of none (R182, R184). -/
def checkedCoords (ps : List (Nat × Bool × List Nat)) : List (List Nat) :=
  if (onParts ps).isEmpty then (ps.take 1).map (·.2.2) else (onParts ps).map (·.2)

/-- Coordinate operands. -/
def coordOpnds (x : Ext) : List Opnd := (coordRegs x).map fun c => Opnd.s c false

/-- The die of the running strand. -/
def State.myDie (s : State) : Nat := dieOf s.cur.core

/-- LD d, %h, k... (R182). -/
def execLdDevice (f : RF) (x : Ext) (s : State) : Host.Outcome State Fault Refusal :=
  let d := Opnd.s f.d false
  .next (recordForm f x .load (coordOpnds x) [d]
    (fun r s => (recordTrap x (coordRegs x).length recR r s).orElse fun _ => boundsTrap r [coordsOf x s])
    (fun r s q => { q with
      dst := .scalar f.d, spin := f.qf.getLsbD 0
      elems := [loadElem r s.myDie 0 8 (typeSigned (typeOf x.type.toNat (recFormat r))) (coordsOf x s)] })
    (goOnSettle [d]) s)

/-- ST %h, k..., a (R182). -/
def execStDevice (f : RF) (x : Ext) (s : State) : Host.Outcome State Fault Refusal :=
  .next (recordForm f x .store (coordOpnds x ++ [.s f.a f.ta]) []
    (fun r s => (recordTrap x (coordRegs x).length recW r s).orElse fun _ => boundsTrap r [coordsOf x s])
    (fun r s q => { q with
      elems := storeElems r s.myDie 0 (bytesOfNat (typeSize (recFormat r)) (s.sval f.a).toNat) (coordsOf x s) })
    (goOnSettle []) s)

/-- VLD d, %h, k... (R182, R184). -/
def execVldDevice (f : RF) (x : Ext) (s : State) : Host.Outcome State Fault Refusal :=
  let d := Opnd.v f.d false
  let parts := fun r (s : State) => vecParts r (coordsOf x s) (s.me.mask x.mask.toNat)
  .next (recordForm f x .load (coordOpnds x) [d]
    (fun r s => (recordTrap x (coordRegs x).length recR r s).orElse fun _ => boundsTrap r (checkedCoords (parts r s)))
    (fun r s q =>
      let size := typeSize (recFormat r)
      let on := onParts (parts r s)
      { q with
        dst := .space (s.me.place d).1, spin := f.qf.getLsbD 0
        elems := if on.isEmpty then zeroElem r s.myDie (padCoords (coordsOf x s))
          else on.map fun (j, c) => loadElem r s.myDie (j * size) size false c })
    (goOnSettle [d]) s)

/-- VST %h, k..., a (R182, R184). -/
def execVstDevice (f : RF) (x : Ext) (s : State) : Host.Outcome State Fault Refusal :=
  let parts := fun r (s : State) => vecParts r (coordsOf x s) (s.me.mask x.mask.toNat)
  .next (recordForm f x .store (coordOpnds x ++ [.v f.a f.ta]) []
    (fun r s => (recordTrap x (coordRegs x).length recW r s).orElse fun _ => boundsTrap r (checkedCoords (parts r s)))
    (fun r s q =>
      let size := typeSize (recFormat r)
      let on := onParts (parts r s)
      let data := s.vbytes f.a
      { q with
        elems := if on.isEmpty then zeroElem r s.myDie (padCoords (coordsOf x s))
          else on.flatMap fun (j, c) => storeElems r s.myDie (j * size) ((data.drop (j * size)).take size) c })
    (goOnSettle []) s)

/-! ### GATHER and SCATTER (R185) -/

/-- Coordinates given besides the index: none where E1.XM is 00 (R185); a record of rank above 1 is accepted then too, its other dimensions
at coordinate 0 (DESIGN CHOICE, log 26). -/
def sideRegs (x : Ext) : List Reg := if x.xm = 1#2 then coordRegs x else []
def sideOpnds (x : Ext) : List Opnd := (sideRegs x).map fun c => Opnd.s c false

/-- The lanes of a gather or scatter: lane, enabled, coordinates (R185). -/
def laneParts (x : Ext) (idx : Reg) (s : State) : List (Nat × Bool × List Nat) :=
  let m := s.me.mask x.mask.toNat
  let side := (sideRegs x).map fun c => (s.sval c).toNat
  (s.vlanes idx).mapIdx fun j w => (j, m.getLsbD j, padCoords (w.toNat :: side))

/-- The index of a lane is in range (R185). -/
def indexOk (r : Nat) (c : List Nat) : Bool := c.headD 0 < recExt r 0

/-- Checks of GATHER and SCATTER: element sizes 1, 2 and 4; an index out of range never faults (R185). -/
def gatherTrap (x : Ext) (idx : Reg) (perm : Nat → Bool) (r : Nat) (s : State) : Option Nat :=
  if !typeFits x.type.toNat (recFormat r) || 4 < typeSize (recFormat r) then some causeLayoutType
  else (recordTrap x ((sideRegs x).length + 1) perm r s).orElse fun _ =>
    boundsTrap r ((checkedCoords (laneParts x idx s)).filter (indexOk r))

/-- GATHER d, %h, a, k1... (R185). -/
def execGather (f : RF) (x : Ext) (s : State) : Host.Outcome State Fault Refusal :=
  let d := Opnd.v f.d false
  .next (recordForm f x .load (sideOpnds x ++ [.v f.a f.ta]) [d] (gatherTrap x f.a recR)
    (fun r s q =>
      let signed := typeSigned (typeOf x.type.toNat (recFormat r))
      let size := typeSize (recFormat r)
      let on := onParts (laneParts x f.a s)
      { q with
        dst := .space (s.me.place d).1, vec := s.vbytes f.a
        elems := if on.isEmpty then ((laneParts x f.a s).take 1).flatMap fun p => zeroElem r s.myDie p.2.2
          else on.map fun (j, c) =>
            if indexOk r c then loadElem r s.myDie (4 * j) 4 signed c
            else elemDone size (4 * j) 4 signed (if recPad r = 1 then padBytes r else bytesOfNat size 0) })
    (fun q s =>
      let r := s.record s.cur.core (s.pidOf s.cur) x.handle.toNat
      let drops := match r with
        | .ok r => ((onParts (laneParts x f.a s)).filter fun p => !indexOk r p.2).length
        | _ => 0
      goOnSettle [d] q (s.modMe fun st =>
        { st with gatherDrops := BitVec.ofNat 32 (min (st.gatherDrops.toNat + drops) 0xFFFFFFFF) })) s)

/-- SCATTER %h, b, k1..., a (R185): lanes out of range are discarded, not counted. -/
def execScatter (f : RF) (x : Ext) (s : State) : Host.Outcome State Fault Refusal :=
  .next (recordForm f x .store (sideOpnds x ++ [.v f.b f.tb, .v f.a f.ta]) [] (gatherTrap x f.b recW)
    (fun r s q =>
      let size := typeSize (recFormat r)
      let on := onParts (laneParts x f.b s)
      let data := s.vbytes f.a
      { q with
        elems := if on.isEmpty then ((laneParts x f.b s).take 1).flatMap fun p => zeroElem r s.myDie p.2.2
          else on.flatMap fun (j, c) => storeElems r s.myDie (4 * j) ((data.drop (4 * j)).take size) c })
    (goOnSettle []) s)

/-! ### Atomics (R194-R197) -/

/-- The permission of atomic forms: A, and a device or peer-device record (R194, R198, R200). -/
def permAtomic (r : Nat) : Bool := recA r && (recSpace r == 0 || recSpace r == 2)

/-- Checks of a form on one element whose coordinates must be in range and whose size is among `sizes` (R194). With TYPE 0 a form of .n64 takes
an .i64 record too: the spec checks the size alone (R194, R198, R200; DESIGN CHOICE, log 26). -/
def elementTrap (x : Ext) (perm : Nat → Bool) (sizes : List Nat) (r : Nat) (s : State) : Option Nat :=
  if !typeFits x.type.toNat (recFormat r) || !sizes.contains (typeSize (recFormat r)) then some causeLayoutType
  else (recordTrap x (coordRegs x).length perm r s).orElse fun _ =>
    if !inRange r (coordsOf x s) then some causeLayoutBounds else none

/-- The element of an atomic, lock or sync form (R194). -/
def oneElem (r : Nat) (x : Ext) (s : State) (size width : Nat) (signed : Bool) : List Elem :=
  [elemAt (locate r s.myDie (coordsOf x s)) size 0 width signed []]

/-- An atomic of R194's table with the data in a. -/
def atomicForm (op : Nat) (f : RF) (x : Ext) (more : List Opnd) (s : State) : State :=
  let d := Opnd.s f.d false
  recordForm f x (.atomic op) (coordOpnds x ++ .s f.a f.ta :: more) [d] (elementTrap x permAtomic [4, 8])
    (fun r s q => { q with
      dst := .scalar f.d, x := s.sval f.a, y := s.sval f.b
      elems := oneElem r x s (typeSize (recFormat r)) 8 (typeSigned (typeOf x.type.toNat (recFormat r))) })
    (goOn [d]) s

/-- AADD (R194). -/
def execAadd (f : RF) (x : Ext) (s : State) : Host.Outcome State Fault Refusal := .next (atomicForm 0 f x [] s)
/-- AMIN (R194). -/
def execAmin (f : RF) (x : Ext) (s : State) : Host.Outcome State Fault Refusal := .next (atomicForm 1 f x [] s)
/-- AMAX (R194). -/
def execAmax (f : RF) (x : Ext) (s : State) : Host.Outcome State Fault Refusal := .next (atomicForm 2 f x [] s)
/-- AAND (R194). -/
def execAand (f : RF) (x : Ext) (s : State) : Host.Outcome State Fault Refusal := .next (atomicForm 3 f x [] s)
/-- AOR (R194). -/
def execAor (f : RF) (x : Ext) (s : State) : Host.Outcome State Fault Refusal := .next (atomicForm 4 f x [] s)
/-- AXOR (R194). -/
def execAxor (f : RF) (x : Ext) (s : State) : Host.Outcome State Fault Refusal := .next (atomicForm 5 f x [] s)
/-- ASWAP (R194). -/
def execAswap (f : RF) (x : Ext) (s : State) : Host.Outcome State Fault Refusal := .next (atomicForm 6 f x [] s)
/-- ACAS, with the expected value in b (R194). -/
def execAcas (f : RF) (x : Ext) (s : State) : Host.Outcome State Fault Refusal := .next (atomicForm 7 f x [.s f.b f.tb] s)

/-- ACAS4 d, %h, k..., a, b (R195). The element named must be in range; of the three dwords behind it the spec does not say so, and they are not
tested (DESIGN CHOICE, log 26). -/
def execAcas4 (f : RF) (x : Ext) (s : State) : Host.Outcome State Fault Refusal :=
  let d := Opnd.v f.d false
  .next (recordForm f x (.atomic 8) (coordOpnds x ++ [.v f.a f.ta, .v f.b f.tb]) [d]
    (fun r s => (elementTrap x permAtomic [8] r s).orElse fun _ =>
      if recStride r 0 ≠ 8 || 32 < locate r s.myDie (coordsOf x s) % 64 then some causeLayoutAlign else none)
    (fun r s q => { q with
      dst := .space (s.me.place d).1, xs := (s.vbytes f.a).take 32, ys := (s.vbytes f.b).take 33
      vec := (s.vbytes f.a).take 32 ++ (s.vbytes f.b).take 33 ++ List.replicate 447 0
      elems := oneElem r x s 32 512 false })
    (goOn [d]) s)

/-- AENQ d, %h, k..., a (R196). The element named must be in range; of TAIL behind it the spec does not say so, and it is not tested (DESIGN
CHOICE, log 26). -/
def execAenq (f : RF) (x : Ext) (s : State) : Host.Outcome State Fault Refusal :=
  let d := Opnd.s f.d false
  .next (recordForm f x (.atomic 9) (coordOpnds x ++ [.s f.a f.ta]) [d]
    (fun r s => (elementTrap x permAtomic [8] r s).orElse fun _ =>
      if recStride r 0 ≠ 8 || locate r s.myDie (coordsOf x s) % 16 ≠ 0 then some causeLayoutAlign else none)
    (fun r s q => { q with dst := .scalar f.d, x := s.sval f.a, elems := oneElem r x s 16 8 false })
    (goOn [d]) s)

/-- ACHASE d, a, b, c (R197): no handle is named. -/
def execAchase (f : RF) (x : Ext) (s : State) : Host.Outcome State Fault Refusal :=
  let srcs := [Opnd.s f.a f.ta, .s f.b f.tb]
  let dsts := [Opnd.s f.d false, .s x.c0 false]
  .next (s.withSources 0xFFFF srcs dsts fun s =>
    let (id, t) := s.nextSerial
    let r := { s.blankReq .chase x 0 id with
      type := 8, dst := .scalar f.d, dst2 := x.c0, x := s.sval f.a, y := s.sval f.b, vals := keptVals f x s }
    if s.stalls r then s.lend .poll
    else s.withDests 0xFFFF dsts fun _ =>
      let (r, t) := r.booked dsts (t.popAll srcs)
      (((dsts.foldl State.reserve t).addReq r).postFree r.leg (.atomicHomeApply id)).retire recordWords)

/-! ### Locks, sync words, WAITNE (R198-R201) -/

/-- A lock form (R198). -/
def lockForm (op : Nat) (wr : Bool) (f : RF) (x : Ext) (dsts : List Opnd) (go : Req → State → State) (s : State) : State :=
  recordForm f x (.lock op wr) (coordOpnds x) dsts (elementTrap x permAtomic [8])
    (fun r s q => { q with dst := if dsts.isEmpty then .none else .scalar f.d, elems := oneElem r x s 8 8 false }) go s

/-- RWRD d, %h, k... (R198). -/
def execRwrd (f : RF) (x : Ext) (s : State) : Host.Outcome State Fault Refusal := .next (lockForm 0 false f x [.s f.d false] goWait s)
/-- RWWR d, %h, k... (R198). -/
def execRwwr (f : RF) (x : Ext) (s : State) : Host.Outcome State Fault Refusal := .next (lockForm 1 true f x [.s f.d false] goWait s)
/-- RWRDX %h, k... (R198). -/
def execRwrdx (f : RF) (x : Ext) (s : State) : Host.Outcome State Fault Refusal := .next (lockForm 2 false f x [] (goOn []) s)
/-- RWWRX %h, k... (R198). -/
def execRwwrx (f : RF) (x : Ext) (s : State) : Host.Outcome State Fault Refusal := .next (lockForm 3 true f x [] (goOn []) s)
/-- RWTRY.rd and RWTRY.wr d, %h, k... (R198). -/
def execRwtry (f : RF) (x : Ext) (s : State) : Host.Outcome State Fault Refusal :=
  .next (lockForm 4 (f.qf.getLsbD 0) f x [.s f.d false] (goOn [.s f.d false]) s)

/-- LDSYNC d, %h, k... (R200). -/
def execLdsync (f : RF) (x : Ext) (s : State) : Host.Outcome State Fault Refusal :=
  .next (s.gated 4 fun s => recordForm f x .ldsync (coordOpnds x) [.s f.d false] (elementTrap x permAtomic [8])
    (fun r s q => { q with dst := .scalar f.d, elems := oneElem r x s 8 8 false }) goWait s)

/-- STSYNC %h, k..., a (R200). -/
def execStsync (f : RF) (x : Ext) (s : State) : Host.Outcome State Fault Refusal :=
  .next (s.gated 4 fun s => recordForm f x .stsync (coordOpnds x ++ [.s f.a f.ta]) [] (elementTrap x permAtomic [8])
    (fun r s q => { q with x := s.sval f.a, elems := oneElem r x s 8 0 false }) goWait s)

/-- WAITNE d, %h, k..., a (R201): its destination is reserved before the first read. -/
def execWaitne (f : RF) (x : Ext) (s : State) : Host.Outcome State Fault Refusal :=
  .next (recordForm f x .waitne (coordOpnds x ++ [.s f.a f.ta]) [.s f.d false] (elementTrap x recR [1, 2, 4, 8])
    (fun r s q => { q with
      dst := .scalar f.d, x := s.sval f.a
      elems := oneElem r x s (typeSize (recFormat r)) 8 (typeSigned (typeOf x.type.toNat (recFormat r))) })
    (fun r s => goWait r (s.reserve (.s f.d false))) s)

/-! ### REPLAY and TLBINV (R190, R191) -/

/-- The pages whose held requests the agent aborts (R190). -/
def State.abortedPages (s : State) : List (Nat × Nat) :=
  s.faults.toList.filterMap fun f => if f.valid && f.abort then some (f.pid, f.page) else none

/-- The held elements of the device in the order of their arrival: stamp, request, element. -/
def State.heldElems (s : State) : List (Nat × Nat × Nat) :=
  sortBy (fun x y => decide (x.1 ≤ y.1)) (s.reqs.flatMap fun r => (List.range r.elems.length).filterMap fun k =>
    match r.elems[k]? with
    | some e => if e.phase == .held then some (e.stamp, r.id, k) else none
    | none => none)

/-- One held element: aborted, or reissued at its station after `delay` (R190, R402). -/
def State.reissue (s : State) (aborted : List (Nat × Nat)) (delay : Nat → Nat → Nat) (id k : Nat) : State :=
  match s.req? id with
  | none => s
  | some r =>
    match r.elems[k]? with
    | none => s
    | some e =>
      if aborted.contains (r.pid, e.pa / 16384) then s.elemFail id k causeTranslationAbort
      else match r.kind with
        | .fetch => s.dropReq id
        | _ => (s.modReq id fun r => r.modElem k fun e => { e with phase := .walk }).post
            (delay (dieOf r.sid.core) (stationOf e.pa)) (.translationWalk id k)

/-- REPLAY's action (R190): the fault buffer and the pending-fault entries clear, and every held request is reissued; those of
one station in the order of their arrival. -/
def State.replayAll (s : State) : State :=
  let aborted := s.abortedPages
  let held := s.heldElems
  let base := s.freeCtr
  let s := { s with
    freeCtr := base + 32
    faults := s.faults.map fun f => { f with valid := false, abort := false }
    dropped := false
    dropCount := 0
    dies := s.dies.map fun d => { d with pfe := [], shut := 0 } }
  held.foldl (fun s (_, id, k) => s.reissue aborted (fun die st => Config.free (base + 8 * die + st) % 1024) id k) s

/-- REPLAY (R190, R376): a release at device scope, then its action, which clears the interrupt-pending bit of its strand. -/
def execReplay (s : State) : Host.Outcome State Fault Refusal :=
  .next (s.privileged fun s =>
    if s.quiet s.cur then (s.replayAll.retire 1).modMe fun st => { st with irq := false } else s.lend .poll)

/-- HOST_REPLAY (R190, R383): the host's REPLAY. -/
def execHostReplay (s : State) : Host.Outcome State Fault Refusal := .next s.replayAll

/-- A translation is one that TLBINV names (R191). -/
def invHits (a b : Word) (pid va size : Nat) : Bool :=
  (a == all1 || field a.toNat 0 16 == pid) && (b == all1 || (va ≤ b.toNat && b.toNat < va + size))

/-- TLBINV a, b (R191): it completes when no request translated under an invalidated entry is still on its way; those
parked at their homes are sent back to be translated anew (log 7). -/
def execTlbinv (f : RF) (s : State) : Host.Outcome State Fault Refusal :=
  .next (s.privileged fun s => s.issue 0 [.s f.a f.ta, .s f.b f.tb] [] noTrap fun o s =>
    let a := o.sval f.a
    let b := o.sval f.b
    let cut := fun (s : State) => { s.sendBack fun r e => invHits a b r.pid (e.va / e.page * e.page) e.page with dies := s.dies.map fun (d : Die) =>
      let keep (l : List TlbEntry) : List TlbEntry := l.filter fun t => !invHits a b t.pid t.va t.size
      { d with tlb := keep d.tlb, tlb1 := d.tlb1.map keep } }
    let onWay := o.reqs.any fun r => r.space ≤ 1 && r.elems.any fun e =>
      e.phase == .home && invHits a b r.pid (e.va / e.page * e.page) e.page
    if onWay then (cut o).lend .poll else (cut s).retire 1)

end Sys2Proof.Machine
end

