-- ==== Sys2Proof/Machine/Engines.lean ====
section
/-! DEFINITION. How engines start entries, and the copy and gather/remote engines (spec 10 R203, R204, R208, R212-R217). -/

namespace Sys2Proof.Machine

/-! ### Which entry starts (R203, R204, R208) -/

/-- The place of a crew in the round: the position of its rank 0; one that is off its positions comes after the others, by its PID and
task (DESIGN CHOICE, log 26). -/
def Crew.place (w : Crew) : Nat := w.pos.headD (18 + w.pid * 2 ^ 14 + w.task)

/-- The instances whose chains are among `chs`, with their places in the round: the crews' by the position of their rank 0,
then the Hasp strand's, then chain 7's (R203). -/
def Core.round (c : Core) (chs : List Nat) : List (Nat × Owner × Nat) :=
  let crews := c.crews.flatMap fun w => chs.filterMap fun ch =>
    if ch = 7 then none else some (8 * w.place + ch, Owner.crew w.task, ch)
  let hasp := chs.filterMap fun ch => if ch = 7 then none else some (8 * 16 + ch, Owner.hasp, ch)
  let own := if chs.contains 7 then [(8 * 17 + 7, Owner.chain7, 7)] else []
  sortBy (fun x y => decide (x.1 ≤ y.1)) (crews ++ hasp ++ own)

/-- The first of a round from a place on that satisfies a test, going round (R203). -/
def pickFrom {α : Type} (start : Nat) (l : List (Nat × α)) (p : α → Bool) : Option (Nat × α) :=
  (l.find? fun x => start ≤ x.1 && p x.2).orElse fun _ => l.find? fun x => p x.2

/-- A wait of an entry is satisfied (R208): the watched count has passed the ticket, or the watched crew has gone. -/
def Core.waited (c : Core) (watch : Owner) (pid : Nat) (on : Bool) (chain seq : Nat) : Bool :=
  !on || passed (c.chain watch chain).s seq || c.watchGone watch pid chain

/-- What an entry follows because it has waited: the entries that the watched instances have passed, and, of a tile-task record, the earlier
records of its crew (R227, R337, R344). -/
def Core.joins (c : Core) (e : Owner) (x : Entry) (b : List Byte) : List Heard :=
  (if enWen b then (c.chain x.watch (enWchain b)).heard else []) ++
    if enKind b = 1 then
      (if tkD2en b then (c.chain x.watch (tkD2chain b)).heard else []) ++ [0, 1].flatMap fun ch =>
        (c.chain e ch).heard ++ ((c.chain e ch).entries.filter fun y => y.stage == 2 && y.fork < x.fork).flatMap (·.deps)
    else []

/-- What precedes the CHAPP has taken effect: the appender's accesses, its multicast stores and shared-map operations, and the stores
it had heard of (R206, R326, R337, R343). -/
def State.forked (s : State) (core : Nat) (e : Entry) : Bool :=
  e.deps.all (fun h => s.readable none h.1) && match (s.core core).appender e, e.watch with
  | some sid, _ =>
    (!s.reqs.any fun r => r.ofStrand sid && r.rank < e.fork) && !s.mapPending sid && !s.unapplied.any fun u => u.sid == sid && u.serial < e.fork
  | none, .crew t => !s.reqs.any fun r => r.sid == ⟨core, awayPos e.rank⟩ && r.pid == e.pid && r.task == t && r.rank < e.fork
  | none, _ => true

/-- The next entry of an instance that has not started, and how many are in progress. -/
def Chain.head (ch : Chain) : Option Entry := ch.entries.find? fun e => e.stage == 0
def Chain.running (ch : Chain) : Nat := (ch.entries.filter fun e => e.stage == 1).length

/-- Entries of one instance in progress at most: four copies, two gathers (R204). -/
def startLimit (ch : Nat) : Nat := if ch = 5 then 2 else if ch = 6 then 64 else 4

/-- The head entry of an instance, if only what precedes its CHAPP can hold it back (R204, R208, R214). -/
def State.startNext (s : State) (core : Nat) (o : Owner) (ch : Nat) : Option Entry :=
  let x := (s.core core).chain o ch
  match x.head with
  | none => none
  | some e =>
    let b := (s.core core).entryBytes e
    if !x.halt && x.running < startLimit ch && (s.core core).waited e.watch e.pid (enWen b) (enWchain b) (enWseq b) then some e else none

/-- The head entry of an instance may start now (R204, R206, R208, R214). -/
def State.startable (s : State) (core : Nat) (o : Owner) (ch : Nat) : Option Entry := (s.startNext core o ch).filter (s.forked core)

/-- Position that the dispatch ring records: of rank 0, or 16 (R217). -/
def Core.ringPos (c : Core) (o : Owner) : Nat :=
  match o with
  | .crew t => (c.owned (.crew t)).pos.headD 0
  | _ => 16

/-- An engine starts an entry: it reads the entry's bytes, and the dispatch ring records it (R153, R209, R217). -/
def State.markStart (s : State) (e : EntryRef) (x : Entry) (kind engine : Nat) : State :=
  let c := s.core e.core
  let i := c.dringHead
  let bytes := c.entryBytes x
  let s := match x.addr with
    | some a => if c.slotBad a 64 then s.reportUncorrected e.core a else s.reportCorrected e.core a 64
    | none => s
  let s := s.modCore e.core fun c =>
    { c with
      dring := c.dring.setIfInBounds i
        { ticket := e.ticket, kind := kind, engine := engine, pos := c.ringPos e.owner, chain := e.chain, valid := true }
      dringHead := (i + 1) % 32 }
  s.modEntry e fun x => { x with stage := 1, ring := i, bytes := bytes, deps := x.deps ++ s.stillOpen (c.joins e.owner x bytes) }

/-- Dword 0 of a message about a malformed record that an entry has met: it names the appender, and where the appender's crew is off its
core its job and task without a position (R359; log 16). -/
def State.entryMail (s : State) (e : EntryRef) (x : Entry) : Word :=
  match (s.core e.core).appender x, x.watch with
  | some sid, _ => s.mailOf 1 0 sid
  | none, .crew t => mailWord 1 0 e.core 0 0 x.pid t
  | none, _ => mailWord 1 0 e.core 16 0 x.pid 0

/-- A record that an entry needs (R173, R174): its copy, the late cause of a bad one, or a fetch that the engine waits for. -/
inductive Part where
  | ok (r : Nat)
  | bad (code : Nat)
  | later
deriving DecidableEq, Repr

/-- The record of a handle for an entry (R174): read once, then kept with the entry; a malformed one also posts a message. -/
def State.entryRecord (s : State) (e : EntryRef) (handle : Nat) : Part × State :=
  match s.entry? e with
  | none => (.later, s)
  | some x =>
    match x.recs.find? fun p => p.1 == handle with
    | some (_, r) => (.ok r, s)
    | none =>
      match s.record e.core x.pid handle with
      | .ok r => (.ok r, s.modEntry e fun y => { y with recs := (handle, r) :: y.recs })
      | .invalid => (.bad causeLayoutInvalid, s)
      | .malformed =>
        (.bad causeLayoutInvalid,
          s.mail (dieOf e.core) ⟨s.entryMail e x, 0, BitVec.ofNat 64 handle, 0⟩)
      | .miss => (.later, s.wantRecord e.core x.pid handle)

/-- The entry's copy of a record (R174). -/
def Entry.copyOf (x : Entry) (handle : Nat) : Nat := lookupD x.recs handle 0

/-! ### Boxes in slots (R177, R213) -/

/-- Swz of R213. -/
def swizzle (mask o : Nat) : Nat := o ^^^ ((o / 1024 &&& mask) * 32)

/-- Bytes of a row rounded up to whole granules. -/
def rowLen (n0 size : Nat) : Nat := roundUp (n0 * size) 16

/-- The granules of a box of rows at logical offsets of a slot, at their swizzled places (R213). -/
def boxGranules (slot off rows pitch len mask : Nat) : List Nat :=
  (List.range rows).flatMap fun r => (List.range (len / 16)).map fun g =>
    1024 * slot + swizzle mask (off + r * pitch + 16 * g) / 16

/-- Sets granules empty in one action (EF, OEF). -/
def State.emptyGranules (s : State) (core : Nat) (gs : List Nat) : State :=
  s.modCore core fun c => { c with empty := gs.foldl (fun m g => addRange g 1 m) c.empty }

/-- A granule lands from an engine: its 16 bytes are written and it turns full (R144, R145). -/
def State.landGranule (s : State) (core granule : Nat) (data : List Byte) : State := s.slotStore core (16 * granule) data

/-- Bytes that land at a logical offset of a slot, granule by granule, some time later; they count as in flight. -/
def State.landLater (s : State) (e : EntryRef) (slot off mask : Nat) (bytes : List Byte) : State :=
  let s := s.modEntry e fun x => { x with flight := x.flight + bytes.length / 16 }
  (List.range (bytes.length / 16)).foldl (fun s i =>
    s.postFree 64 (.engineGranuleLand e.core ((16384 * slot + swizzle mask (off + 16 * i)) / 16) ((bytes.drop (16 * i)).take 16) e)) s

/-- The entry has nothing left to move or to land. -/
def State.maybeDone (s : State) (e : EntryRef) : State :=
  match s.entry? e with
  | some x => if x.stage = 1 && x.todo.isEmpty && x.flight = 0 then s.post 0 (.entryComplete e) else s
  | none => s

/-- One fewer of the entry's movements is in flight. -/
def State.landed (s : State) (e : EntryRef) (n : Nat) : State :=
  (s.modEntry e fun x => { x with flight := x.flight - n }).maybeDone e

/-- The strands of a core that wait for a granule follow what the entry that fills it had heard of (R337, R344). -/
def State.tellGranule (s : State) (e : EntryRef) : State :=
  let l := s.stillOpen (((s.entry? e).map (·.deps)).getD [])
  if l.isEmpty then s else s.modCore e.core fun c => { c with heard := (s.stillOpen c.heard ++ l.filter (·.2.isNone)).eraseDups }

/-- ENGINE_GRANULE_LAND (R144-R146): also into a slot that has been rebound meanwhile. -/
def execEngineGranuleLand (core granule : Nat) (data : List Byte) (e : EntryRef) (s : State) :
    Host.Outcome State Fault Refusal :=
  .next (((s.tellGranule e).landGranule core granule data).landed e 1)

/-- A run of granules of a slot as a source: empty, bad, or its bytes (R145, R153). -/
inductive Source where
  | wait
  | bad
  | bytes (b : List Byte)
deriving DecidableEq, Repr

/-- The granules, as byte addresses, of `n` bytes from a logical offset of a slot (R213). -/
def sourcePlaces (slot off n mask : Nat) : List Nat :=
  (List.range (roundUp n 16 / 16)).map fun i => 16384 * slot + swizzle mask (off / 16 * 16 + 16 * i)

/-- Reads the first `n` bytes of granules, those read ahead as they were then (R145, R213). -/
def Core.sourceBytes (c : Core) (ahead : List (Nat × List Byte)) (places : List Nat) (n : Nat) : Source :=
  let now := places.filter fun a => !ahead.any fun p => p.1 == a
  if now.any fun a => c.someEmpty a 16 then .wait
  else if now.any fun a => c.slotBad a 16 then .bad
  else .bytes ((places.flatMap fun a => lookupD ahead a (c.slots.readBytes a 16)).take n)

/-- An engine's read for an entry: a bad codeword is reported and ends the entry, a corrected one is reported (R153). -/
def State.readSource (s : State) (e : EntryRef) (ahead : List (Nat × List Byte)) (places : List Nat) (n : Nat)
    (k : List Byte → State → Option State) : Option State :=
  match (s.core e.core).sourceBytes ahead places n with
  | .wait => none
  | .bad => some ((s.reportUncorrected e.core (places.headD 0)).faultEntry e causeSlotUncorrectable)
  | .bytes bs => k bs (s.reportRead e.core (places.filter fun a => !ahead.any fun p => p.1 == a))

/-! ### Copy entries (R213) -/

/-- The late cause that a copy's own checks find, of a record with rank and extents (R213). -/
def copyFault (s : State) (r : Nat) (b : List Byte) : Option Nat :=
  let size := typeSize (recFormat r)
  let rank := recRank r
  let len := rowLen (cpN0 b) size
  let k := cpK b
  let corner := [k.getD 0 0 + cpN0 b - 1, k.getD 1 0 + cpN1 b - 1, k.getD 2 0, k.getD 3 0]
  if (if cpDir b = 0 then !recR r else !recW r) || s.hostClosed r then some causeLayoutPermission
  else if (List.range 4).any (fun i => rank ≤ i && k.getD i 0 != 0) || (rank = 1 && cpN1 b ≠ 1) then some causeLayoutRank
  else if cpRp b < len || 16384 < cpSoff b + (cpN1 b - 1) * cpRp b + len then some causeCopyRange
  else if recPad r = 0 && !inRange r corner then some causeLayoutBounds
  else none

/-- Units of 64 bytes in a row. -/
def unitsPerRow (len : Nat) : Nat := (len + 63) / 64

/-- What a copy works with: row length, units of a row, number of rows, swizzle mask. -/
structure CopyPlan where
  layout : Nat
  size : Nat
  len : Nat
  rows : Nat
  mask : Nat
deriving DecidableEq, Repr

/-- The plan of an entry whose record has been read. -/
def copyPlan (x : Entry) (b : List Byte) : CopyPlan :=
  if cpDir b = 2 then ⟨0, 1, cpN0 b, 1, 0⟩
  else
    let r := x.copyOf (cpHandle b)
    ⟨r, typeSize (recFormat r), rowLen (cpN0 b) (typeSize (recFormat r)), cpN1 b, recSwz r⟩

/-- Offset in its row, and length, of a unit. -/
def unitSpan (p : CopyPlan) (u : Nat) : Nat × Nat × Nat :=
  let r := u / unitsPerRow p.len
  let j := 64 * (u % unitsPerRow p.len)
  (r, j, min 64 (p.len - j))

/-- The source granules of a unit of a copy out of a slot, as byte addresses (R213). -/
def unitSources (p : CopyPlan) (b : List Byte) (u : Nat) : List Nat :=
  let (r, j, n) := unitSpan p u
  if cpDir b = 0 then []
  else if cpDir b = 1 then sourcePlaces (cpSlot b) (cpSoff b + r * cpRp b + j) n p.mask
  else sourcePlaces (cpSlot2 b) (cpSoff2 b + j) n 0

/-- Of the next units of a copy out of a slot, some granules that are full are read now, each by itself (R145, R343). -/
def State.readAhead (s : State) (e : EntryRef) : State :=
  match s.entry? e with
  | none => s
  | some x =>
    let b := (s.core e.core).entryBytes x
    if x.stage ≠ 1 || cpDir b = 0 then s
    else
      let c := s.core e.core
      let gs := (x.todo.take 8).flatMap (unitSources (copyPlan x b) b)
      let (n, s) := s.fresh
      let now := (gs.zipIdx.filter fun p => n.testBit p.2 && !c.someEmpty p.1 16 && !c.slotBad p.1 16 && !x.ahead.any fun q => q.1 == p.1).map (·.1)
      (s.modEntry e fun y => { y with ahead := y.ahead ++ now.map fun a => (a, c.slots.readBytes a 16) }).reportRead e.core now

/-- A copy starts: its checks, the emptying of its destination, and its units (R213). -/
def State.startCopy (s : State) (e : EntryRef) (b : List Byte) : State :=
  let begin_ := fun (s : State) (p : CopyPlan) =>
    let s := if cpEf b then s.emptyGranules e.core (boxGranules (cpSlot b) (cpSoff b) p.rows (cpRp b) p.len p.mask) else s
    ((s.modEntry e fun x => { x with todo := List.range (p.rows * unitsPerRow p.len) }).readAhead e).post 0 (.copyTransfer e.core)
  if cpDir b = 2 then begin_ s ⟨0, 1, cpN0 b, 1, 0⟩
  else match s.entryRecord e (cpHandle b) with
    | (.ok r, s) =>
      match copyFault s r b with
      | some c => s.faultEntry e c
      | none => match s.entry? e with
        | some x => begin_ s (copyPlan x b)
        | none => s
    | (.bad c, s) => s.faultEntry e c
    | (.later, s) => s

/-- The elements of a unit: offset in the unit, and coordinates. -/
def unitElems (p : CopyPlan) (b : List Byte) (u : Nat) : List (Nat × List Nat) :=
  let (r, j, n) := unitSpan p u
  let k := cpK b
  (List.range (n / max p.size 1)).filterMap fun t =>
    let i := j / max p.size 1 + t
    if i < cpN0 b then some (t * p.size, [k.getD 0 0 + i, k.getD 1 0 + r, k.getD 2 0, k.getD 3 0]) else none

/-- The request of an engine for an entry (R213, R215), at the scope of its record's space (R343); a position of its own tells the gather
engine's (R320). -/
def State.engineReq (s : State) (e : EntryRef) (pid rec unit id : Nat) (store : Bool) (elems : List Elem) : Req :=
  { s.recordReq ⟨e.core, if e.chain = 5 then gatherPos else 100⟩ (.engine e store) rec id with
    pid := pid, x := BitVec.ofNat 64 unit, elems := elems, scope := if 2 ≤ s.spaceOf rec then 8 else 5
    deps := if store then s.stillOpen (((s.entry? e).map (·.deps)).getD [] ++ (s.core e.core).heard) else [] }

/-- An engine's element through a record: in a remote slot it stands at the swizzled place of its offset (R177; log 15). -/
def engineElem (r : Nat) (e : Elem) : Elem :=
  if recSpace r = 3 then { e with va := e.va / 16384 * 16384 + swizzle (recSwz r) (e.va % 16384) } else e

/-- Adds an engine's request; one that has nothing to access is done at once. -/
def State.addEngineReq (s : State) (r : Req) : State := (s.addReq r).finishReq r.id

/-- Moves one unit of a copy: a read of its elements, a store of the bytes of its granules, or a move from slot to slot.
None while its source granules are empty or the network interface takes no message (R213, R318). -/
def State.moveUnit (s : State) (e : EntryRef) (x : Entry) (b : List Byte) (u : Nat) : Option State :=
  let p := copyPlan x b
  let (_, j, n) := unitSpan p u
  let gs := unitSources p b u
  let took := fun (s : State) => s.modEntry e fun y => { y with todo := y.todo.filter (· != u), ahead := y.ahead.filter fun q => !gs.contains q.1 }
  let started := fun (s : State) => (took s).modEntry e fun y => { y with flight := y.flight + 1 }
  if cpDir b != 2 && 2 ≤ s.spaceOf p.layout && (s.core e.core).cannotSend then none
  else if cpDir b = 0 then
    let (id, s) := s.nextSerial
    let els := (unitElems p b u).filterMap fun (o, k) =>
      if inRange p.layout k then some (elemAt (locate p.layout (dieOf e.core) k) p.size o p.size false []) else none
    some ((started s).addEngineReq (s.engineReq e x.pid p.layout u id false (els.map (engineElem p.layout))))
  else s.readSource e x.ahead gs n fun bs s =>
    if cpDir b = 2 then some (((took s).landLater e (cpSlot b) (cpSoff b + j) 0 bs).maybeDone e)
    else
      let (id, s) := s.nextSerial
      let els := (unitElems p b u).flatMap fun (o, k) => storeElems p.layout (dieOf e.core) o ((bs.drop o).take p.size) k
      some ((started s).addEngineReq (s.engineReq e x.pid p.layout u id true (els.map (engineElem p.layout))))

/-- The bytes of a unit that has been read: pad values, the elements read, and zeros after the row's data (R213). -/
def unitBytes (p : CopyPlan) (b : List Byte) (u : Nat) (els : List Elem) : List Byte :=
  let (_, _, n) := unitSpan p u
  let pads := (unitElems p b u).foldl (fun m (o, _) => m.take o ++ padBytes p.layout ++ m.drop (o + p.size)) (List.replicate n 0)
  els.foldl (fun m e => m.take e.put ++ e.data ++ m.drop (e.put + e.data.length)) pads

/-- A copy's request is done: its bytes land in the slot, or its stores have been acknowledged (R204, R213). -/
def State.unitDone (s : State) (r : Req) (e : EntryRef) : State :=
  let s := s.dropReq r.id
  match s.entry? e with
  | none => s
  | some x =>
    let b := (s.core e.core).entryBytes x
    let u := r.x.toNat
    match r.kind with
    | .engine _ false =>
      let p := copyPlan x b
      let (row, j, _) := unitSpan p u
      (s.landLater e (cpSlot b) (cpSoff b + row * cpRp b + j) p.mask (unitBytes p b u r.elems)).landed e 1
    | _ => s.landed e 1

/-- The copy entries in progress on a core that have units left, with their places in the round (R213). -/
def Core.copies (c : Core) : List (Nat × EntryRef × Entry) :=
  (c.round [2, 3, 4, 7]).flatMap fun (key, o, ch) =>
    ((c.chain o ch).entries.filter fun e => e.stage == 1 && !e.todo.isEmpty).map fun e => (key, ⟨c.id, o, ch, e.ticket⟩, e)

/-- Numbers the entries of a list. -/
def numbered {α : Type} (l : List α) : List (Nat × α) := (List.range l.length).zip l

/-- Moves one unit for the first entry, in round-robin order from a place, that has data ready (R213). -/
def State.moveOne (s : State) (core : Nat) : State :=
  let c := s.core core
  let l := c.copies
  let order := l.filter (fun x => c.rrUnit ≤ 2 ^ 32 * x.1 + x.2.1.ticket) ++ l.filter fun x => 2 ^ 32 * x.1 + x.2.1.ticket < c.rrUnit
  let try_ := fun (x : Nat × EntryRef × Entry) =>
    let b := c.entryBytes x.2.2
    x.2.2.todo.firstM (fun u => (s.moveUnit x.2.1 x.2.2 b u).map fun t => (x, t))
  match order.firstM try_ with
  | some (x, t) => t.modCore core fun c => { c with rrUnit := 2 ^ 32 * x.1 + x.2.1.ticket + 1 }
  | none => s

/-- The copies in progress read ahead (R213, R343). -/
def State.copiesAhead (s : State) (core : Nat) : State := (s.core core).copies.foldl (fun (s : State) x => s.readAhead x.2.1) s

/-- Finished requests of the copy engine of a core. -/
def State.copyReplies (s : State) (core : Nat) : List (Req × EntryRef) :=
  s.reqs.filterMap fun r => match r.kind with
    | .engine e _ => if e.core = core && e.chain ≠ 5 && r.failed = 0 && r.elems.all (fun x => x.phase == .done) then some (r, e) else none
    | _ => none

/-- COPY_TRANSFER (R213): takes in what has returned and moves up to 512 bytes, in units of 64, once a cycle. -/
def execCopyTransfer (core : Nat) (s : State) : Host.Outcome State Fault Refusal :=
  .next (
    let s := (s.copyReplies core).foldl (fun s (r, e) => s.unitDone r e) s
    if (s.core core).copyAt = some s.cycle then s
    else
      let s := (List.range 8).foldl (fun s _ => s.moveOne core) (s.modCore core fun c => { c with copyAt := some s.cycle })
      if (s.core core).copies.isEmpty then s else (s.copiesAhead core).post 0 (.copyTransfer core))

/-! ### Indexed gathers (R215, R216) -/

/-- A record's rank does not fit the entry: a coordinate at or above its last dimension, or several elements in a row of
rank 1 (R215). -/
def gatherRankBad (r : Nat) (b : List Byte) : Bool :=
  (List.range 3).any (fun i => recRank r ≤ i + 1 && (gaK b).getD i 0 != 0) || (recRank r = 1 && gaN0 b ≠ 1)

/-- The record of part 0 and the checks that come before any request (R215). -/
def gatherFault (s : State) (r : Nat) (b : List Byte) : Option Nat :=
  let len := rowLen (gaN0 b) (typeSize (recFormat r))
  if !recR r || s.hostClosed r then some causeLayoutPermission
  else if gatherRankBad r b then some causeLayoutRank
  else if gaRp b < len || 16384 < gaDoff b + (gaCount b - 1) * gaRp b + len then some causeCopyRange
  else none

/-- The number of the row event that stands for no row: the engine looks for work. -/
def noRow : Nat := 4096

/-- A gather starts (R215). -/
def State.startGather (s : State) (e : EntryRef) (b : List Byte) : State :=
  match s.entryRecord e (gaHandle b) with
  | (.bad c, s) => s.faultEntry e c
  | (.later, s) => s
  | (.ok r, s) =>
    match gatherFault s r b with
    | some c => s.faultEntry e c
    | none =>
      let len := rowLen (gaN0 b) (typeSize (recFormat r))
      let s := if bit (enFlags b) 0 then s.emptyGranules e.core (boxGranules (gaDslot b) (gaDoff b) (gaCount b) (gaRp b) len (recSwz r)) else s
      (s.modEntry e fun x => { x with todo := List.range (gaCount b) }).post 0 (.gatherRowLand e noRow)

/-- Coordinates of element `i` of a row in a record of its rank (R215). -/
def gatherCoords (r row i : Nat) (b : List Byte) : List Nat :=
  let t := recRank r - 1
  let k := (padCoords (gaK b)).set t row
  if t = 0 then k else k.set 0 (k.getD 0 0 + i)

/-- The bytes of a row that is not read: the pad value, or zero (R215). -/
def gatherPad (r h : Nat) (b : List Byte) : List Byte :=
  let size := typeSize (recFormat h)
  let one := if recPad r = 2 then bytesOfNat size 0 else bytesOfNat size (recPadv r)
  (List.replicate (gaN0 b) one).flatten ++ List.replicate (rowLen (gaN0 b) size - gaN0 b * size) 0

/-- One more dropped element of a strand, up to the largest count (R117). -/
def bumpDrops (n : BitVec 32) : BitVec 32 := if n = BitVec.allOnes 32 then n else n + 1

/-- A row of an entry is dropped: its appender counts it, also while its crew is away (R117, R215, R218). -/
def State.dropRow (s : State) (core : Nat) (x : Entry) : State :=
  match (s.core core).appender x, x.watch with
  | some sid, _ => s.modStrand sid fun st => { st with gatherDrops := bumpDrops st.gatherDrops }
  | none, .crew t => s.modJob x.pid fun j => j.modTask t fun t =>
    { t with kept := t.kept.map fun k => if k.rank = x.rank then { k with drops := k.drops + 1 } else k }
  | none, _ => s

/-- Sends the request of one row, or lands its pad (R215); `none` while its index granule is empty, its part record is being
fetched, or the interface takes no message. -/
def State.sendRow (s : State) (e : EntryRef) (x : Entry) (b : List Byte) (i : Nat) : Option State :=
  s.readSource e [] (sourcePlaces (gaIslot b) (gaIoff b + 4 * i) 16 0) 16 fun g s =>
    let index := natOfBytes ((g.drop ((gaIoff b + 4 * i) % 16)).take 4)
    let row := field index 0 24
    let handle := gaHandle b + field index 24 8
    let h := x.copyOf (gaHandle b)
    if 0xFFFF ≤ handle then some (s.faultEntry e causeLayoutInvalid)
    else match s.entryRecord e handle with
      | (.later, s) => if s.awaits (· == .gatherRowLand e noRow) then none else some (s.post 64 (.gatherRowLand e noRow))
      | (.bad code, s) => some (s.faultEntry e code)
      | (.ok r, s) =>
        let t := recRank r - 1
        let size := typeSize (recFormat r)
        let coords := (List.range (gaN0 b)).map fun j => (j * size, gatherCoords r row j b)
        let took := fun (s : State) => s.modEntry e fun y => { y with todo := y.todo.filter (· != i) }
        if recFormat r ≠ recFormat h then some (s.faultEntry e causeLayoutType)
        else if !recR r || s.hostClosed r then some (s.faultEntry e causeLayoutPermission)
        else if gatherRankBad r b then some (s.faultEntry e causeLayoutRank)
        else if recExt r t ≤ row then
          some (((took (s.dropRow e.core x)).landLater e (gaDslot b) (gaDoff b + i * gaRp b) (recSwz h) (gatherPad r h b)).maybeDone e)
        else if recPad r = 0 && coords.any (fun p => !inRange r p.2) then some (s.faultEntry e causeLayoutBounds)
        else if 2 ≤ s.spaceOf r && (s.core e.core).cannotSend then none
        else
          let (id, s) := s.nextSerial
          let els := coords.filterMap fun (o, k) =>
            if inRange r k then some (elemAt (locate r (dieOf e.core) k) size o size false []) else none
          let s := (took s).modEntry e fun y => { y with flight := y.flight + 1 }
          some (s.addEngineReq { s.engineReq e x.pid r i id false (els.map (engineElem r)) with y := BitVec.ofNat 64 handle })

/-- Requests of an entry on their way. -/
def State.rowsOut (s : State) (e : EntryRef) : Nat :=
  (s.reqs.filter fun r => match r.kind with | .engine x _ => x == e | _ => false).length

/-- Sends rows in index order, up to 64 at a time (R216). -/
def State.pumpRows : Nat → State → EntryRef → State
  | 0, s, _ => s
  | fuel + 1, s, e =>
    match s.entry? e with
    | none => s
    | some x =>
      match x.todo with
      | [] => s
      | i :: _ =>
        if x.stage ≠ 1 || 64 ≤ s.rowsOut e then s
        else match s.sendRow e x ((s.core e.core).entryBytes x) i with
          | some t => State.pumpRows fuel t e
          | none => if s.awaits (· == .gatherRowLand e noRow) then s else s.post 16 (.gatherRowLand e noRow)

/-- The bytes of a row that has been read. -/
def rowBytes (r h : Nat) (b : List Byte) (els : List Elem) : List Byte :=
  els.foldl (fun m e => m.take e.put ++ e.data ++ m.drop (e.put + e.data.length)) (gatherPad r h b)

/-- The request of a row of an entry that has returned. -/
def State.rowReply (s : State) (e : EntryRef) (row : Nat) : Option Req :=
  s.reqs.find? fun r => (match r.kind with | .engine x _ => x == e | _ => false) && r.x.toNat == row &&
    r.elems.all fun x => x.phase == .done

/-- GATHER_ROW_LAND (R215, R216): a row's granules land in the slot, and the next rows are asked for. -/
def execGatherRowLand (e : EntryRef) (row : Nat) (s : State) : Host.Outcome State Fault Refusal :=
  .next (match s.entry? e with
    | none => s
    | some x =>
      let b := (s.core e.core).entryBytes x
      let h := x.copyOf (gaHandle b)
      let s := match s.rowReply e row with
        | none => s
        | some r =>
          let part := x.copyOf r.y.toNat
          ((s.dropReq r.id).landLater e (gaDslot b) (gaDoff b + row * gaRp b) (recSwz h) (rowBytes part h b r.elems)).landed e 1
      s.pumpRows 64 e)

/-! ### CHAIN_ENTRY_START (R203, R204, R209) -/

/-- The chains of an engine: 2 copy, 3 gather/remote, 4 fabric unit. -/
def engineChains (k : Nat) : List Nat := if k = 2 then [2, 3, 4, 7] else if k = 3 then [5] else [6]

/-- The place of an engine's round. -/
def Core.roundAt (c : Core) (k : Nat) : Nat := if k = 2 then c.rrCopy else if k = 3 then c.rrGather else c.rrFabric
def Core.setRound (c : Core) (k n : Nat) : Core :=
  if k = 2 then { c with rrCopy := n } else if k = 3 then { c with rrGather := n } else { c with rrFabric := n }

/-- The records that an entry needs before it starts are in the cache, or cannot be had (R174). -/
def State.startReady (s : State) (core pid : Nat) (b : List Byte) : Bool :=
  let h := if enKind b = 2 && cpDir b ≠ 2 then some (cpHandle b) else if enKind b = 3 then some (gaHandle b) else none
  match h with
  | some h => s.record core pid h != .miss
  | none => true

/-- CHAIN_ENTRY_START (R203, R204, R206, R208, R209): an engine starts the next entry of its round, checks it again, and looks for
more, as it does while a head waits for what precedes its CHAPP. -/
def execChainEntryStart (core engine : Nat) (s : State) : Host.Outcome State Fault Refusal :=
  let c := s.core core
  .next (match pickFrom (c.roundAt engine) (c.round (engineChains engine)) fun x => (s.startable core x.1 x.2).isSome with
    | none =>
      if (c.round (engineChains engine)).any fun x => (s.startNext core x.2.1 x.2.2).isSome then s.post 0 (.chainEntryStart core engine) else s
    | some (key, o, ch) =>
      match s.startable core o ch with
      | none => s
      | some x =>
        let e : EntryRef := ⟨core, o, ch, x.ticket⟩
        let b := c.entryBytes x
        if !s.startReady core x.pid b then
          let h := if enKind b = 2 then cpHandle b else gaHandle b
          (s.wantRecord core x.pid h).post 64 (.chainEntryStart core engine)
        else
          let s := s.modCore core fun c => c.setRound engine (key + 1)
          let s := s.markStart e x (enKind b) (if enKind b = 6 then 5 else engine)
          let s := s.post 0 (.chainEntryStart core engine)
          if x.addr.any fun a => c.slotBad a 64 then s.faultEntry e causeSlotUncorrectable
          else if !s.entryOk core x.watch x.pid ch x.priv b then s.faultEntry e causeChainEntry
          else if enKind b = 6 then s.post 0 (.markerComplete e)
          else if enKind b = 2 then s.startCopy e b
          else if enKind b = 3 then s.startGather e b
          else
            let s := if brEf b then s.emptyGranules core (boxGranules (brDslot b) (brDoff b) 1 0 (512 * brNv b) 0) else s
            (s.modEntry e fun y => { y with todo := List.range (brNv b) }).post 0 (.bulkReduceVector e))

end Sys2Proof.Machine
end

