-- ==== Sys2Proof/Machine/Matrix.lean ====
section
/-! DEFINITION. The tile scheduler, the matrix engines and their drains, and the instructions on a crew's tables and
accumulator slots (spec 11 R220-R240; 04 R72-R76). -/

namespace Sys2Proof.Machine

/-! ### Engines and their records -/

/-- A matrix engine of a core. -/
def Core.engine (c : Core) (k : Nat) : Engine := c.engines[k]?.getD {}

/-- Replaces an engine. -/
def State.setEngine (s : State) (core k : Nat) (g : Engine) : State :=
  s.modCore core fun c => { c with engines := c.engines.setIfInBounds k g }

/-- Changes an accumulator slot. -/
def Core.modAcc (c : Core) (n : Nat) (f : AccSlot → AccSlot) : Core := { c with acs := c.acs.setIfInBounds n (f ((c.acs[n]?).getD {})) }

/-- The record's bytes. -/
def State.recordBytes (s : State) (e : EntryRef) : List Byte :=
  ((s.entry? e).map fun x => (s.core e.core).entryBytes x).getD []

/-- Frees an engine; the scheduler looks for work in the same cycle. -/
def State.freeEngine (s : State) (core k : Nat) : State :=
  ((s.setEngine core k {}).withdraw (· == .tileRecordStart core)).postNow (.tileRecordStart core)

/-- The record of an engine takes a late fault; ACC keeps what the last applied K-group left (R230). -/
def State.faultRecord (s : State) (core k : Nat) (e : EntryRef) (code : Nat) : State :=
  (s.freeEngine core k).faultEntry e code

/-- The record of an engine is complete (R228). -/
def State.endRecord (s : State) (core k : Nat) (e : EntryRef) : State := (s.freeEngine core k).completeEntry e

/-! ### The scheduler (R227) -/

/-- Two records name a common accumulator slot (R227). -/
def tkShare (a b : List Byte) : Bool := (List.range 8).any fun i => tkNames a i && tkNames b i

/-- Every record appended earlier by the same crew that names its ACC or CACC has completed (R227). -/
def Core.slotsFree (c : Core) (o : Owner) (x : Entry) (b : List Byte) : Bool :=
  [0, 1].all fun ch => (c.chain o ch).entries.all fun y =>
    !(y.fork < x.fork && y.stage != 2 && tkShare (c.entryBytes y) b)

/-- The head record of an instance of chain 0 or 1, if only what precedes its CHAPP can hold it back (R208, R227). -/
def State.tileNext (s : State) (core : Nat) (o : Owner) (ch : Nat) : Bool :=
  let c := s.core core
  let w := c.owned o
  let ch' := c.chain o ch
  !w.pos.isEmpty && !w.stopped && !w.suspended.any (fun x => x.chain == ch) && !ch'.halt &&
    (match ch'.head with
     | none => false
     | some x =>
       let b := c.entryBytes x
       c.waited x.watch x.pid (enWen b) (enWchain b) (enWseq b) &&
         (enKind b == 6 || ([0, 1].any (fun k => (c.engine k).stage == 0) &&
           c.waited x.watch x.pid (tkD2en b) (tkD2chain b) (tkD2seq b) && c.slotsFree o x b)))

/-- The head record of an instance of chain 0 or 1 is ready (R206, R208, R227). -/
def State.tileReady (s : State) (core : Nat) (o : Owner) (ch : Nat) : Bool :=
  s.tileNext core o ch && ((s.core core).chain o ch).head.any (s.forked core)

/-- The next suspended record of a placed crew, or of one that has gone while it still held its slots; a started one runs on also while its
instance is halted (R214, R218, R240). -/
def Core.nextSuspended (c : Core) : Option (Crew × Suspended) :=
  c.crews.findSome? fun w => if (w.pos.isEmpty || w.stopped) && !w.gone then none else w.suspended.head?.map fun x => (w, x)

/-- A suspended record continues on a free engine from its next K-group (R240). -/
def State.resumeRecord (s : State) (core k : Nat) (w : Crew) (x : Suspended) : State :=
  let s := s.modOwned core (.crew w.task) fun w => { w with suspended := w.suspended.filter fun y => y != x }
  let s := s.setEngine core k
    { entry := some ⟨core, .crew w.task, x.chain, x.ticket⟩, stage := if x.index.isEmpty then 1 else 2, g := x.g, row := 0, latch := [],
      index := x.index, beam := x.beam, beamOn := x.beamOn, budget := x.budget }
  (s.postNow (.kGroupApply core k)).post 0 (.tileRecordStart core)

/-- A record starts on an engine (R227, R228), with the crew's tables as its append found them (R224, R226): CLR resets its slot. -/
def State.startTile (s : State) (e : EntryRef) (x : Entry) (b : List Byte) (k : Nat) : State :=
  let s := if tkClr b then s.modCore e.core fun c => c.modAcc (tkAcc b) fun a => { a with els := [], e := -200 } else s
  let s := s.setEngine e.core k
    { entry := some e, stage := if tkNok b then 4 else 1, g := 0, row := 0, latch := [], index := [], beam := x.beam, beamOn := x.beamOn,
      budget := x.budget }
  if !tkNok b then s.postNow (.kGroupApply e.core k)
  else if tkDm b = 0 then s.endRecord e.core k e
  else s.postNow (.drainStart e.core k)

/-- The first free engine. -/
def Core.freeEngine (c : Core) : Option Nat := [0, 1].find? fun k => (c.engine k).stage == 0

/-- TILE_RECORD_START (R227, R228, R240): a suspended record resumes, or the first ready head of the round starts. -/
def execTileRecordStart (core : Nat) (s : State) : Host.Outcome State Fault Refusal :=
  let c := s.core core
  .next (match c.nextSuspended, c.freeEngine with
    | some (w, x), some k => s.resumeRecord core k w x
    | _, free =>
      match pickFrom c.rrTile (c.round [0, 1]) fun x => s.tileReady core x.1 x.2 with
      | none => if (c.round [0, 1]).any fun x => s.tileNext core x.2.1 x.2.2 then s.post 0 (.tileRecordStart core) else s
      | some (key, o, ch) =>
        match (c.chain o ch).head with
        | none => s
        | some x =>
          let e : EntryRef := ⟨core, o, ch, x.ticket⟩
          let b := c.entryBytes x
          let k := free.getD 0
          let s := s.modCore core fun c => { c with rrTile := key + 1 }
          let s := (s.markStart e x (enKind b) (if enKind b = 6 then 5 else k)).post 0 (.tileRecordStart core)
          if x.addr.any fun a => c.slotBad a 64 then s.faultEntry e causeSlotUncorrectable
          else if !s.entryOk core x.watch x.pid ch x.priv b then s.faultEntry e causeChainEntry
          else if enKind b = 6 then s.post 0 (.markerComplete e)
          else s.startTile e x b k)

/-! ### Operands (R223-R226) -/

/-- Byte address in the slot store of row number x (R221). -/
def rowAddr (x : Nat) : Nat := 16384 * (x / 128) + 128 * (x % 128)

/-- Stored values of row i per K-group (R226). -/
def rowCount (b : List Byte) (budget : List Nat) (i : Nat) : Nat := if tkRbe b then 16 * budget.getD i 8 else 128

/-- x'[i] (R224). -/
def remap (beamOn : Bool) (beam : List Nat) (x : Nat) : Nat := if beamOn then beam.getD (x % 64) 0 + x / 64 else x

/-- The row slice of tile row i in K-group g (R223). -/
def sliceOf (b : List Byte) (index : List Nat) (g i : Nat) : Nat := index.getD i 0 + g * tkAg b

/-- The late cause that the row numbers of a K-group give (R223, R230): rows without a stored value read nothing. -/
def sliceBad (b : List Byte) (index budget : List Nat) (g : Nat) : Bool :=
  (List.range 64).any fun i =>
    let n := rowCount b budget i
    let r := sliceOf b index g i
    n != 0 && (31744 ≤ r || (tkBf16 b && r % 2 == 1) || (tkRbe b && n < 128 && 31744 ≤ r + tkMoff b))

/-- The granules, as byte addresses, that a run of bytes covers. -/
def runGranules (a n : Nat) : List Nat := let (g, k) := granulesOf a n; (List.range k).map fun i => 16 * (g + i)

/-- Bytes of a run from latched granules. -/
def latchedRun (l : List (Nat × List Byte)) (a n : Nat) : List Byte :=
  (((runGranules a n).flatMap fun g => lookupD l g (List.replicate 16 0)).drop (a % 16)).take n

/-- The rows of B that the metadata latched so far names, where no row is dense (R226). -/
def namedRows (b : List Byte) (l : List (Nat × List Byte)) (index budget : List Nat) (g : Nat) : List Nat :=
  ((List.range 64).flatMap fun i =>
    let n := rowCount b budget i
    let a := rowAddr (sliceOf b index g i + tkMoff b)
    if n = 0 || !(runGranules a n).all (fun x => l.any fun p => p.1 == x) then []
    else (latchedRun l a n).map fun p => p.toNat % 128).eraseDups

/-- The granules that K-group g reads, as far as what is latched tells: B rows that no position names are not read (R223, R225, R226). -/
def groupGranules (b : List Byte) (l : List (Nat × List Byte)) (index budget : List Nat) (g : Nat) : List Nat :=
  let rows := (List.range 64).flatMap fun i =>
    let n := rowCount b budget i
    let r := sliceOf b index g i
    if n = 0 then []
    else if tkBf16 b then runGranules (rowAddr r) 256
    else runGranules (rowAddr r) n ++ (if tkRbe b && n < 128 then runGranules (rowAddr (r + tkMoff b)) n else [])
  let slots := if tkBf16 b then [tkBsl b (2 * g), tkBsl b (2 * g + 1)] else [tkBsl b g]
  let dense := (List.range 64).any fun i => rowCount b budget i = 128
  let bs := if dense then slots.flatMap fun sl => runGranules (16384 * sl) 16384
    else (namedRows b l index budget g).flatMap fun p => (List.range 8).map fun i =>
      16384 * tkBsl b g + swizzle (tkBswz b) (128 * p + 16 * i)
  let sa := if tkSae b then runGranules (16384 * tkSaSlot b + tkSaOff b + 256 * g) 256 else []
  let sb := if tkSbe b then runGranules (16384 * tkSbSlot b + tkSbOff b + 4 * g) 4 else []
  (rows ++ bs ++ sa ++ sb).eraseDups

/-- Latches every granule of a list that is full and not yet latched; it also names the last one that cannot be read (R145, R153). -/
def Core.latchGranules (c : Core) (gs : List Nat) (have_ : List (Nat × List Byte)) : List (Nat × List Byte) × Option Nat :=
  gs.foldl (fun (l, bad) a =>
    if l.any (fun p => p.1 == a) || c.someEmpty a 16 then (l, bad)
    else if c.slotBad a 16 then (l, some a)
    else (l ++ [(a, c.slots.readBytes a 16)], bad)) (have_, none)

/-- Bytes of a latched B slot in logical order (R223). -/
def latchedSlot (l : List (Nat × List Byte)) (slot mask : Nat) : List Byte :=
  (List.range 1024).flatMap fun i => lookupD l (16384 * slot + swizzle mask (16 * i)) (List.replicate 16 0)

/-! ### One K-group (R72, R73, R75) -/

/-- Format of a coded operand (R221). -/
def opndFmt (code : Nat) : Fmt := if code = 0 then .e4m3 else if code = 1 then .e5m2 else .bf16

/-- Values of little-endian elements of `size` bytes. -/
def valuesOf (f : Fmt) (size : Nat) (bs : List Byte) : List FVal := (piecesOf size bs.length bs).map fun p => f.decode (natOfBytes p)

/-- Rows of B as lists of columns: row k holds B[k, j] for j from 0 to 127. -/
def bRows (b : List Byte) (l : List (Nat × List Byte)) (g : Nat) : List (List FVal) :=
  let f := opndFmt (tkBfmt b)
  if tkBf16 b then
    piecesOf 128 128 (valuesOf f 2 (latchedSlot l (tkBsl b (2 * g)) (tkBswz b) ++ latchedSlot l (tkBsl b (2 * g + 1)) (tkBswz b)))
  else piecesOf 128 128 (valuesOf f 1 (latchedSlot l (tkBsl b g) (tkBswz b)))

/-- The stored values of tile row i with the position each multiplies (R223, R226). -/
def aRow (b : List Byte) (l : List (Nat × List Byte)) (index budget : List Nat) (g i : Nat) : List (FVal × Nat) :=
  let f := opndFmt (tkAfmt b)
  let n := rowCount b budget i
  let r := sliceOf b index g i
  if n = 0 then []
  else if tkBf16 b then (valuesOf f 2 (latchedRun l (rowAddr r) 256)).zip (List.range 128)
  else
    let vs := valuesOf f 1 (latchedRun l (rowAddr r) n)
    if tkRbe b && n < 128 then vs.zip ((latchedRun l (rowAddr (r + tkMoff b)) n).map fun p => p.toNat % 128)
    else vs.zip (List.range 128)

/-- FP32 pattern of 1.0. -/
def oneF32 : Nat := 0x3F800000

/-- The scales of row i and of the group (R225). -/
def rowScale (b : List Byte) (l : List (Nat × List Byte)) (g i : Nat) : FVal :=
  let sa := if tkSae b then natOfBytes (latchedRun l (16384 * tkSaSlot b + tkSaOff b + 4 * (64 * g + i)) 4) else oneF32
  let sb := if tkSbe b then natOfBytes (latchedRun l (16384 * tkSbSlot b + tkSbOff b + 4 * g) 4) else oneF32
  scaleOf sa sb

/-- The contributions of a K-group to the elements 128 * i + j; those that are finite zero are left out (R72, R73). -/
def groupContribution (b : List Byte) (l : List (Nat × List Byte)) (index budget : List Nat) (g : Nat) : List (Nat × FVal) :=
  let rows := bRows b l g
  (List.range 64).flatMap fun i =>
    let scale := rowScale b l g i
    let pairs := (aRow b l index budget g i).map fun (v, p) => (v, rows.getD p [])
    (List.range 128).filterMap fun j =>
      let sum := pairs.foldl (fun acc (v, row) => dotAdd acc v (row.getD j (.fin false 0 0))) (clsFinite, (0 : Int))
      let c := (dotVal sum).mul scale
      if c.isZero then none else some (128 * i + j, c)

/-- Cycles that a K-group occupies its engine (R229). -/
def groupCycles (b : List Byte) (budget : List Nat) : Nat :=
  if tkBf16 b then 256
  else if tkRbe b then max 1 ((((List.range 64).map fun i => rowCount b budget i).sum + 127) / 128)
  else 64

/-! ### K_GROUP_APPLY (R228, R240) -/

/-- Suspends the record of an engine before its next K-group (R240). -/
def State.suspendRecord (s : State) (core k : Nat) (g : Engine) (e : EntryRef) : State :=
  let s := s.modOwned core e.owner fun w =>
    { w with suspended := w.suspended ++ [⟨e.chain, e.ticket, g.g, g.index, g.beam, g.beamOn, g.budget⟩] }
  s.freeEngine core k

/-- The crew of a record has stopped for a pre-emption or a cut. -/
def State.crewStopped (s : State) (e : EntryRef) : Bool := (s.owned e.core e.owner).stopped

/-- Latches what can be latched of K-group g: the state, which reports what was corrected, the granules latched, whether that is all of
them, and one that cannot be read (R145, R153, R228). -/
def State.latchInto (s : State) (core : Nat) (b : List Byte) (x : Engine) (g : Nat) (l : List (Nat × List Byte)) :
    State × List (Nat × List Byte) × Bool × Option Nat :=
  let c := s.core core
  let (l1, bad1) := c.latchGranules (groupGranules b l x.index x.budget g) l
  let need := groupGranules b l1 x.index x.budget g
  let (l2, bad2) := c.latchGranules need l1
  (s.reportRead core ((l2.drop l.length).map (·.1)), l2, need.all fun a => l2.any fun p => p.1 == a, bad1.orElse fun _ => bad2)

/-- While a K-group is computed the engine latches the next one (R229); the computation ends when it is due. -/
def State.computeGroup (s : State) (core k : Nat) (g : Engine) (b : List Byte) : State :=
  if tkNg b ≤ g.g + 1 || sliceBad b g.index g.budget (g.g + 1) then
    (s.setEngine core k g).post (g.due - s.cycle - 1) (.kGroupApply core k)
  else
    let (s, l, whole, _) := s.latchInto core b g (g.g + 1) g.next
    (s.setEngine core k { g with next := l }).post (if whole then g.due - s.cycle - 1 else 0) (.kGroupApply core k)

/-- The engine latches what it can of its next K-group: all of it, and the computation begins; a bad row number or granule, and
the record faults (R223, R228, R230). -/
def State.latchGroup (s : State) (core k : Nat) (g : Engine) (e : EntryRef) (b : List Byte) : State :=
  if s.crewStopped e then s.suspendRecord core k g e
  else if sliceBad b g.index g.budget g.g then s.faultRecord core k e causeTileOperand
  else
    let (s, l, whole, bad) := s.latchInto core b g g.g g.latch
    match bad with
    | some a => (s.reportUncorrected core a).faultRecord core k e causeSlotUncorrectable
    | none =>
    if whole then s.computeGroup core k { g with stage := 3, latch := l, next := [], due := s.cycle + groupCycles b g.budget } b
    else (s.setEngine core k { g with stage := 2, latch := l }).post 0 (.kGroupApply core k)

/-- The index vector is read once its granules are full (R223, R224). -/
def State.readIndex (s : State) (core k : Nat) (g : Engine) (e : EntryRef) (b : List Byte) : State :=
  let a := rowAddr (tkAidx b)
  if s.crewStopped e then s.suspendRecord core k g e
  else if 31744 ≤ tkAidx b then s.faultRecord core k e causeTileOperand
  else if (s.core core).someEmpty a 128 then s.post 0 (.kGroupApply core k)
  else if (s.core core).slotBad a 128 then (s.reportUncorrected core a).faultRecord core k e causeSlotUncorrectable
  else
    let s := s.reportCorrected core a 128
    let index := (piecesOf 2 64 ((s.core core).slots.readBytes a 128)).map fun p => remap g.beamOn g.beam (natOfBytes p)
    s.latchGroup core k { g with index := index } e b

/-- K_GROUP_APPLY (R75, R228): the engine's K-group, its operands latched, updates the accumulator as one action; before
that it reads what the K-group needs. -/
def execKGroupApply (core k : Nat) (s : State) : Host.Outcome State Fault Refusal :=
  let g := (s.core core).engine k
  .next (match g.entry with
    | none => s
    | some e =>
      let b := s.recordBytes e
      if g.stage = 1 then s.readIndex core k g e b
      else if g.stage = 2 then s.latchGroup core k g e b
      else if g.stage = 3 && s.cycle < g.due then s.computeGroup core k g b
      else if g.stage = 3 then
        let cs := groupContribution b g.latch g.index g.budget g.g
        let s := s.modCore core fun c => c.modAcc (tkAcc b) fun a => a.applyGroup cs
        let g := { g with g := g.g + 1, latch := g.next, next := [], stage := 2 }
        if g.g < tkNg b then s.latchGroup core k g e b
        else if tkDm b = 0 then s.endRecord core k e
        else (s.setEngine core k { g with stage := 4 }).postNow (.drainStart core k)
      else s)

/-! ### Drains (R231-R234) -/

/-- Format and element size of an output (R221). -/
def outFmt (code : Nat) : Fmt := if code = 0 then .f32 else if code = 1 then .bf16 else .e4m3
def outSize (code : Nat) : Nat := if code = 0 then 4 else if code = 1 then 2 else 1

/-- Where output row i lands (R231). -/
def outAddr (b : List Byte) (i : Nat) : Nat :=
  if tkOfmt b = 0 then 16384 * (tkOslot b + i / 32) + 512 * (i % 32) else 16384 * tkOslot b + 128 * outSize (tkOfmt b) * i

/-- DRAIN_START (R231): OEF empties the output area in one action. -/
def execDrainStart (core k : Nat) (s : State) : Host.Outcome State Fault Refusal :=
  let g := (s.core core).engine k
  .next (match g.entry with
    | none => s
    | some e =>
      let b := s.recordBytes e
      let area := if tkDm b = 3 then List.range' (1024 * tkOslot b) 33 else List.range' (1024 * tkOslot b) (512 * outSize (tkOfmt b))
      let s := if tkOef b then s.emptyGranules core area else s
      let s := s.setEngine core k { g with stage := 4, row := 0 }
      if tkDm b = 3 then s.post 1 (.sideDrain core k) else s.post 0 (.drainRow core k))

/-- A row of an accumulator: its 128 elements. -/
def AccSlot.row (a : AccSlot) (i : Nat) : List AccElem :=
  let near := a.els.filter fun p => 128 * i ≤ p.1 && p.1 < 128 * i + 128
  (List.range 128).map fun j => lookupD near (128 * i + j) {}

/-- Element (i, j) is masked (R232). -/
def maskedAt (b : List Byte) (i j : Nat) : Bool :=
  let q := tkQpos b + i * tkQstep b
  let kp := tkKpos b + j
  (tkCausal b && q < kp) || (tkWin b && kp < tkWstart b)

/-- FP32 patterns of -Inf. -/
def negInf : Nat := 0xFF800000

/-- Round(x + T) for T the exact sum of stored values (R232): one operation. -/
def addSum (x : Nat) (ts : List FVal) : Nat :=
  let w := ts.foldl WVal.addVal ((⟨0, noFlags⟩ : WVal).addVal (Fmt.f32.decode x))
  w.round

/-- An ONLINE row (R232): the patterns written, a, and the new maximum and sum. -/
def onlineRow (b : List Byte) (a : AccSlot) (i : Nat) : List Nat × Nat × W32 × W32 :=
  let f := outFmt (tkOfmt b)
  let mo := (a.m[i]?.getD 0).toNat
  let l := (a.l[i]?.getD 0).toNat
  let ss := (a.row i).mapIdx fun j x => if maskedAt b i j then negInf else x.drain a.e .f32 false
  let mn := ss.foldl (fun m x => if Fmt.f32.isNan x then m else Fmt.f32.max m x) mo
  if mn = negInf then (List.replicate 128 0, oneF32, a.m[i]?.getD 0, a.l[i]?.getD 0)
  else
    let ps := ss.map fun x => f.roundVal .rne (tkSat b) (Fmt.f32.decode (expBits (Fmt.f32.sub .rne x mn)))
    let al := expBits (Fmt.f32.sub .rne mo mn)
    let l' := addSum (Fmt.f32.mul .rne l al) (ps.map f.decode)
    (ps, al, BitVec.ofNat 32 mn, BitVec.ofNat 32 l')

/-- Rescale(c, i, a) of R233. -/
def AccSlot.rescale (c : AccSlot) (i a : Nat) : AccSlot :=
  if a = oneF32 then c
  else
    let v := Fmt.f32.decode a
    let one := fun (x : AccElem) =>
      if x.cls = clsNan then x
      else if x.cls = clsFinite then
        match v with
        | .fin s n e =>
          { x with m := (Exact.mk (s != decide (x.m < 0)) (x.m.natAbs * n) e false).roundInt .rne }
        | _ => ⟨clsNan, 0⟩
      else if v.isZero || v.isNan then ⟨clsNan, 0⟩ else x
    let els := (List.range 128).foldl (fun l j =>
      let x := one (lookupD c.els (128 * i + j) {})
      if x.isZero then dropAt l (128 * i + j) else putAt l (128 * i + j) x) c.els
    { c with els := els }

/-- DRAIN_ROW (R231-R233): one output row lands full, with its companion row rescaled. -/
def execDrainRow (core k : Nat) (s : State) : Host.Outcome State Fault Refusal :=
  let g := (s.core core).engine k
  .next (match g.entry with
    | none => s
    | some e =>
      if g.stage ≠ 4 || 64 ≤ g.row then s
      else
        let b := s.recordBytes e
        let i := g.row
        let acc := ((s.core core).acs[tkAcc b]?).getD {}
        let f := outFmt (tkOfmt b)
        let (ps, s) :=
          if tkDm b = 2 then
            let (ps, al, m, l) := onlineRow b acc i
            (ps, s.modCore core fun c =>
              let c := c.modAcc (tkAcc b) fun a => { a with m := a.m.setIfInBounds i m, l := a.l.setIfInBounds i l }
              if tkCen b then c.modAcc (tkCacc b) fun a => a.rescale i al else c)
          else ((acc.row i).map fun x => x.drain acc.e f (tkSat b), s)
        let s := s.slotStore core (outAddr b i) (ps.flatMap fun p => bytesOfNat (outSize (tkOfmt b)) p)
        let s := s.setEngine core k { g with row := i + 1 }
        if i + 1 < 64 then s.post 0 (.drainRow core k) else s.endRecord core k e)

/-- SIDE_DRAIN (R234). -/
def execSideDrain (core k : Nat) (s : State) : Host.Outcome State Fault Refusal :=
  let g := (s.core core).engine k
  .next (match g.entry with
    | none => s
    | some e =>
      let b := s.recordBytes e
      let acc := ((s.core core).acs[tkAcc b]?).getD {}
      let rows := (List.range 64).flatMap fun i =>
        bytesOfNat 4 (acc.m[i]?.getD 0).toNat ++ bytesOfNat 4 (acc.l[i]?.getD 0).toNat
      let bytes := rows ++ bytesOfNat 2 (wrap acc.e 16) ++ List.replicate 14 0
      if g.stage ≠ 4 then s else (s.slotStore core (16384 * tkOslot b) bytes).endRecord core k e)

/-! ### BTSET, BTEN, RBSET, MZERO (R235, R236) -/

/-- Some tile-task record of the crew has not started (R235). -/
def State.tilesUnstarted (s : State) : Bool :=
  [0, 1].any fun ch => (s.myCore.chain (s.ownerOf s.cur) ch).entries.any fun e =>
    e.stage == 0 && enKind (s.myCore.entryBytes e) == 1

/-- Tile State where the strand has no crew (R235, R400). -/
def tileTrap (s : State) : Option Nat := if s.isHasp || s.isSup then some causeTileState else none

/-- The course of the three table instructions (R235). -/
def tableForm (srcs dsts : List Opnd) (check : State → Option Nat) (act : State → State → State) (s : State) : State :=
  if s.isSup then s.trap causeTileState 0
  else s.issue 0 srcs dsts (fun s => (tileTrap s).orElse fun _ => check s) fun o s =>
    if o.tilesUnstarted then o.lend .poll else (act o s).retire 1

/-- BTSET a (R235). -/
def execBtset (f : RF) (s : State) : Host.Outcome State Fault Refusal :=
  .next (tableForm [.v f.a f.ta] [] noTrap (fun o s =>
    let t := (piecesOf 2 64 ((o.vbytes f.a).take 128)).map fun p => BitVec.ofNat 16 (natOfBytes p)
    s.modMyCrew fun w => { w with beam := w.beam.mapFinIdx fun i _ _ => t.getD i 0 }) s)

/-- BTEN d, a (R235). -/
def execBten (f : RF) (s : State) : Host.Outcome State Fault Refusal :=
  .next (tableForm [.s f.a f.ta] [.s f.d false] noTrap (fun o s =>
    (s.modMyCrew fun w => { w with beamOn := (o.sval f.a).getLsbD 0 }).putS f.d (boolWord o.myCrew.beamOn)) s)

/-- RBSET a (R235). -/
def execRbset (f : RF) (s : State) : Host.Outcome State Fault Refusal :=
  .next (s.gated 2 fun s => tableForm [.v f.a f.ta] []
    (fun s => if ((s.vbytes f.a).take 64).any (fun x => 8 < x.toNat) then some causeTileState else none)
    (fun o s =>
      let t := (o.vbytes f.a).take 64
      s.modMyCrew fun w => { w with budget := w.budget.mapFinIdx fun i _ _ => (t.getD i 0).toNat }) s)

/-- MZERO a (R236). -/
def execMzero (f : RF) (s : State) : Host.Outcome State Fault Refusal :=
  .next (if s.isSup then s.trap causeTileState 0
    else s.issue 0 [.s f.a f.ta] []
      (fun s => if s.isHasp || (relMask (s.sval f.a).toNat) &&& ~~~s.myCrew.acMask ≠ 0 then some causeTileState else none)
      fun o s =>
        let m := relMask (o.sval f.a).toNat
        if o.myCore.tileNames (o.ownerOf o.cur) m then o.lend .poll else (s.modMyCore fun c => c.zeroSlots m).retire 1)

/-! ### MSAVE and MLOAD (R237, R238) -/

/-- The 8 bytes of an element (R74). -/
def AccElem.bytes (x : AccElem) : List Byte := bytesOfNat 8 (wrap x.m 48 + x.cls * 2 ^ 48)

/-- The image of an accumulator slot (R238). -/
def AccSlot.image (a : AccSlot) : List Byte :=
  (List.range 64).flatMap (fun i => (a.row i).flatMap AccElem.bytes) ++
    (List.range 64).flatMap (fun i => bytesOfNat 4 (a.m[i]?.getD 0).toNat ++ bytesOfNat 4 (a.l[i]?.getD 0).toNat) ++
    bytesOfNat 2 (wrap a.e 16) ++ List.replicate 510 0

/-- The slot that an image describes, none where it is malformed (R237). -/
def AccSlot.ofImage (bs : List Byte) : Option AccSlot :=
  let dws := (piecesOf 8 8192 (bs.take 65536)).map natOfBytes
  let els := dws.mapIdx fun i d => (i, AccElem.mk (field d 48 2) (sext d 48), d)
  let side := bs.drop 65536
  let e := sext (natOfBytes ((side.drop 512).take 2)) 16
  let bad := els.any (fun (_, x, d) => field d 50 14 != 0 || (x.cls != clsFinite && x.m != 0)) || e < -200 || 1023 < e ||
    (side.drop 514).any (· != 0)
  if bad then none
  else
    some { els := els.filterMap fun (i, x, _) => if x.isZero then none else some (i, x)
           e := e
           m := (Vector.range 64).map fun i => BitVec.ofNat 32 (natOfBytes ((side.drop (8 * i)).take 4))
           l := (Vector.range 64).map fun i => BitVec.ofNat 32 (natOfBytes ((side.drop (8 * i + 4)).take 4)) }

/-- Address check of MSAVE and MLOAD (R237). -/
def imageTrap (f : RF) (s : State) : Option Nat :=
  let a := (s.sval f.b).toNat
  if s.isSup || a % 1024 ≠ 0 || memSize < a + 66560 then some causeTileState else none

/-- A started record of any crew names a slot (R237). -/
def Core.slotInUse (c : Core) (slot : Nat) : Bool :=
  c.crews.any fun w => [0, 1].any fun ch => (c.chain (.crew w.task) ch).entries.any fun e =>
    e.stage == 1 && tkNames (c.entryBytes e) slot

/-- No earlier acquire of the running strand is outstanding, and no access of it that touches, or may yet be translated to, some bytes of
device memory (R296, R302). -/
def State.clearOf (s : State) (a n : Nat) : Bool :=
  !s.holdsLater s.cur && s.reqs.all fun r => !r.ofStrand s.cur || 2 ≤ r.space || r.elems.all fun e =>
    e.phase == .done || ((e.phase == .home || e.phase == .parked) && (e.host || !meets a n e.pa e.size))

/-- MSAVE a, b (R237). -/
def execMsave (f : RF) (s : State) : Host.Outcome State Fault Refusal :=
  guardPhysical (s.privileged fun s => s.issue 0 [.s f.a f.ta, .s f.b f.tb] [] (imageTrap f) fun o s =>
    let n := field (o.sval f.a).toNat 0 3
    if o.myCore.slotInUse n || !o.clearOf (o.sval f.b).toNat 66560 then o.lend .poll
    else ((s.physWrite (o.sval f.b).toNat ((s.myCore.acs[n]?).getD {}).image).wrote 0 (o.sval f.b).toNat 66560).retire 1)

/-- MLOAD d, a, b (R237): the status lands later; a malformed image leaves the slot as MZERO leaves it. -/
def execMload (f : RF) (s : State) : Host.Outcome State Fault Refusal :=
  guardPhysical (s.privileged fun s => s.issue 0 [.s f.a f.ta, .s f.b f.tb] [.s f.d false] (imageTrap f) fun o s =>
    let n := field (o.sval f.a).toNat 0 3
    if o.myCore.slotInUse n || !o.clearOf (o.sval f.b).toNat 66560 then o.lend .poll
    else
      let (bs, s) := s.physRead (o.sval f.b).toNat 66560
      let (slot, status) := match AccSlot.ofImage bs with
        | some a => (a, 0)
        | none => (({} : AccSlot), 1)
      let (lat, s) := (s.modMyCore fun c => { c with acs := c.acs.setIfInBounds n slot }).fresh
      (s.laterS (lat % 4096) f.d status).retire 1)

end Sys2Proof.Machine
end

