-- ==== Sys2Proof/Machine/Context.lean ====
section
/-! DEFINITION. Leaving a core and coming back: the context image, pre-emption, kills and losses (spec 21 R357, R364-R372;
06 R130; 14 R285). -/

namespace Sys2Proof.Machine

/-! ### The image of a strand (R370) -/

/-- The bytes of dwords. -/
def bytesOfDwords (ws : List Word) : List Byte := ws.flatMap fun w => bytesOfNat 8 w.toNat

/-- The dwords of bytes; `n` bounds their number. -/
def dwordsOf (n : Nat) (bs : List Byte) : List Word := (piecesOf 8 n bs).map fun b => BitVec.ofNat 64 (natOfBytes b)

/-- The outer and the inner active loop: count, start and end, 0 where not active (R114). -/
def loopDwords (loops : List Loop) : List Word :=
  let l := loops.reverse
  [0, 1].flatMap fun i => match l[i]? with
    | some x => [x.count, x.start, x.stop]
    | none => [0, 0, 0]

/-- The loops of a depth, innermost first. -/
def loopsOf (depth : Nat) (ws : List Word) : List Loop :=
  ((List.range (min depth 2)).map fun i => (⟨ws.getD (3 * i) 0, ws.getD (3 * i + 1) 0, ws.getD (3 * i + 2) 0⟩ : Loop)).reverse

/-- A stream generator's 96 bytes. -/
def Stream.dwords (g : Stream) : List Word :=
  BitVec.ofNat 64 (g.handle + g.reg.toNat * 2 ^ 16 + g.cls * 2 ^ 24 + g.type * 2 ^ 26) ::
    ((padCoords g.rd ++ padCoords g.wr).map (BitVec.ofNat 64) ++ [0, 0, 0])

/-- A fibre generator's 16 bytes. -/
def Fibre.dwords (g : Fibre) : List Word :=
  [BitVec.ofNat 64 (g.handle + boolNat g.isOpen * 2 ^ 16), BitVec.ofNat 64 (g.p + g.e * 2 ^ 32)]

/-- A place of the top-k buffer without a candidate: what VTOPK.drain writes there (R260; log 14). -/
def noCandidate : W32 × W32 := (0x7FC00000#32, 0xFFFFFFFF#32)

/-- The top-k buffer: K, then 64 candidates. -/
def TopK.dwords (t : TopK) : List Word :=
  BitVec.ofNat 64 t.k :: (List.range 64).map fun i =>
    let (v, x) := (t.cands[i]?).getD noCandidate
    BitVec.ofNat 64 (v.toNat + x.toNat * 2 ^ 32)

/-- A strand's 2 KiB of state (R370). -/
def Strand.image (st : Strand) : List Byte :=
  bytesOfDwords (
    (List.range 32).map (fun n => st.get (BitVec.ofNat 5 n)) ++
    [st.full.setWidth 64, st.pc,
      BitVec.ofNat 64 (boolNat st.priv + st.annul % 4 * 2 + boolNat st.halted * 8 + boolNat st.yielding * 16 +
        st.loops.length % 4 * 32), st.spinPc, st.spinFp] ++
    loopDwords st.loops ++
    ([st.vView, st.aView, st.tView].flatMap fun v => [BitVec.ofNat 64 v.base, BitVec.ofNat 64 v.stride]) ++
    ((List.range 7).flatMap fun i => let m := st.mask (i + 1); [m.setWidth 64, (m >>> 64).setWidth 64]) ++
    [st.retryLimit.setWidth 64, st.gatherDrops.setWidth 64, st.issued, st.lent, st.trapPc, st.trapCause, st.trapInfo] ++
    st.hscratch.toList ++ st.stage.toList ++ st.streams.toList.flatMap Stream.dwords ++ st.fibres.toList.flatMap Fibre.dwords ++
    st.topk.dwords ++ [BitVec.ofNat 64 st.replays.length, 0, 0, 0, 0])

/-- The stream generator that 96 bytes describe, its vector found through the V view of the image; its record is read again, and so are its
elements (R138; log 9). -/
def Stream.ofDwords (v : ViewReg) (recordOf : Nat → Nat) (ws : List Word) : Stream :=
  let d := (ws.getD 0 0).toNat
  let rd := (List.range 4).map fun i => (ws.getD (1 + i) 0).toNat
  let cls := field d 24 2
  { cls := cls, handle := field d 0 16, reg := BitVec.ofNat 5 (field d 16 8), type := field d 26 4
    base := if cls = 2 then v.base + field d 16 8 * v.stride else 0
    record := if cls = 0 then 0 else recordOf (field d 0 16)
    rd := rd, wr := (List.range 4).map (fun i => (ws.getD (5 + i) 0).toNat), fetchAt := rd }

/-- The fibre generator that 16 bytes describe. -/
def Fibre.ofDwords (recordOf : Nat → Nat) (ws : List Word) : Fibre :=
  let d := (ws.getD 0 0).toNat
  let p := (ws.getD 1 0).toNat
  { isOpen := bit d 16, handle := field d 0 16, record := if bit d 16 then recordOf (field d 0 16) else 0
    p := field p 0 32, e := field p 32 32 }

/-- The top-k buffer that 65 dwords describe. -/
def TopK.ofDwords (ws : List Word) : TopK :=
  let cands := (ws.drop 1).map fun (w : Word) => ((w.setWidth 32 : W32), ((w >>> 32).setWidth 32 : W32))
  { k := (ws.getD 0 0).toNat, cands := ((cands.reverse).dropWhile fun c => c == noCandidate).reverse }

/-- The strand that a 2 KiB image describes (R370). -/
def Strand.ofImage (recordOf : Nat → Nat) (bs : List Byte) : Strand :=
  let ws := dwordsOf 256 bs
  let w := fun i => ws.getD i 0
  let nat := fun i => (w i).toNat
  let mode := nat 34
  let view := fun i => (⟨nat (43 + 2 * i), nat (44 + 2 * i)⟩ : ViewReg)
  let mask := fun i => (w (49 + 2 * i)).setWidth 128 ||| ((w (50 + 2 * i)).setWidth 128 <<< 64)
  { s := Vector.ofFn fun i => w i.val
    full := (w 32).setWidth 32
    pc := w 33
    priv := bit mode 0
    annul := field mode 1 2
    halted := bit mode 3
    yielding := bit mode 4
    loops := loopsOf (field mode 5 2) ((ws.drop 37).take 6)
    spinPc := w 35
    spinFp := w 36
    vView := view 0
    aView := view 1
    tView := view 2
    masks := Vector.ofFn fun i => if i.val = 0 then BitVec.allOnes 128 else mask (i.val - 1)
    retryLimit := (w 63).setWidth 16
    gatherDrops := (w 64).setWidth 32
    issued := w 65
    lent := w 66
    trapPc := w 67
    trapCause := w 68
    trapInfo := w 69
    hscratch := Vector.ofFn fun i => w (70 + i.val)
    stage := Vector.ofFn fun i => w (74 + i.val)
    streams := Vector.ofFn fun i => Stream.ofDwords (view 0) recordOf ((ws.drop (82 + 12 * i.val)).take 12)
    fibres := Vector.ofFn fun i => Fibre.ofDwords recordOf ((ws.drop (178 + 2 * i.val)).take 2)
    topk := TopK.ofDwords ((ws.drop 186).take 65) }

/-! ### Replay records and messages (R366, R370) -/

/-- A replay record; `v` is the number of its vector image. -/
def Replay.image (r : Replay) (v : Nat) : List Byte :=
  let word := fun i => ((r.words[i]?).getD 0).toNat
  bytesOfDwords ([BitVec.ofNat 64 (word 0 + word 1 * 2 ^ 32),
    BitVec.ofNat 64 (word 2 + (if r.vec.isEmpty then 0 else 2 ^ 32 + v % 4 * 2 ^ 33)), 0, r.pc] ++
    (List.range 6).map (fun i => r.vals.getD i 0) ++ List.replicate 6 0)

/-- The replay record that 128 bytes describe. -/
def Replay.ofImage (images : List Byte) (bs : List Byte) (reg : Nat) : Replay :=
  let ws := dwordsOf 16 bs
  let d0 := (ws.getD 0 0).toNat
  let d1 := (ws.getD 1 0).toNat
  { words := [BitVec.ofNat 32 (field d0 0 32), BitVec.ofNat 32 (field d0 32 32), BitVec.ofNat 32 (field d1 0 32)]
    pc := ws.getD 3 0
    vals := (ws.drop 4).take 6
    vec := if bit d1 32 then (images.drop (512 * field d1 33 2)).take 512 else []
    reg := reg }

/-- The destination field of a base word (R33). -/
def destField (w : W32) : Nat := (w.extractLsb' 19 5).toNat

/-- The destinations of a record: VLD, GATHER and ACAS4 have a vector's, ACHASE two scalars, the others a scalar (R182, R185,
R195, R197). -/
def Replay.dests (r : Replay) : List Opnd :=
  let w := (r.words[0]?).getD 0
  let d := w.extractLsb' 19 5
  match (w.extractLsb' 24 6).toNat, (w.extractLsb' 0 5).toNat with
  | 0x25, 2 | 0x26, 0 | 0x27, 8 => [.v d false]
  | 0x27, 10 => [.s d false, .s (((r.words[2]?).getD 0).extractLsb' 0 5) false]
  | _, _ => [.s d false]

/-- A strand's 6 KiB: state, replay records, vector images (R370). -/
def Strand.images (st : Strand) : List Byte :=
  let vecs := st.replays.filter fun r => !r.vec.isEmpty
  let recs := st.replays.flatMap fun r => r.image ((vecs.findIdx? (· == r)).getD 0)
  let imgs := vecs.flatMap (·.vec)
  st.image ++ (recs ++ List.replicate (2048 - recs.length) 0) ++ (imgs ++ List.replicate (2048 - imgs.length) 0)

/-- The strand that its 6 KiB describe. -/
def Strand.ofImages (recordOf : Nat → Nat) (bs : List Byte) : Strand :=
  let st := Strand.ofImage recordOf (bs.take 2048)
  let n := field (dwordOf bs 251) 0 5
  let recs := piecesOf 128 16 ((bs.drop 2048).take (128 * min n 16))
  { st with replays := recs.map fun r => Replay.ofImage (bs.drop 4096) r (destField (BitVec.ofNat 32 (natOfBytes (r.take 4)))) }

/-- A message's header flit (R317). -/
def msgHeader (m : Msg) : List Byte :=
  bytesOfNat 8 (m.dst + m.src * 2 ^ 16 + m.cls * 2 ^ 32 + m.pay.length * 2 ^ 34 + m.op * 2 ^ 38) ++
    bytesOfNat 8 (m.pid + m.pseq * 2 ^ 16) ++ bytesOfNat 8 (m.budget + m.group * 2 ^ 16 + m.gseq * 2 ^ 24) ++
    bytesOfNat 8 m.addr ++ bytesOfNat 8 m.tag ++ bytesOfNat 24 m.opnd

/-- A spilled message of 576 bytes (R318, R370). -/
def msgSpilled (m : Msg) : List Byte :=
  let bs := msgHeader m ++ bytesOfFlits m.pay
  bs ++ List.replicate (576 - bs.length) 0

/-- The message that 576 bytes describe. -/
def msgOfSpilled (bs : List Byte) : Msg :=
  let d := dwordOf bs
  { dst := field (d 0) 0 16, src := field (d 0) 16 16, cls := field (d 0) 32 2, op := field (d 0) 38 6, pid := field (d 1) 0 16
    pseq := field (d 1) 16 32, budget := field (d 2) 0 16, group := field (d 2) 16 8, gseq := field (d 2) 24 32, addr := d 3, tag := d 4
    opnd := natOfBytes ((bs.drop 40).take 24)
    pay := (piecesOf 64 (field (d 0) 34 4) (bs.drop 64)).map fun f => (true, natOfBytes f) }

/-! ### The image of a crew (R370, R371) -/

/-- A dword of a Res: quanta, slots, and a field for the accumulators. -/
def holdDword (r : Res) (ac saved : Nat) : Word := BitVec.ofNat 64 (r.rq + r.sl * 2 ^ 8 + ac * 2 ^ 16 + saved * 2 ^ 24)

/-- What an image's header is made of. -/
structure Header where
  pid : Nat
  task : Nat
  kind : Nat
  nsm1 : Nat
  settled : Bool
  held : Bool
  epoch : Word
  home : Nat
  saved : BitVec 8
  spilled : Nat
deriving DecidableEq, Repr

/-- BLOCKS as a number: the blocks of 4 KiB that some written run touches (R370). -/
def blocksOf (runs : List (Nat × List Byte)) : Nat :=
  (List.range 224).foldl (fun m i =>
    if runs.any fun r => r.1 / 4096 ≤ i && i * 4096 < r.1 + r.2.length then m + 2 ^ i else m) 1

/-- Bytes up to a multiple of the 4 KiB block: fields not listed are 0 (R370). -/
def padBlock (bs : List Byte) : List Byte := bs ++ List.replicate ((4096 - bs.length % 4096) % 4096) 0

/-- The header block (R370): each count of the chains is A in [31:0] and S in [63:32]. -/
def headerBytes (h : Header) (w : Crew) (blocks : Nat) : List Byte :=
  padBlock <| bytesOfDwords (
    [BitVec.ofNat 64 (h.pid + h.task * 2 ^ 16 + h.kind * 2 ^ 30 + h.nsm1 * 2 ^ 32 + boolNat h.settled * 2 ^ 36 + boolNat h.held * 2 ^ 37),
      h.epoch, holdDword w.hold w.acMask.toNat h.saved.toNat, holdDword ⟨w.claim.rq, w.claim.sl, 0⟩ w.claim.ac 0,
      BitVec.ofNat 64 h.home] ++
    (w.lastPhase.toList.map fun p => match p with
      | some n => BitVec.ofNat 64 (n + 2 ^ 32)
      | none => 0) ++
    (w.chains.toList.map fun c => BitVec.ofNat 64 (c.a.toNat + c.s.toNat * 2 ^ 32)) ++
    dwordsOf 16 (w.beam.toList.flatMap fun b => bytesOfNat 2 b.toNat) ++ [boolWord w.beamOn] ++
    dwordsOf 8 (w.budget.toList.map fun b => BitVec.ofNat 8 b) ++
    dwordsOf 4 (bytesOfNat 32 blocks) ++ [BitVec.ofNat 64 h.spilled])

/-- Window state as eight images of 1,024 bytes (R255). -/
def winBytes (w : Crew) : List Byte :=
  (List.range 1024).flatMap fun i =>
    let x := lookupD w.win i noFlags
    bytesOfNat 8 (x.count + boolNat x.nan * 2 ^ 32 + boolNat x.pinf * 2 ^ 33 + boolNat x.ninf * 2 ^ 34 + boolNat x.ovf * 2 ^ 35)

/-- Bit i of the result is set where line i of the window is full. -/
def fullBits (w : Crew) : List Byte :=
  let lines := w.windowSize / 64
  (List.range 512).map fun b => BitVec.ofNat 8 ((List.range 8).foldl (fun m i =>
    if 8 * b + i < lines && !w.empty.contains (8 * b + i) then m + 2 ^ i else m) 0)

/-- The runs of an image behind its header: window state, strands, spilled messages, full bits, register space, saved
accumulator slots (R370). -/
def imageRuns (c : Core) (w : Crew) (strands : List Strand) (msgs : List Msg) (saved : BitVec 8) : List (Nat × List Byte) :=
  [(4096, winBytes w)] ++ (strands.mapIdx fun r st => (12288 + 6144 * r, st.images)) ++
    [(12288 + 6144 * strands.length, List.replicate (2048 * (strands.length % 2)) 0)] ++
    (if msgs.isEmpty then [] else [(110592, padBlock (msgs.flatMap msgSpilled))]) ++
    [(122880, padBlock (fullBits w)), (126976, padBlock (w.window.readBytes 0 w.windowSize))] ++
    (((List.range 8).filter saved.getLsbD).map fun n => (385024 + 66560 * n, ((c.acs[n]?).getD {}).image))

/-- The bytes of an image (R370). -/
def imageSize : Nat := 921600

/-- The input of a block's tag (R371). -/
def tagInput (img i pid task : Nat) (epoch : Word) (block : List Byte) : List Byte :=
  bytesOfNat 8 img ++ bytesOfNat 8 i ++ bytesOfNat 8 pid ++ bytesOfNat 8 task ++ bytesOfNat 8 epoch.toNat ++ block

/-- The tag of a block under the device's context key (R371). -/
def State.tagOf (s : State) (img i pid task : Nat) (epoch : Word) (block : List Byte) : List Byte :=
  bytesOfNat 16 (Config.kmac (Config.contextKey s.trust.keyNo) (tagInput img i pid task epoch block)).toNat

/-- Writes an image: runs, header, then the tags of the marked blocks (R370, R371); blocks written whole have no error any more. -/
def State.writeImage (s : State) (ctx img : Nat) (h : Header) (w : Crew) (runs : List (Nat × List Byte)) : State :=
  let base := ctx + img * imageSize
  let blocks := blocksOf runs
  let fresh (u : Nat) : Bool := (List.range 225).any fun i => (i = 224 || bit blocks i) && meets (base + 4096 * i) 4096 (64 * u) 64
  let s : State := { s with memErrors := s.memErrors.filter fun u => !fresh u }
  let s := runs.foldl (fun (s : State) r => s.physStore (base + r.1) r.2) s
  let s := s.physStore base (headerBytes h w blocks)
  ((List.range 224).filter fun i => bit blocks i).foldl (fun (s : State) i =>
    let (block, s) := s.physRead (base + 4096 * i) 4096
    s.physStore (base + 917504 + 16 * i) (s.tagOf img i h.pid h.task h.epoch block)) s

/-! ### Leaving a core (R86, R130, R218) -/

/-- The positions of a crew's strands, by rank. -/
def strandsOf (core : Nat) (w : Crew) : List SId := w.pos.map fun p => ⟨core, p⟩

/-- Bindings with pin count 0 are unbound, the others orphaned (R130). -/
def Core.dropBindings (c : Core) (task : Nat) : Core :=
  { c with keys := (c.keys.filter fun k => !(k.binder == some task && k.pin == 0)).map fun k =>
      if k.binder == some task then { k with binder := none } else k }

/-- A strand that has left: its registers stand as it left them until the position is owned again (R295, R348; log 7). -/
def Strand.left (st : Strand) : Strand :=
  { st with wait := none, spin := none, yielding := false, halted := false, late := [], replays := [], streams := Vector.replicate 8 {} }

/-- The strands of free positions are left alone; what waited for them on the core is gone. -/
def Core.clearPositions (c : Core) (ps : List Nat) : Core :=
  { c with
    strands := c.strands.mapFinIdx fun i st _ => if ps.contains i then st.left else st
    acqs := c.acqs.filter fun a => !ps.contains a.sid.pos }

/-- A crew leaves for good, at a final park, a kill or a loss: unstarted entries are discarded, started ones run to completion
and hold what they need until then, tile records that a pre-emption has suspended too while the crew still holds its accumulators. Those of a
crew that has given its accumulators up count as complete: the spec does not say what becomes of them (R130, R218, R240; DESIGN CHOICE, log 15).
LAST of its memberships is kept with the task (R288). -/
def State.removeCrew (s : State) (core task : Nat) : State :=
  let crew := s.owned core (.crew task)
  let s := s.modJob crew.pid fun j => j.modTask task fun t => { t with last := crew.lastPhase }
  let s := s.modCore core fun c =>
    let w := c.owned (.crew task)
    let rest := if w.pos.isEmpty || w.instances then [] else w.suspended
    let chains := w.chains.mapFinIdx fun n ch _ =>
      let runs (e : Entry) : Bool :=
        e.stage == 1 && ((!w.suspended.any fun x => x.chain == n && x.ticket == e.ticket) || rest.any fun x => x.chain == n && x.ticket == e.ticket)
      let ch := { ch with halt := false, entries := ch.entries.map fun e => if runs e then e else { e with stage := 2 } }
      (ch.advance ch.entries.length).trim
    let busy := chains.toList.any fun ch => !ch.entries.isEmpty
    let storage := (chains.toList.map fun ch => if ch.entries.isEmpty then 0 else ch.storage.length).sum
    let tile := [0, 1].any fun n => ((chains[n]?).map fun ch => !ch.entries.isEmpty).getD false
    let left := { w with
      pos := [], chains := chains, gone := true, suspended := rest, preempt := none, acMask := if tile then w.acMask else 0
      hold := ⟨0, storage, if tile then w.hold.ac else 0⟩, floor := {}, claim := {} }
    let c := (c.dropBindings task).clearPositions w.pos
    let c := { c with parks := c.parks.filter fun p => p.task != task, ended := c.ended ++ [w] }
    if busy then c.setOwned (.crew task) left else { c with crews := c.crews.filter fun v => v.task != task }
  (s.tumble core).kickEngines core

/-! ### Settled, killed and lost tasks (R285) -/

/-- Untranslated elements are discarded; a request that has been translated completes and its result is discarded (R357). -/
def State.killRequests (s : State) (mine : Req → Bool) : State :=
  let cut (r : Req) : Req :=
    if mine r then { r with dead := true, elems := r.elems.map fun e => if e.phase == .walk || e.phase == .held then { e with phase := .done } else e }
    else r
  let reqs := s.reqs.map cut
  { s with reqs := reqs.filter fun r => !(mine r && r.elems.all fun e => e.phase == .done || e.phase == .parked) }

/-- The oldest wakes of the overflow list take the free entries of a pool (R272). -/
def State.poolFill (d : Nat) : Nat → State → State
  | 0, s => s
  | fuel + 1, s =>
    match (s.die d).overflow with
    | o :: rest =>
      if 1024 ≤ (s.die d).pool.length then s
      else State.poolFill d fuel ((s.modDie d fun x => { x with overflow := rest }).poolAdd d { o with since := s.cycle })
    | [] => s

/-- Entries leave the pools and overflow lists; the oldest wakes of these take their place (R272). -/
def State.poolDrop (s : State) (mine : PoolEntry → Bool) : State :=
  let cut (x : Die) : Die := { x with pool := x.pool.filter (fun e => !mine e), overflow := x.overflow.filter fun e => !mine e }
  let s : State := { s with dies := s.dies.map cut }
  [0, 1, 2, 3].foldl (fun (s : State) d => State.poolFill d 1024 s) s

/-- Every membership that the task has not dropped is dropped at its home (R285). -/
def State.dropMemberships (s : State) (pid task : Nat) : State :=
  [0, 1, 2, 3].foldl (fun (s : State) m => s.post 0 (.implicitDrop pid task m)) s

/-- The channels of a task that was killed or lost (R285): its outputs end, its inputs swallow. -/
def State.abandonChannels (s : State) (pid : Nat) (t : Task) : State :=
  (t.chans.filterMap id).foldl (fun (s : State) (p : Bool × Nat) =>
    match s.chan? pid p.2 with
    | none => s
    | some ch =>
      if p.1 then
        let s := s.modChan pid p.2 fun c => { c with sink := true, closedC := true, count := 0, head := c.tail, marker := none, moved := s.cycle - 1 }
        s.serve pid p.2
      else if ch.closedP then s
      else if ch.cdev = s.device then s.post 0 (.lostEosEnqueue pid p.2)
      else s.hubSend { s.blankMsg ch.cdev opChannel pid with addr := p.2, opnd := (2 ^ 63 + 1) + 4 * 2 ^ 128 }) s

/-- A task ends: settled, killed or lost. It is ready no more, and the requests that a killed or lost one left behind as it left its core are
discarded (R267, R357). -/
def State.endTask (s : State) (pid task : Nat) (phase : TaskPhase) : State :=
  match (s.job? pid).bind fun j => j.task? task with
  | none => s
  | some t =>
    if t.finished then s
    else
      let s := s.modJob pid fun j => j.modTask task fun t => { t with phase := phase, bound := false, kept := [] }
      let s := (s.dropMemberships pid task).poolDrop fun e => e.pid == pid && e.task == task
      let s := if phase = .settled then s
        else (s.killRequests fun r => isAway r.sid.pos && r.pid == pid && r.task == task).abandonChannels pid t
      s.checkJob pid

/-! ### Stopping a crew (R364, R366) -/

/-- The rounds and multicast stores of a strand deliver nothing to it any more. -/
def State.forgetRounds (s : State) (sid : SId) : State :=
  let calm (j : Job) : Job := { j with waits := j.waits.filter fun x => x.sid != some sid }
  { s with unapplied := s.unapplied.filter fun u => u.sid != sid, jobs := s.jobs.map calm }

/-- The events that would still reach a strand are withdrawn. -/
def State.withdrawFor (s : State) (sid : SId) : State :=
  (s.forgetRounds sid).withdraw fun e => match e with
    | .deliver p => p.sid == sid
    | .sharedMapHomeAction op => op.sid == sid
    | .sendAtHome op | .eosAtHome op | .recvAtHome op | .recvnbAtHome op => op.sid == sid
    | .channelReply r => r.sid == sid
    | .barrierArriveAtHome op => op.sid == sid
    | .barrierReply r => r.sid == sid
    | .yieldEnd x | .spinWake x | .handlerEntry x | .crTargetWrite x _ => x == sid
    | .spinTimeout x _ => x == sid
    | .streamElementLand x _ => x == sid
    | _ => false

/-- The core without the messages of some positions that it has not injected; what they take back at homes stays to be taken back. -/
def Core.unspool (c : Core) (ps : List Nat) : Core :=
  let other (m : Msg) : Bool := m.op == opReply || takesBack m || !ps.contains (field m.tag 16 8)
  { c with inject := c.inject.filter other, spilled := c.spilled.filter other }

/-- Every wait of a strand ends; what it left at homes is taken away (R357). -/
def State.endWaits (s : State) (sid : SId) : State :=
  (((s.abandon sid).2.forceCancel sid).modStrand sid fun st => { st with wait := none, spin := none }).withdrawFor sid

/-- KILL of a crew (R357): its strands stop, its requests and messages go, and it leaves for good. -/
def State.killCrew (s : State) (core : Nat) (w : Crew) (phase : TaskPhase) : State :=
  let sids := strandsOf core w
  let s := sids.foldl State.endWaits s
  let s := s.killRequests fun r => sids.contains r.sid && r.pid == w.pid
  let s := s.modCore core fun c => c.unspool w.pos
  (s.removeCrew core w.task).endTask w.pid w.task phase

/-- The instruction of a load, gather, atomic, lock or sync form can be issued again (R366). -/
def Req.replayable (r : Req) : Bool :=
  r.words.length ≥ 3 && match r.kind with
    | .load | .chase | .atomic _ => true
    | _ => false

/-- The request has not yet left for another device. -/
def State.uninjected (s : State) (r : Req) : Bool :=
  (s.core r.sid.core).inject.any fun m => m.op != opReply && tagReq m.tag == r.id

/-- Something that a pre-emption waits for, so that its result lands in the saved registers (R364): a translated atomic. -/
def State.mustFinish (s : State) (r : Req) : Bool :=
  match r.kind with
  | .atomic _ | .chase => r.elems.any fun e => e.phase == .home && !(2 ≤ r.space && s.uninjected r)
  | .lock _ _ | .ldsync | .stsync | .waitne => true
  | _ => false

/-- The strands of a stopping crew have nothing left that the save waits for. -/
def State.saveReady (s : State) (core : Nat) (w : Crew) : Bool :=
  let sids := strandsOf core w
  let busy := s.pending.any fun e => match e.ev with
    | .deliver p => sids.contains p.sid
    | .sharedMapHomeAction op => sids.contains op.sid
    | _ => false
  let waits := sids.any fun sid => (s.grantedAcq sid).isSome || match (s.strand sid).wait with
    | some (.reply _) | some (.cancel _) => true
    | _ => false
  let rounds := (s.jobs.any fun j => j.waits.any fun x => x.sid.any sids.contains) ||
    s.unapplied.any fun u => sids.contains u.sid && !((s.core core).inject ++ (s.core core).spilled).any fun m => m.cls == 3 && m.pseq == u.serial
  let tiles := (s.core core).engines.toList.any fun g => g.entry.any fun e => e.owner == .crew w.task
  !busy && !waits && !rounds && !tiles && !s.reqs.any (fun r => sids.contains r.sid && s.mustFinish r)

/-- Results and requests of the crew's strands that are still on their way (R170, R295). -/
def State.owes (s : State) (core : Nat) (w : Crew) : Bool :=
  let sids := strandsOf core w
  s.reqs.any (fun r => sids.contains r.sid) || s.unapplied.any (fun u => sids.contains u.sid) ||
    s.jobs.any (fun j => j.waits.any fun x => x.sid.any sids.contains) ||
    s.awaits fun e => match e with
      | .deliver p => sids.contains p.sid
      | .sharedMapHomeAction op => sids.contains op.sid
      | _ => false

/-- The replay record of a request (R366). -/
def Req.record (s : State) (r : Req) : Replay :=
  { words := r.words, pc := r.pc, vals := r.vals, vec := r.vec, reg := r.emptyReg s, redo := some ⟨r.rank, r.dst, r.app, r.app2⟩ }

/-- What stands for a replay record among the requests: it does nothing, and keeps later accesses in their order, as an acquire all of them
(R296, R305, R366; log 21). -/
def Req.stand (r : Req) (id : Nat) : Req :=
  let fresh (e : Elem) : Elem := { e with phase := .walk, stamp := 0, data := [] }
  { r with
    id := id, prog := some r.rank, aside := true, elems := if r.kind == .chase then [] else r.elems.map fresh
    x := if r.kind == .chase then r.vals.headD 0 else r.x, attempts := if r.kind == .chase then 0 else r.attempts }

/-- A request leaves the strand that stops: stores stay, under its rank, and so does what stands for a replay record; one that can be issued
again is replaced by what stands for its record; the others are dropped (R364, R366). -/
def Req.putAside (r : Req) (away : SId) (id : Nat) : Option Req :=
  match r.kind with
  | .store | .append _ | .link _ => some { r with sid := away }
  | _ => if r.aside then some { r with sid := away } else if r.replayable then some { r.stand id with sid := away } else none

/-- The requests of a strand become replay records, in the order of their issue, before those that are still to be issued again (R138, R364,
R366). -/
def State.setAside (s : State) (sid : SId) (rank : Nat) : State :=
  let mine := s.reqs.filter fun r => r.sid == sid
  let recs := (mine.filter fun r => r.replayable && !r.aside).map (Req.record s)
  let (id, s) := s.nextSerial
  let s := mine.foldl (fun (s : State) _ => s.nextSerial.2) s
  let reqs := s.reqs.mapIdx fun i r => if r.sid == sid then r.putAside ⟨sid.core, awayPos rank⟩ (id + ((s.reqs.take i).filter (·.sid == sid)).length) else some r
  let kept := reqs.filterMap fun r => r
  let gone := mine.filter fun r => !kept.any fun x => x.id == r.id
  let s := s.modCore sid.core fun c =>
    { c with inject := c.inject.filter fun m => !(m.op != opReply && gone.any fun (r : Req) => r.id == tagReq m.tag) }
  ({ s with reqs := kept }.forgetRounds sid).modStrand sid fun st =>
    { st with
      replays := recs ++ st.replays
      wait := none
      spin := none
      streams := st.streams.map fun (g : Stream) => { g with fetched := [], busy := false, landed := false, fetchAt := g.rd }
      fibres := st.fibres.map fun (g : Fibre) => { g with got := none, busy := false } }

/-- A strand that stops abandons its wait, as far as that can be decided now; a parked one parks again on resume, and one in a YIELD
issues it again (R364). -/
def State.stopWait (s : State) (sid : SId) : State :=
  let s := if (s.strand sid).yielding then
      (s.withdraw (· == .yieldEnd sid)).modStrand sid fun st => { st with yielding := false }
    else s
  match s.parkOf sid with
  | some _ => (s.leavePark sid).modStrand sid fun st => { st with wait := none }
  | none => (s.abandon sid).2

/-- The crew stops before the next issue of each of its strands (R364). -/
def State.stopCrew (s : State) (core task : Nat) : State :=
  let w := s.owned core (.crew task)
  let s := s.modCrew core task fun w => { w with stopped := true, preempt := none }
  (strandsOf core w).foldl State.stopWait s

/-- Cycles of a save or restore of some blocks at 512 bytes a cycle (R368). -/
def moveCycles (runs : List (Nat × List Byte)) : Nat := (runs.map fun r => (r.2.length + 511) / 512).sum + 8

/-- The accumulator slots that a save writes: those held and named, and those of suspended records (R30, R240). -/
def savedSlots (c : Core) (w : Crew) (live : BitVec 8) : BitVec 8 :=
  let named := w.suspended.foldl (fun m x =>
    match (c.chain (.crew w.task) x.chain).entry x.ticket with
    | some e =>
      let b := c.entryBytes e
      (List.range 8).foldl (fun m i => if tkNames b i then m ||| (1#8 <<< i) else m) m
    | none => m) 0
  w.acMask &&& (live ||| named)

/-- TAG with another core and position. -/
def reTag (tag core pos : Nat) : Nat := putField (putField tag 0 16 core) 16 8 pos

/-- The messages of a crew that its core has not injected, spilled with the rank of their strand in the place of its position
(R318; log 14). -/
def Core.spill (c : Core) (w : Crew) : List Msg :=
  ((c.inject ++ c.spilled).filter fun m => m.op != opReply && !takesBack m && w.pos.contains (field m.tag 16 8)).map fun m =>
    { m with tag := reTag m.tag c.id ((w.pos.findIdx? (· == field m.tag 16 8)).getD 0) }

/-- The spilled messages of an image are injected again, before any new message of the crew; an SLSEND among them is again one that
fences wait for (R318, R324). -/
def State.respool (s : State) (core : Nat) (sids : List SId) (base : Nat) : State :=
  let msgs := (piecesOf 576 16 (s.mem.readBytes (base + 110592) (576 * min 16 (s.mem.readNat (base + 8 * 45) 8)))).map msgOfSpilled
  msgs.foldl (fun (s : State) m =>
    match sids[field m.tag 16 8]? with
    | none => s
    | some sid =>
      let m := { m with tag := reTag m.tag core sid.pos }
      let s : State := if m.op = opSleet then { s with unapplied := s.unapplied ++ [({ sid := sid, serial := m.pseq, group := none } : Unapplied)] } else s
      if (s.core core).cannotSend then s.modCore core fun c => { c with spilled := c.spilled ++ [m] } else s.sendMsg core m) s

/-- The strands of a crew, by rank. -/
def Core.crewStrands (c : Core) (w : Crew) : List Strand := w.pos.map c.strand

/-- Writes a crew's image and says what the dispatcher keeps of its task (R370, R371). -/
def State.saveCrew (s : State) (core img kind : Nat) (w : Crew) (live : BitVec 8) : State :=
  match (s.job? w.pid).bind fun j => j.task? w.task with
  | none => s
  | some t =>
    let c := s.core core
    let epoch := if img = 0 then t.epoch + 1 else t.epoch
    let saved := savedSlots c w live
    let msgs := c.spill w
    let h : Header :=
      { pid := w.pid, task := w.task, kind := kind, nsm1 := t.nsm1, settled := t.phase == .settled, held := w.held,
        epoch := epoch, home := core, saved := saved, spilled := msgs.length }
    let kept := (c.crewStrands w).mapIdx fun r st =>
      ({ rank := r, aside := st.aside, late := st.late, redos := st.replays.map (·.redo), fenced := st.fenced
         heard := s.stillOpen (st.heard ++ c.heard) } : Kept)
    (s.writeImage t.ctx img h w (imageRuns c w (c.crewStrands w) msgs saved)).modJob w.pid fun j => j.modTask w.task fun t =>
      { t with epoch := epoch, ran := true, fromCut := false, saved := some (w.hold, w.acMask), kept := kept, lastCore := some core }

/-- A pre-empted crew leaves: quanta, accumulator slots and positions are released; slots, bindings and chain instances stay
(R367). -/
def State.leavePreempted (s : State) (core : Nat) (w : Crew) : State :=
  let s := s.modCore core fun c =>
    let c := c.unspool w.pos
    (c.setOwned (.crew w.task)
      { w with pos := [], window := [], empty := [], win := [], hold := ⟨0, w.hold.sl, 0⟩, acMask := 0, stopped := true }).clearPositions w.pos
  let s := s.modJob w.pid fun j => j.modTask w.task fun t => { t with bound := true, phase := .idle }
  (s.makeReady w.pid w.task (dieOf core)).tumble core

/-- A crew in a pooled park leaves: it releases everything (R130, R283). -/
def State.leavePooled (s : State) (core : Nat) (w : Crew) : State :=
  let s := s.modCore core fun c =>
    let c := { c.unspool w.pos with
      parks := c.parks.filter fun p => p.task != w.task
      crews := c.crews.filter fun v => v.task != w.task }
    (c.dropBindings w.task).clearPositions w.pos
  (s.tumble core).kickDispatch

/-- PREEMPT_TAKE_EFFECT (R240, R364): the crew stops; the image is written from now on. -/
def execPreemptTakeEffect (core task : Nat) (s : State) : Host.Outcome State Fault Refusal :=
  .next (
    let w := s.owned core (.crew task)
    if w.pos.isEmpty || w.stopped then s
    else
      let live := (w.preempt.bind (·.mask)).getD (BitVec.allOnes 8)
      let s := s.stopCrew core task
      let s := s.modCrew core task fun w => { w with preempt := some ⟨s.cycle, some live⟩ }
      let runs := imageRuns (s.core core) w ((s.core core).crewStrands w) [] (w.acMask &&& live)
      s.post (moveCycles runs) (.contextSaveDone core task))

/-- BOUND of PPOINT_DEFER: values above 125,000 act as 125,000 (R240). -/
def Core.deferBound (c : Core) : Nat := min (field c.ppointDefer.toNat 0 17) 125000

/-- PREEMPT_DEFER_EXPIRE (R240): the bound has passed without a PPOINT; every held slot is saved. -/
def execPreemptDeferExpire (core task : Nat) (s : State) : Host.Outcome State Fault Refusal :=
  .next (
    let w := s.owned core (.crew task)
    match w.preempt with
    | some p =>
      if w.stopped || p.mask.isSome then s
      else if s.cycle < p.since + (s.core core).deferBound then
        s.post (p.since + (s.core core).deferBound - s.cycle) (.preemptDeferExpire core task)
      else (s.modCrew core task fun w => { w with preempt := some { p with mask := some (BitVec.allOnes 8) } }).post 0
        (.preemptTakeEffect core task)
    | none => s)

/-- A pre-emption of a crew is requested: deferred while the crew holds accumulator slots (R240, R364). -/
def State.requestPreempt (s : State) (core : Nat) (w : Crew) : State :=
  if w.pos.isEmpty || w.stopped || w.preempt.isSome then s
  else if w.acMask = 0 then
    (s.modCrew core w.task fun w => { w with preempt := some ⟨s.cycle, some (BitVec.allOnes 8)⟩ }).post 0 (.preemptTakeEffect core w.task)
  else
    (s.modCrew core w.task fun w => { w with preempt := some ⟨s.cycle, none⟩ }).post (s.core core).deferBound
      (.preemptDeferExpire core w.task)

/-- CONTEXT_SAVE_DONE (R86, R364, R367, R368): once everything waited for has landed, the image stands and the crew leaves. -/
def execContextSaveDone (core task : Nat) (s : State) : Host.Outcome State Fault Refusal :=
  guardPhysical (
    let w := s.owned core (.crew task)
    if w.pos.isEmpty || !w.stopped then s
    else if !s.saveReady core w then
      ((strandsOf core w).foldl State.stopWait s).post 0 (.contextSaveDone core task)
    else
      let pooled := ((s.job? w.pid).bind fun j => j.task? task).any fun t => t.phase == .parkedPooled || t.phase == .ready
      let live := (w.preempt.bind (·.mask)).getD (BitVec.allOnes 8)
      let s := w.pos.zipIdx.foldl (fun (s : State) p => s.setAside ⟨core, p.1⟩ p.2) s
      let s := s.saveCrew core 0 1 (s.owned core (.crew task)) live
      let w := s.owned core (.crew task)
      if pooled then s.leavePooled core w else s.leavePreempted core w)

/-! ### Coming back (R366, R370-R372) -/

/-- A read of some bytes of device memory finds an uncorrectable error (R372). -/
def State.memBad (s : State) (a n : Nat) : Bool := s.memErrors.any fun u => meets a n (64 * u) 64

/-- The reason a context image is refused (R359, R372): 1 tag mismatch, 2 uncorrectable error, 3 bad header, 4 stale epoch. Of several the
spec names none; they are looked for in the order of the reads (DESIGN CHOICE, log 21). -/
def State.imageBad (s : State) (t : Task) (pid img : Nat) : Option Nat :=
  let base := t.ctx + img * imageSize
  let d := fun i => s.mem.readNat (base + 8 * i) 8
  let blocks := s.mem.readNat (base + 8 * 41) 32
  let epoch := BitVec.ofNat 64 (d 1)
  if s.memBad base 4096 then some 2
  else if field (d 0) 30 2 = 0 || field (d 0) 0 16 ≠ pid || field (d 0) 16 14 ≠ t.index then some 3
  else if img = 0 && epoch ≠ t.epoch then some 4
  else if s.memBad (base + 917504) 4096 || (List.range 224).any (fun i => bit blocks i && s.memBad (base + 4096 * i) 4096) then some 2
  else if (List.range 224).any (fun i => bit blocks i &&
      s.mem.readBytes (base + 917504 + 16 * i) 16 != s.tagOf img i pid t.index epoch (s.mem.readBytes (base + 4096 * i) 4096)) then some 1
  else none

/-- The record that a generator is bound to when its strand comes back: 0 where it is no longer valid. -/
def State.recordAgain (s : State) (core pid handle : Nat) : Nat :=
  match s.tableRecord core pid handle with
  | .ok r => r
  | _ => 0

/-- The crew that an image describes, on the positions it has been given (R370). -/
def State.loadCrew (s : State) (base : Nat) (w : Crew) : Crew :=
  let d := fun i => s.mem.readNat (base + 8 * i) 8
  let chains := w.chains.mapFinIdx fun n ch _ =>
    if !w.instances then
      { ch with a := BitVec.ofNat 32 (field (d (9 + n)) 0 32), s := BitVec.ofNat 32 (field (d (9 + n)) 32 32) }
    else ch
  { w with
    window := cellsFrom 0 (s.mem.readBytes (base + 126976) w.windowSize)
    empty := (List.range (w.windowSize / 64)).filter fun i => !bit (s.mem.readNat (base + 122880 + i / 8) 1) (i % 8)
    win := (List.range 1024).filterMap fun i =>
      let x := s.mem.readNat (base + 4096 + 8 * i) 8
      let l : WLane := ⟨bit x 32, bit x 33, bit x 34, bit x 35, field x 0 32⟩
      if l = noFlags then none else some (i, l)
    lastPhase := Vector.ofFn fun i => if bit (d (5 + i.val)) 32 then some (field (d (5 + i.val)) 0 32) else none
    chains := chains
    beam := Vector.ofFn fun i => BitVec.ofNat 16 (s.mem.readNat (base + 128 + 2 * i.val) 2)
    beamOn := bit (d 32) 0
    budget := Vector.ofFn fun i => s.mem.readNat (base + 264 + i.val) 1
    held := bit (d 0) 37
    instances := false
    stopped := false
    preempt := none }

/-- A strand comes back from its image, with what was kept beside it. -/
def State.loadStrand (s : State) (core base pid : Nat) (t : Task) (rank : Nat) : Strand :=
  let st := Strand.ofImages (s.recordAgain core pid) (s.mem.readBytes (base + 12288 + 6144 * rank) 6144)
  match t.kept.find? fun k => k.rank == rank with
  | some k =>
    { st with
      aside := k.aside, late := k.late, yielding := false, heard := k.heard, fenced := k.fenced
      replays := st.replays.mapIdx fun i r => { r with redo := (k.redos[i]?).join }
      gatherDrops := BitVec.ofNat 32 (min (st.gatherDrops.toNat + k.drops) 0xFFFFFFFF) }
  | none => { st with yielding := false }

/-- The first line of the vector that a record will fill, through the view of its issue (R123, R366). -/
def Replay.line (st : Strand) (r : Replay) : Option Nat :=
  match r.redo.map (·.dst), r.dests with
  | some (Dst.space b), _ => some (b / 64)
  | none, [.v d _] => some ((st.place (.v d false)).1 / 64)
  | _, _ => none

/-- Empty names that no replay record of the crew will fill have no producer: a late fault left them (R355, R366). -/
def State.markLost (s : State) (core : Nat) (o : Owner) (sids : List SId) : State :=
  let lines := sids.flatMap fun sid => (s.strand sid).replays.filterMap (Replay.line (s.strand sid))
  let lose (st : Strand) : Strand :=
    let keep := (st.replays.flatMap Replay.dests).foldl (fun (m : BitVec 32) d => match d with
      | .s r _ => m ||| (1#32 <<< r.toNat)
      | _ => m) st.full
    { st with lost := ~~~keep }
  let s := sids.foldl (fun (s : State) sid => s.modStrand sid lose) s
  s.modOwned core o fun w => { w with lost := w.empty.filter fun l => !lines.any fun b => b ≤ l && l < b + 8 }

/-- The stores of a strand that were under way while its crew was away belong to it again. -/
def State.reclaim (s : State) (pid task : Nat) (sids : List SId) : State :=
  { s with reqs := s.reqs.map fun r =>
      if isAway r.sid.pos && r.pid == pid && r.task == task then
        match sids[awayRank r.sid.pos]? with
        | some sid => { r with sid := sid }
        | none => r
      else r }

/-- The generators of a strand fetch again (R138). -/
def State.kickGenerators (s : State) (sid : SId) : State :=
  (List.range 8).foldl (fun (s : State) q =>
    let g := (s.strand sid).stream q
    if g.cls = 0 then s
    else
      let base := ((s.strand sid).place (.v g.reg false)).1
      let s := if g.cls = 1 then s.modStrand sid fun st => st.setEmpty g.reg
        else s.modOwned sid.core (s.ownerOf sid) fun w => w.emptyLines (base / 64) 8
      s.kickStream sid q) s

/-- A LOST task (R372): its resources go, its channels and memberships end, and the supervisor is told. -/
def State.loseTask (s : State) (core pid task reason : Nat) : State :=
  let w := s.owned core (.crew task)
  let s := s.mail (dieOf core) ⟨mailWord 3 0 (core % 256) 0 0 pid task, 0, BitVec.ofNat 64 reason, 0⟩
  s.killCrew core w .lost

end Sys2Proof.Machine
end

