-- ==== Sys2Proof/Machine/Dispatcher.lean ====
section
/-! DEFINITION. The dispatchers: placement, job changes, restores, held entries; parks (spec 14 R271-R275, R283-R285; 07 R142;
21 R364, R367, R372). -/

namespace Sys2Proof.Machine

/-! ### Where a task fits (R273) -/

/-- What a placement must grant: the floor, or what the task held when it left its core, of which a pre-empted one has kept
its slots (R120, R367). -/
def Task.toGrant (t : Task) : Res :=
  match t.saved with
  | some (hold, _) => if t.bound then ⟨hold.rq, 0, hold.ac⟩ else hold
  | none => t.floor

/-- The accumulator slots that a placement grants: the lowest free ones of the floor, or the numbers held before (R120). -/
def Core.slotsFor (c : Core) (t : Task) : BitVec 8 :=
  match t.saved with
  | some (_, mask) => mask
  | none => c.acLowest t.floor.ac

/-- The n lowest free positions (R86). -/
def Core.freePositions (c : Core) (n : Nat) : List Nat := ((List.range 16).filter fun p => (c.crewAt p).isNone).take n

/-- The crew of a task as a placement on the core leaves it. -/
def Core.newCrew (c : Core) (pid : Nat) (t : Task) (cycle : Nat) : Crew :=
  let old := c.owned (.crew t.index)
  let hold := match t.saved with
    | some (h, _) => ⟨h.rq, if t.bound then old.hold.sl else h.sl, h.ac⟩
    | none => t.floor
  { (if t.bound then old else {}) with
    task := t.index, pid := pid, pos := c.freePositions (t.nsm1 + 1), placed := cycle, hold := hold, floor := t.floor, claim := t.claim
    acMask := c.slotsFor t, instances := t.bound, stopped := true }

/-- The core with the crew of a task placed on it. -/
def Core.withCrew (c : Core) (w : Crew) : Core :=
  if c.crews.any fun v => v.task == w.task then c.setOwned (.crew w.task) w else { c with crews := c.crews ++ [w] }

/-- The core can take the task (R273). -/
def Core.fits (c : Core) (pid : Nat) (t : Task) : Bool :=
  let w := c.newCrew pid t 0
  let c' := c.withCrew w
  c.id < 256 && c.crews.all (fun v => v.pid == pid && (v.task != t.index || (t.bound && v.pos.isEmpty && !v.gone))) &&
    (!t.bound || t.lastCore == some c.id) && w.pos.length == t.nsm1 + 1 &&
    (t.saved.isNone || (c.slotsFor t &&& c.acHeld) == 0) && t.toGrant.le c.free &&
    safeFrom c'.placedCrews.length c'.free (c'.placedCrews.map c'.need3)

/-- The cores of a die in the order in which a placement considers them (R273). -/
def State.coreOrder (s : State) (d pid : Nat) (t : Task) : List Nat :=
  let ids := List.range' (64 * d) 64
  let lastFirst (l : List Nat) : List Nat := l.filter (fun i => t.lastCore == some i) ++ l.filter fun i => t.lastCore != some i
  lastFirst (ids.filter fun i => (s.core i).crews.any fun w => w.pid == pid) ++ lastFirst (ids.filter fun i => (s.core i).crews.isEmpty)

/-- The first core of a die that takes the task. -/
def State.placeFor (s : State) (d pid : Nat) (t : Task) : Option Nat :=
  if !t.dies.getLsbD d then none else (s.coreOrder d pid t).find? fun i => (s.core i).fits pid t

/-- The task of a pool entry. -/
def State.entryTask (s : State) (e : PoolEntry) : Option Task := (s.job? e.pid).bind fun j => j.task? e.task

/-- The task's crew has not left its core yet: its image is still being written (R283). -/
def State.leaving (s : State) (t : Task) : Bool := t.lastCore.any fun c => !(s.owned c (.crew t.index)).pos.isEmpty

/-- The entries of a pool by class, then age (R273); a task that a cut has recorded is held (R373), and one in a pooled park can be
placed when its crew has left (R283). -/
def State.poolOrder (s : State) (d : Nat) : List (PoolEntry × Task) :=
  let all := ((s.die d).pool.filterMap fun e => (s.entryTask e).map fun t => (e, t)).filter fun p => !p.2.recorded && !s.leaving p.2
  (List.range 4).flatMap fun k => all.filter fun p => p.2.cls == k

/-- A held entry keeps a younger one of the same or a higher class back (R273). -/
def heldBack (all : List (PoolEntry × Task)) (p : PoolEntry × Task) : Bool :=
  all.any fun q => q.1.held && q.2.cls ≤ p.2.cls && q.1.since < p.1.since

/-- The first entry of a die's pool that fits one of its cores. -/
def State.pickOwn (s : State) (d : Nat) : Option (PoolEntry × Nat) :=
  let all := s.poolOrder d
  (all.filter fun p => !heldBack all p).findSome? fun p => (s.placeFor d p.1.pid p.2).map fun c => (p.1, c)

/-- WORK_STEAL (R274): the oldest entry of another die that fits a core of this one; a held entry of either die keeps younger
ones back (R273). -/
def State.steal (s : State) (d : Nat) : Option (Nat × PoolEntry × Nat) :=
  let free (o : Nat) : List (PoolEntry × Task) :=
    (s.poolOrder o).filter fun p => !heldBack (s.poolOrder o) p && !heldBack (s.poolOrder d) p
  let cands := ([0, 1, 2, 3].filter (· != d)).flatMap fun o => (free o).filterMap fun p =>
    (s.placeFor d p.1.pid p.2).map fun c => (o, p.1, c)
  cands.foldl (fun (best : Option (Nat × PoolEntry × Nat)) x => match best with
    | some b => if x.2.1.since < b.2.1.since then some x else some b
    | none => some x) none

/-- An entry leaves a pool; the oldest wake of the overflow list takes its place (R272). -/
def State.poolTake (s : State) (d : Nat) (e : PoolEntry) : State :=
  State.poolFill d 1 (s.modDie d fun x => { x with pool := x.pool.filter fun y => !(y.pid == e.pid && y.task == e.task) })

/-! ### Placing a crew (R86, R97, R271) -/

/-- The registers of a strand at its crew's first placement (R271). -/
def startStrand (t : Task) (rank : Nat) : Strand :=
  let st : Strand := { pc := t.entry }
  ((((st.put 1 t.arg).put 2 (BitVec.ofNat 64 t.index)).put 3 (BitVec.ofNat 64 rank)).put 4 (BitVec.ofNat 64 (t.nsm1 + 1))).put 31
    (BitVec.ofNat 64 (1024 * t.floor.rq))

/-- Cycles of a restore of the image at an address (R368). -/
def State.restoreCycles (s : State) (base : Nat) : Nat :=
  8 * ((List.range 224).filter fun i => bit (s.mem.readNat (base + 8 * 41) 32) i).length

/-- The image a task resumes from: 1 after a relaunch from a cut, otherwise 0 (R271, R375). -/
def Task.image (t : Task) : Nat := boolNat t.fromCut

/-- A placed crew starts, with the turns lent to it from now on, or its image is read first (R114, R271, R372). -/
def State.startCrew (s : State) (core pid : Nat) (t : Task) : State :=
  if t.ran then s.post (s.restoreCycles (t.ctx + t.image * imageSize)) (.contextRestore core pid t.index)
  else
    let s := (strandsOf core (s.owned core (.crew t.index))).foldl (fun (s : State) sid => s.modStrand sid fun st => { st with lent := 0 }) s
    s.modCrew core t.index fun w => { w with stopped := false }

/-- A crew is placed on a core: it owns the lowest free positions and holds its floor; a core of another job is cleared
first (R86, R120, R142, R271). -/
def State.placeCrew (s : State) (core pid : Nat) (t : Task) : State :=
  let c := s.core core
  let w := c.newCrew pid t s.cycle
  let change := c.lastJob.any fun p => p != pid
  let s := s.modCore core fun c =>
    let c := (c.withCrew w).zeroSlots w.acMask
    let st := fun (c : Core) (p : Nat × Nat) => c.setStrand p.1 (startStrand t p.2)
    let c := w.pos.zipIdx.foldl st c
    { c with lastJob := some pid, clearing := c.clearing || change, clearFrom := if change then s.cycle else c.clearFrom
             lcache := if change then [] else c.lcache, ended := [] }
  let s := s.modJob pid fun j => j.modTask t.index fun t => { t with phase := .placed, lastCore := some core, bound := false }
  if change then s.post 0 (.jobChangeClearDone core)
  else if (s.core core).clearing then s
  else s.startCrew core pid t

/-- DISPATCH_PLACE (R273-R275): one crew at most; the Tumbler decides the placement, and one that fails makes it look at
its waiting requests again (R126). -/
def execDispatchPlace (d : Nat) (s : State) : Host.Outcome State Fault Refusal :=
  .next (
    let waiting := [0, 1, 2, 3].any fun i => !(s.die i).pool.isEmpty
    if !waiting then s
    else if s.bar.sec ≠ 1 || s.bar.pwr ≠ 0 then s.post 31 (.dispatchPlace d)
    else
      let place := fun (s : State) (o : Nat) (e : PoolEntry) (core : Nat) =>
        match s.entryTask e with
        | some t => ((s.poolTake o e).placeCrew core e.pid t).modDie d fun x => { x with lastPlace := some s.cycle }
        | none => s.poolTake o e
      let s := match s.pickOwn d with
        | some (e, core) => place s d e core
        | none => match s.steal d with
          | some (o, e, core) => place s o e core
          | none => (List.range' (64 * d) 64).foldl State.tumble s
      if [0, 1, 2, 3].any fun i => !(s.die i).pool.isEmpty then s.post 31 (.dispatchPlace d) else s)

/-- JOB_CHANGE_CLEAR_DONE (R142, R168): chain 7 first drains, then 8,192 cycles pass; slots 0-247 read zero with every granule
full, the local map is empty, the last KVICT result is 247, and the crews of the new job start. -/
def execJobChangeClearDone (core : Nat) (s : State) : Host.Outcome State Fault Refusal :=
  .next (
    let c := s.core core
    if !c.clearing then s
    else if c.chain7.s ≠ c.chain7.a then
      (s.modCore core fun c => { c with clearFrom := s.cycle + 1 }).post 0 (.jobChangeClearDone core)
    else if s.cycle < c.clearFrom + 8192 then s.post (c.clearFrom + 8192 - s.cycle) (.jobChangeClearDone core)
    else
      let s := s.modCore core fun c =>
        { c with
          clearing := false
          slots := c.slots.filter fun x => 248 * 16384 ≤ x.1
          empty := c.empty.filter fun g => 248 * 1024 ≤ g
          slotErrors := c.slotErrors.filter fun e => 248 * 16 ≤ e.row
          keys := []
          lastKvict := 247 }
      (s.core core).crews.foldl (fun (s : State) w =>
        match (s.job? w.pid).bind fun j => j.task? w.task with
        | some t => if w.pos.isEmpty then s else s.startCrew core w.pid t
        | none => s) s)

/-- POOL_ENTRY_HOLD (R273, R364): an entry 2^20 cycles old is held; if it fits no core of the die, crews of greater class are
pre-empted on a core where that lets it fit, the greatest class first, then the most recently placed; while it stays in the
pool the dispatcher looks again. -/
def execPoolEntryHold (d pid task : Nat) (s : State) : Host.Outcome State Fault Refusal :=
  .next (
    match (s.die d).pool.find? fun e => e.pid == pid && e.task == task with
    | none => s
    | some e =>
      if s.cycle < e.since + holdCycles then s
      else
        let s := s.modDie d fun x => { x with pool := x.pool.map fun y => if y == e then { y with held := true } else y }
        match s.entryTask e with
        | none => s
        | some t =>
          let s := s.postFree 4096 (.poolEntryHold d pid task)
          if (s.placeFor d pid t).isSome then s
          else
            let cls (w : Crew) : Nat := ((((s.job? w.pid).bind fun j => j.task? w.task).map (·.cls)).getD 0)
            let victims (c : Core) : List Crew :=
              let ws := sortBy (fun x y => decide (y.placed ≤ x.placed)) (c.crews.filter fun w => !w.pos.isEmpty && t.cls < cls w)
              [3, 2, 1, 0].flatMap fun k => ws.filter fun w => cls w == k
            let without (c : Core) (ws : List Crew) : Core :=
              ws.foldl (fun c w => c.setOwned (.crew w.task) { w with pos := [], hold := ⟨0, w.hold.sl, 0⟩, acMask := 0 }) c
            let enough (c : Core) : Option (List Crew) :=
              let ws := victims c
              ((List.range (ws.length + 1)).find? fun n => (without c (ws.take n)).fits pid t).map fun n => ws.take n
            match (List.range' (64 * d) 64).findSome? fun i => (enough (s.core i)).map fun ws => (i, ws) with
            | some (core, ws) => ws.foldl (fun s w => s.requestPreempt core w) s
            | none => s)

/-! ### Restores (R372) -/

/-- The accumulator slots of a restored crew: the saved ones hold their images, the others read as MZERO leaves them (R30,
R240). -/
def Core.loadSlots (c : Core) (held saved : BitVec 8) (read : Nat → List Byte) : Core :=
  let c := c.zeroSlots held
  ((List.range 8).filter fun n => held.getLsbD n && saved.getLsbD n).foldl (fun (c : Core) n =>
    c.modAcc n fun _ => (AccSlot.ofImage (read n)).getD AccSlot.zero) c

/-- A job ends with a completion for its LAUNCH; what it left in the pools goes, and wakes of other jobs take its place (R267, R272,
R372, R384). A later job of the same PID
is another job for R142, and the cores keep none of its instruction words (log 7). -/
def State.retireJob (s : State) (pid : Nat) : State :=
  let cut (x : Die) : Die :=
    { x with pool := x.pool.filter (fun e => e.pid != pid), overflow := x.overflow.filter fun e => e.pid != pid }
  let over_ (c : Core) : Core :=
    { c with lastJob := if c.lastJob = some pid then some 65536 else c.lastJob, icache := c.icache.filter fun e => e.1 != pid }
  let s : State := { s with jobs := s.jobs.filter (fun j => j.pid != pid), dies := s.dies.map cut, cores := s.cores.map over_ }
  [0, 1, 2, 3].foldl (fun (s : State) d => State.poolFill d 1024 s) s

/-- The completion ring takes an entry when there is room (R384). -/
def State.complete (s : State) (c : Completion) : State :=
  let s := { s with bar := { s.bar with cqWait := s.bar.cqWait ++ [c] } }
  if s.awaits (· == .completionWrite) then s else s.post 0 .completionWrite

/-- Every crew of a job is killed, and the crews that are away go with what they have left behind (R357, R372, R384). -/
def State.killJob (s : State) (pid : Nat) (phase : TaskPhase) : State :=
  let s := s.killRequests fun r => isAway r.sid.pos && r.pid == pid
  s.cores.foldl (fun (s : State) c =>
    (s.core c.id).crews.foldl (fun (s : State) w => if w.pid == pid && !w.gone then s.killCrew c.id w phase else s) s) s

/-- A job ends: its first completion was for the LAUNCH, this is the second (R384); a debug request that waits for the last job's end
is applied (R393). -/
def State.endJob (s : State) (pid status index : Nat) : State :=
  match s.job? pid with
  | none => s
  | some j => (s.retireJob pid).applyDebug.complete ⟨j.tag, status, pid, index⟩

/-- CONTEXT_RESTORE (R285, R366, R368, R372): the image is checked before anything is loaded; a task whose image fails is
LOST, and instead a critical one ends its job. -/
def execContextRestore (core pid task : Nat) (s : State) : Host.Outcome State Fault Refusal :=
  guardPhysical (
    match (s.job? pid).bind fun j => j.task? task with
    | none => s
    | some t =>
      let w := s.owned core (.crew task)
      if w.pos.isEmpty || !w.stopped then s
      else
        let img := t.image
        let base := t.ctx + img * imageSize
        match s.imageBad t pid img with
        | some reason =>
          if !t.crit then s.loseTask core pid task reason
          else
            let s := (s.killJob pid .killed).mail 0 ⟨mailWord 7 0 0 0 2 pid task, 0, 0, 0⟩
            s.endJob pid 8 task
        | none =>
          let header := fun i => s.mem.readNat (base + 8 * i) 8
          let sids := strandsOf core w
          let loaded := s.loadCrew base w
          let read := fun n => s.mem.readBytes (base + 385024 + 66560 * n) 66560
          let s := s.modCore core fun c => (c.setOwned (.crew task) loaded).loadSlots w.acMask (BitVec.ofNat 8 (field (header 2) 24 8)) read
          let s := sids.zipIdx.foldl (fun (s : State) p => s.setStrand p.1 (s.loadStrand core base pid t p.2)) s
          let s := s.reclaim pid task sids
          let s := s.modJob pid fun j => j.modTask task fun t => { t with kept := [] }
          let s := s.respool core sids base
          let s := sids.foldl State.kickGenerators (s.markLost core (.crew task) sids)
          let s := (List.range 7).foldl (fun (s : State) ch => s.tellFault core (.crew task) ch) s
          s.kickEngines core)

/-! ### Parks (R27, R28, R283) -/

/-- The input channels of a task, by number. -/
def Task.inputs (t : Task) : List Nat := t.chans.filterMap fun c => c.bind fun p => if p.1 then some p.2 else none
/-- The output channels of a task, by number. -/
def Task.outputs (t : Task) : List Nat := t.chans.filterMap fun c => c.bind fun p => if p.1 then none else some p.2

/-- The condition of R28: end-of-stream received on every input and sent on every output. -/
def State.streamsOver (s : State) (pid : Nat) (t : Task) : Bool :=
  t.inputs.all (fun n => (s.chan? pid n).any (·.closedC)) && t.outputs.all fun n => (s.chan? pid n).any (·.closedP)

/-- Every strand of the crew waits in a PARK. -/
def Park.gathered (p : Park) (w : Crew) : Bool := w.pos.all fun q => p.strands.any fun x => x.pos == q

/-- PARK: the strand waits until every strand of its crew waits in one (R283). -/
def parkForm (pool : Bool) (s : State) : State :=
  if s.noTask then s.trap causeTaskState 0
  else
    let w := s.myCrew
    let me := s.cur
    let (k, s) := s.nextSerial
    let s := (s.stay (.reply k)).modMyCore fun c =>
      if c.parks.any fun p => p.task == w.task then
        { c with parks := updateFirst (fun p => p.task == w.task) (fun p => { p with strands := p.strands ++ [me], pooled := p.pooled || pool }) c.parks }
      else { c with parks := c.parks ++ [⟨c.id, w.task, [me], pool, [], false, 0, none⟩] }
    match s.myCore.parks.find? fun p => p.task == w.task with
    | some p => if p.gathered w then s.post 0 (.parkTakeEffect me.core w.task) else s
    | none => s

/-- PARK.res (R283). -/
def execParkRes (s : State) : Host.Outcome State Fault Refusal := .next (parkForm false s)
/-- PARK.pool (R283). -/
def execParkPool (s : State) : Host.Outcome State Fault Refusal := .next (parkForm true s)

/-- PARK_REGISTER (R27, R283): at the home of one input the park is registered and the channel tested; the last home's answer
lets the park take effect. -/
def execParkRegister (core task chan : Nat) (s : State) : Host.Outcome State Fault Refusal :=
  .next (
    let w := s.owned core (.crew task)
    match (s.core core).parks.find? fun p => p.task == task, s.chan? w.pid chan with
    | some p, some ch =>
      if p.stage ≠ 2 || !p.waiting.contains chan then s
      else
        let s := s.modChan w.pid chan fun c => { c with parked := true }
        let left := p.waiting.filter (· != chan)
        let p := { p with waiting := left, token := p.token || ch.takeable != 0 }
        let s := s.modCore core fun c => { c with parks := updateFirst (fun q => q.task == task) (fun _ => p) c.parks }
        if left.isEmpty then s.post (homeTime core ch.homeDie - 1) (.parkTakeEffect core task) else s
    | _, _ => s)

/-- Every strand of a park goes on behind its PARK. -/
def State.unpark (s : State) (core : Nat) (p : Park) : State :=
  let s := s.modCore core fun c => { c with parks := c.parks.filter fun q => q.task != p.task }
  p.strands.foldl (fun (s : State) sid => match (s.strand sid).wait with
    | some (.reply n) => s.endWait sid n 1
    | _ => s) s

/-- The step in which a park moves on (R283). A final park takes effect once the last result has landed (R170, R295; log 20). -/
def State.parkMoves (s : State) (core pid : Nat) (t : Task) (w : Crew) (p : Park) : State :=
  let put := fun (s : State) (p : Park) => s.modCore core fun c => { c with parks := updateFirst (fun q => q.task == p.task) (fun _ => p) c.parks }
  let final := s.streamsOver pid t
  let phase := fun (s : State) (x : TaskPhase) => s.modJob pid fun j => j.modTask t.index fun t => { t with phase := x }
  if p.stage < 2 then
    if (p.pooled || final) && !(w.chains.toList.all fun ch => ch.s == ch.a) then
      (put s { p with stage := 1 }).post 0 (.parkTakeEffect core t.index)
    else if !(w.hold.le w.floor) || (s.core core).acqs.any (fun a => w.pos.contains a.sid.pos) then
      let s := s.modCore core fun c => { c with parks := c.parks.filter fun q => q.task != t.index }
      p.strands.foldl (fun (s : State) sid => s.trapOf sid causeParkHeld) s
    else
      let s := put s { p with stage := 2, waiting := t.inputs, token := false, woken := none }
      if t.inputs.isEmpty then s.post 0 (.parkTakeEffect core t.index)
      else t.inputs.foldl (fun (s : State) n =>
        s.post (homeTime core (((s.chan? pid n).map (·.homeDie)).getD 0) - 1) (.parkRegister core t.index n)) s
  else if p.stage = 2 && !p.waiting.isEmpty then s
  else if p.token then phase ((s.unregister core pid t.index).unpark core p) .placed
  else if p.stage = 3 then s
  else if final then
    if s.owes core w then s.post 0 (.parkTakeEffect core t.index)
    else (((strandsOf core w).foldl State.withdrawFor s).removeCrew core t.index).endTask pid t.index .settled
  else if p.pooled then
    let s := (phase (s.unpark core p) .parkedPooled).modCrew core t.index fun w => { w with stopped := true }
    let s := match p.woken with
      | some die => s.makeReady pid t.index die
      | none => s
    let c := s.core core
    s.post (moveCycles (imageRuns c w (c.crewStrands w) [] w.acMask)) (.contextSaveDone core t.index)
  else
    let s := phase (put s { p with stage := 3, token := p.woken.isSome }) .parkedResident
    match p.woken with
    | some die => s.post (homeTime core die - 1) (.parkTakeEffect core t.index)
    | none => s

/-- PARK_TAKE_EFFECT (R27, R28, R218, R283): the crew goes on, settles, leaves the core or parks in place. -/
def execParkTakeEffect (core task : Nat) (s : State) : Host.Outcome State Fault Refusal :=
  .next (
    let w := s.owned core (.crew task)
    match (s.core core).parks.find? fun p => p.task == task, (s.job? w.pid).bind fun j => j.task? task with
    | some p, some t => if p.gathered w && !w.stopped then s.parkMoves core w.pid t w p else s
    | _, _ => s)

end Sys2Proof.Machine
end

