-- ==== Sys2Proof/Machine/Vector.lean ====
section
/-! DEFINITION. The vector unit: lanes, masks, conversions, reductions, permutes, window accumulators and the top-k
buffer (spec 12 R242-R260; 04 R66-R71, R77-R85). -/

namespace Sys2Proof.Machine

/-! ### Element types and lanes (R66, R243, R244) -/

/-- Width in bits of an element type. -/
def elemBits (t : Nat) : Nat := 8 * typeSize t

/-- The packed elements of a lane, element 0 first (R66). -/
def packed (w : Nat) (lane : W32) : List Nat := (List.range (32 / w)).map fun j => field lane.toNat (w * j) w

/-- The lane with given packed elements (R66). -/
def packLane (w : Nat) (xs : List Nat) : W32 :=
  BitVec.ofNat 32 (xs.foldr (fun x acc => x % 2 ^ w + acc * 2 ^ w) 0)

/-- Applies a function of one element to every element of a lane. -/
def lane1 (w : Nat) (g : Nat → Nat) (x : W32) : W32 := packLane w ((packed w x).map g)

/-- Applies a function of two elements to every pair of elements of two lanes. -/
def lane2 (w : Nat) (g : Nat → Nat → Nat) (x y : W32) : W32 := packLane w (List.zipWith g (packed w x) (packed w y))

/-- The same for three lanes. -/
def lane3 (w : Nat) (g : Nat → Nat → Nat → Nat) (x y z : W32) : W32 :=
  packLane w (List.zipWith (fun (f : Nat → Nat) c => f c) (List.zipWith g (packed w x) (packed w y)) (packed w z))

/-- The element type that QF names where no TYPE does (R244). -/
def qfType (q : BitVec 2) : Nat :=
  match q.toNat with
  | 0 => 12
  | 1 => 11
  | 2 => 3
  | _ => 7

/-- The element type of a form with or without an extension (R244). -/
def elType (f : RF) (x : Option Ext) : Nat :=
  match x with
  | some x => if x.type = 0 then qfType f.qf else x.type.toNat
  | none => qfType f.qf

/-- In majors 0x15, 0x1A and 0x1B, TYPE 0 means .f32 (R244). -/
def floatType (x : Option Ext) : Nat :=
  match x with
  | some x => if x.type = 11 then 11 else 12
  | none => 12

/-- The float format of an element type: .bf16 or .f32. -/
def fmtOf (t : Nat) : Fmt := if t = 11 then .bf16 else .f32

/-- An element type is a float. -/
def isFloat (t : Nat) : Bool := t == 11 || t == 12

/-- The write mask of a form (R242). -/
def maskNo (x : Option Ext) : Nat :=
  match x with
  | some x => x.mask.toNat
  | none => 0

/-- The lanes that a form's write mask enables. -/
def State.enabled (s : State) (x : Option Ext) : List Bool := lanesOn (s.me.mask (maskNo x))

/-- Words of a form with or without an extension. -/
def formWords (x : Option Ext) : Nat := if x.isSome then 3 else 1

/-- The second operand is the scalar c0 (R244). -/
def scalarForm (x : Option Ext) : Bool :=
  match x with
  | some x => x.xm == 1
  | none => false

/-- Operand y: vector b, or the scalar c0 (R244). -/
def opndY (f : RF) (x : Option Ext) : Opnd :=
  match x with
  | some e => if scalarForm x then .s e.c0 false else .v f.b f.tb
  | none => .v f.b f.tb

/-- The lanes of y: those of b, or the low element of Src(c0) in every element of every lane (R244). -/
def State.lanesY (s : State) (f : RF) (x : Option Ext) (w : Nat) : List W32 :=
  match opndY f x with
  | .s r _ => List.replicate 128 (packLane w (List.replicate (32 / w) ((s.sval r).toNat % 2 ^ w)))
  | o => lanesOf (s.bytesOf o)

/-! ### The common course (R243, R245) -/

/-- Writes a vector's enabled lanes: through Dest, or after `lat` cycles through Reserve and Deliver. -/
def State.writeV (s : State) (lat : Nat) (r : Reg) (lanes : List W32) (on : List Bool) : State :=
  if lat = 0 then s.putV r (bytesOfLanes lanes) (bytesOn on) else s.laterV lat r (bytesOfLanes lanes) (bytesOn on)

/-- d := G of the lanes of a, under the write mask. -/
def vUn (lat : Nat) (g : W32 → W32) (f : RF) (x : Option Ext) (s : State) : State :=
  s.issue 0 [.v f.a f.ta] [.v f.d false] noTrap fun o s =>
    (s.writeV lat f.d ((o.vlanes f.a).map g) (o.enabled x)).retire (formWords x)

/-- d := G of the lanes of a and y, under the write mask. -/
def vBin (lat : Nat) (w : Nat) (g : W32 → W32 → W32) (f : RF) (x : Option Ext) (s : State) : State :=
  s.issue 0 [.v f.a f.ta, opndY f x] [.v f.d false] noTrap fun o s =>
    (s.writeV lat f.d (List.zipWith g (o.vlanes f.a) (o.lanesY f x w)) (o.enabled x)).retire (formWords x)

/-! ### Major 0x10 (R246) -/

/-- A function that floats take under R70 and integers as integers wrapped to the element's width. -/
def arith (t : Nat) (fl : Fmt → Nat → Nat → Nat) (int : Int → Int → Int) (x y : Nat) : Nat :=
  if isFloat t then fl (fmtOf t) x y
  else
    let w := elemBits t
    let v (p : Nat) : Int := if typeSigned t then sext p w else p
    wrap (int (v x) (v y)) w

/-- A binary elementwise form of a type. -/
def vArith (fl : Fmt → Nat → Nat → Nat) (int : Int → Int → Int) (f : RF) (x : Option Ext) (s : State) : State :=
  let t := elType f x
  vBin 0 (elemBits t) (lane2 (elemBits t) (arith t fl int)) f x s

/-- VADD, VSUB and VMUL. -/
def vAddForm (f : RF) (x : Option Ext) (s : State) : State := vArith (fun m => m.add .rne) (· + ·) f x s
def vSubForm (f : RF) (x : Option Ext) (s : State) : State := vArith (fun m => m.sub .rne) (· - ·) f x s
def vMulForm (f : RF) (x : Option Ext) (s : State) : State := vArith (fun m => m.mul .rne) (· * ·) f x s
/-- VMIN and VMAX: integers are compared signed or unsigned. -/
def vMinForm (f : RF) (x : Option Ext) (s : State) : State := vArith Fmt.min (fun a b => if a ≤ b then a else b) f x s
def vMaxForm (f : RF) (x : Option Ext) (s : State) : State := vArith Fmt.max (fun a b => if b ≤ a then a else b) f x s

/-- VAND, VOR and VXOR: bitwise on the lane; a scalar's low element stands in every element (R244). -/
def vBitForm (g : W32 → W32 → W32) (f : RF) (x : Option Ext) (s : State) : State :=
  vBin 0 (min 32 (elemBits (elType f x))) g f x s

/-- VSHL, VSHR and VSHA: the amount is y[c-1:0], 2^c the element's width. -/
def vShiftForm (g : Nat → Nat → Nat → Nat) (f : RF) (x : Option Ext) (s : State) : State :=
  let w := elemBits (elType f x)
  vBin 0 w (lane2 w fun a b => g w a (b % w)) f x s

/-- The arithmetic right shift of an element. -/
def shiftArith (w a n : Nat) : Nat := wrap (sext a w / 2 ^ n) w

/-- VDIV: 16 cycles (R245). -/
def vDivForm (f : RF) (x : Option Ext) (s : State) : State :=
  let t := elType f x
  vBin 16 (elemBits t) (lane2 (elemBits t) ((fmtOf t).div .rne)) f x s

/-- VADD (R246). -/
def execVadd (f : RF) (s : State) : Host.Outcome State Fault Refusal := .next (vAddForm f none s)
/-- VADD with an extension (R246). -/
def execVaddExt (f : RF) (x : Ext) (s : State) : Host.Outcome State Fault Refusal := .next (vAddForm f (some x) s)
/-- VSUB (R246). -/
def execVsub (f : RF) (s : State) : Host.Outcome State Fault Refusal := .next (vSubForm f none s)
/-- VSUB with an extension (R246). -/
def execVsubExt (f : RF) (x : Ext) (s : State) : Host.Outcome State Fault Refusal := .next (vSubForm f (some x) s)
/-- VMUL (R246). -/
def execVmul (f : RF) (s : State) : Host.Outcome State Fault Refusal := .next (vMulForm f none s)
/-- VMUL with an extension (R246). -/
def execVmulExt (f : RF) (x : Ext) (s : State) : Host.Outcome State Fault Refusal := .next (vMulForm f (some x) s)
/-- VMIN (R246). -/
def execVmin (f : RF) (s : State) : Host.Outcome State Fault Refusal := .next (vMinForm f none s)
/-- VMIN with an extension (R246). -/
def execVminExt (f : RF) (x : Ext) (s : State) : Host.Outcome State Fault Refusal := .next (vMinForm f (some x) s)
/-- VMAX (R246). -/
def execVmax (f : RF) (s : State) : Host.Outcome State Fault Refusal := .next (vMaxForm f none s)
/-- VMAX with an extension (R246). -/
def execVmaxExt (f : RF) (x : Ext) (s : State) : Host.Outcome State Fault Refusal := .next (vMaxForm f (some x) s)
/-- VAND (R246). -/
def execVand (f : RF) (s : State) : Host.Outcome State Fault Refusal := .next (vBitForm (· &&& ·) f none s)
/-- VAND with an extension (R246). -/
def execVandExt (f : RF) (x : Ext) (s : State) : Host.Outcome State Fault Refusal :=
  .next (vBitForm (· &&& ·) f (some x) s)
/-- VOR (R246). -/
def execVor (f : RF) (s : State) : Host.Outcome State Fault Refusal := .next (vBitForm (· ||| ·) f none s)
/-- VOR with an extension (R246). -/
def execVorExt (f : RF) (x : Ext) (s : State) : Host.Outcome State Fault Refusal :=
  .next (vBitForm (· ||| ·) f (some x) s)
/-- VXOR (R246). -/
def execVxor (f : RF) (s : State) : Host.Outcome State Fault Refusal := .next (vBitForm (· ^^^ ·) f none s)
/-- VXOR with an extension (R246). -/
def execVxorExt (f : RF) (x : Ext) (s : State) : Host.Outcome State Fault Refusal :=
  .next (vBitForm (· ^^^ ·) f (some x) s)
/-- VSHL (R246). -/
def execVshl (f : RF) (s : State) : Host.Outcome State Fault Refusal :=
  .next (vShiftForm (fun _ a n => a * 2 ^ n) f none s)
/-- VSHL with an extension (R246). -/
def execVshlExt (f : RF) (x : Ext) (s : State) : Host.Outcome State Fault Refusal :=
  .next (vShiftForm (fun _ a n => a * 2 ^ n) f (some x) s)
/-- VSHR (R246). -/
def execVshr (f : RF) (s : State) : Host.Outcome State Fault Refusal :=
  .next (vShiftForm (fun _ a n => a / 2 ^ n) f none s)
/-- VSHR with an extension (R246). -/
def execVshrExt (f : RF) (x : Ext) (s : State) : Host.Outcome State Fault Refusal :=
  .next (vShiftForm (fun _ a n => a / 2 ^ n) f (some x) s)
/-- VSHA (R246). -/
def execVsha (f : RF) (s : State) : Host.Outcome State Fault Refusal := .next (vShiftForm shiftArith f none s)
/-- VSHA with an extension (R246). -/
def execVshaExt (f : RF) (x : Ext) (s : State) : Host.Outcome State Fault Refusal :=
  .next (vShiftForm shiftArith f (some x) s)
/-- VDIV (R246). -/
def execVdiv (f : RF) (s : State) : Host.Outcome State Fault Refusal := .next (vDivForm f none s)
/-- VDIV with an extension (R246). -/
def execVdivExt (f : RF) (x : Ext) (s : State) : Host.Outcome State Fault Refusal := .next (vDivForm f (some x) s)

/-! ### Major 0x11 (R247) -/

/-- VFMA and VFMS: d is a source as well; `neg` subtracts the product from it. -/
def vFmaForm (neg : Bool) (f : RF) (x : Option Ext) (s : State) : State :=
  let t := elType f x
  let m := fmtOf t
  let g (a b c : Nat) : Nat :=
    let p := (m.decode a).mul (m.decode b)
    m.addVal .rne (if neg then p.neg else p) (m.decode c)
  s.issue 0 [.v f.a f.ta, opndY f x, .v f.d false] [.v f.d false] noTrap fun o s =>
    let ab := List.zip (o.vlanes f.a) (o.lanesY f x (elemBits t))
    let out := List.zipWith (fun (p : W32 × W32) c => lane3 (elemBits t) g p.1 p.2 c) ab (o.vlanes f.d)
    (s.writeV 0 f.d out (o.enabled x)).retire (formWords x)

/-- VABS of an element. -/
def absElem (t p : Nat) : Nat :=
  if isFloat t then (if (fmtOf t).isNan p then (fmtOf t).nan else p % (fmtOf t).sign)
  else wrap ((sext p (elemBits t)).natAbs : Int) (elemBits t)

/-- VNEG of an element. -/
def negElem (t p : Nat) : Nat :=
  if isFloat t then (if (fmtOf t).isNan p then (fmtOf t).nan else (p + (fmtOf t).sign) % 2 ^ (fmtOf t).width)
  else wrap (-(p : Int)) (elemBits t)

/-- VABS, VNEG and VSQRT. -/
def vUnForm (lat : Nat) (g : Nat → Nat → Nat) (f : RF) (x : Option Ext) (s : State) : State :=
  let t := elType f x
  vUn lat (lane1 (elemBits t) (g t)) f x s

/-- VSEL: every lane is written; the mask selects. -/
def vSelForm (f : RF) (x : Option Ext) (s : State) : State :=
  s.issue 0 [.v f.a f.ta, opndY f x] [.v f.d false] noTrap fun o s =>
    let ab := List.zip (o.vlanes f.a) (o.lanesY f x (min 32 (elemBits (elType f x))))
    let out := List.zipWith (fun (on : Bool) (p : W32 × W32) => if on then p.1 else p.2) (o.enabled x) ab
    (s.writeV 0 f.d out (List.replicate 128 true)).retire (formWords x)

/-- VFMA (R247). -/
def execVfma (f : RF) (s : State) : Host.Outcome State Fault Refusal := .next (vFmaForm false f none s)
/-- VFMA with an extension (R247). -/
def execVfmaExt (f : RF) (x : Ext) (s : State) : Host.Outcome State Fault Refusal := .next (vFmaForm false f (some x) s)
/-- VFMS (R247). -/
def execVfms (f : RF) (s : State) : Host.Outcome State Fault Refusal := .next (vFmaForm true f none s)
/-- VFMS with an extension (R247). -/
def execVfmsExt (f : RF) (x : Ext) (s : State) : Host.Outcome State Fault Refusal := .next (vFmaForm true f (some x) s)
/-- VABS (R247). -/
def execVabs (f : RF) (s : State) : Host.Outcome State Fault Refusal := .next (vUnForm 0 absElem f none s)
/-- VABS with an extension (R247). -/
def execVabsExt (f : RF) (x : Ext) (s : State) : Host.Outcome State Fault Refusal := .next (vUnForm 0 absElem f (some x) s)
/-- VNEG (R247). -/
def execVneg (f : RF) (s : State) : Host.Outcome State Fault Refusal := .next (vUnForm 0 negElem f none s)
/-- VNEG with an extension (R247). -/
def execVnegExt (f : RF) (x : Ext) (s : State) : Host.Outcome State Fault Refusal := .next (vUnForm 0 negElem f (some x) s)
/-- VSQRT (R247): 16 cycles. -/
def execVsqrt (f : RF) (s : State) : Host.Outcome State Fault Refusal :=
  .next (vUnForm 16 (fun t => (fmtOf t).sqrt .rne) f none s)
/-- VSQRT with an extension (R247). -/
def execVsqrtExt (f : RF) (x : Ext) (s : State) : Host.Outcome State Fault Refusal :=
  .next (vUnForm 16 (fun t => (fmtOf t).sqrt .rne) f (some x) s)
/-- VSEL (R247). -/
def execVsel (f : RF) (s : State) : Host.Outcome State Fault Refusal := .next (vSelForm f none s)
/-- VSEL with an extension (R247). -/
def execVselExt (f : RF) (x : Ext) (s : State) : Host.Outcome State Fault Refusal := .next (vSelForm f (some x) s)

/-! ### Comparison and masks (R248, R249) -/

/-- A mask with the listed lanes. -/
def maskOf (on : List Bool) : BitVec 128 :=
  BitVec.ofNat 128 (on.foldr (fun b acc => boolNat b + 2 * acc) 0)

/-- The condition on two elements of a type: the type says signed or unsigned (R34, R248). -/
def condElem (op : BitVec 5) (t x y : Nat) : Bool :=
  if isFloat t then condFloat op (fmtOf t) x y
  else
    let w := elemBits t
    condInt (if typeSigned t then op else op ||| 16#5) (BitVec.ofNat w x) (BitVec.ofNat w y)

/-- VCMP: the bit of an enabled lane says that the condition holds for its every element. -/
def vCmpForm (f : RF) (op : BitVec 5) (x : Option Ext) (s : State) : State :=
  let t := elType f x
  s.issue 0 [.v f.a f.ta, opndY f x] [] noTrap fun o s =>
    let holds := List.zipWith
      (fun a b => (List.zipWith (condElem op t) (packed (elemBits t) a) (packed (elemBits t) b)).all id)
      (o.vlanes f.a) (o.lanesY f x (elemBits t))
    let bits := List.zipWith (fun (on c : Bool) => on && c) (o.enabled x) holds
    (s.modMe fun st => st.setMask (f.d.toNat % 8) (maskOf bits)).retire (formWords x)

/-- md := G(ma, mb) (R249). -/
def maskForm (g : BitVec 128 → BitVec 128 → BitVec 128) (f : RF) (s : State) : State :=
  (s.modMe fun st => st.setMask (f.d.toNat % 8) (g (st.mask (f.a.toNat % 8)) (st.mask (f.b.toNat % 8)))).retire 1

/-- VCMP (R248). -/
def execVcmp (f : RF) (op : BitVec 5) (s : State) : Host.Outcome State Fault Refusal := .next (vCmpForm f op none s)
/-- VCMP with an extension (R248). -/
def execVcmpExt (f : RF) (op : BitVec 5) (x : Ext) (s : State) : Host.Outcome State Fault Refusal :=
  .next (vCmpForm f op (some x) s)
/-- MAND (R249). -/
def execMand (f : RF) (s : State) : Host.Outcome State Fault Refusal := .next (maskForm (· &&& ·) f s)
/-- MOR (R249). -/
def execMor (f : RF) (s : State) : Host.Outcome State Fault Refusal := .next (maskForm (· ||| ·) f s)
/-- MXOR (R249). -/
def execMxor (f : RF) (s : State) : Host.Outcome State Fault Refusal := .next (maskForm (· ^^^ ·) f s)
/-- MNOT (R249). -/
def execMnot (f : RF) (s : State) : Host.Outcome State Fault Refusal := .next (maskForm (fun a _ => ~~~a) f s)

/-- The number of ones of a mask. -/
def popMask (m : BitVec 128) : Nat := ((lanesOn m).filter id).length

/-- MPOPC (R249). -/
def execMpopc (f : RF) (s : State) : Host.Outcome State Fault Refusal :=
  .next (s.issue 0 [] [.s f.d false] noTrap fun o s =>
    (s.putS f.d (BitVec.ofNat 64 (popMask (o.me.mask (f.a.toNat % 8))))).retire 1)

/-! ### Conversions (R48, R71, R250) -/

/-- The width of the packed elements that a conversion narrows to or widens from, and whether it narrows (R250). -/
def cvtShape (op : Nat) : Nat × Bool :=
  if op = 0 || op = 12 then (16, true)
  else if op = 1 || op = 15 then (16, false)
  else if (2 ≤ op && op ≤ 5) || op = 13 || op = 14 then (8, true)
  else if op = 6 || op = 7 || op = 16 then (8, false)
  else (32, false)

/-- The conversion of one element (R48, R71, R250). -/
def cvtElem (op : Nat) (m : RMode) (x : Nat) : Nat :=
  match op with
  | 0 => Fmt.f32.convert .bf16 m false x
  | 1 => Fmt.bf16.convert .f32 m false x
  | 2 => Fmt.f32.convert .e4m3 m false x
  | 3 => Fmt.f32.convert .e4m3 m true x
  | 4 => Fmt.f32.convert .e5m2 m false x
  | 5 => Fmt.f32.convert .e5m2 m true x
  | 6 => Fmt.e4m3.convert .f32 m false x
  | 7 => Fmt.e5m2.convert .f32 m false x
  | 8 => wrap (Fmt.f32.toInt m (-2 ^ 31) (2 ^ 31 - 1) x) 32
  | 9 => wrap (Fmt.f32.toInt m 0 (2 ^ 32 - 1) x) 32
  | 10 => Fmt.f32.ofInt m (Machine.sext x 32)
  | 11 => Fmt.f32.ofInt m x
  | 12 => wrap (sat (Machine.sext x 32) (-32768) 32767) 16
  | 13 => wrap (sat (Machine.sext x 32) (-128) 127) 8
  | 14 => min x 255
  | 15 => wrap (Machine.sext x 16) 32
  | _ => wrap (Machine.sext x 8) 32

/-- VCVT at position p; a narrowing waits for d to be full, as for a source (R250). -/
def vCvtForm (f : RF) (op : BitVec 5) (p : Nat) (x : Option Ext) (s : State) : State :=
  let n := op.toNat
  let (w, narrow) := cvtShape n
  let m := RMode.ofQf f.qf
  s.issue 0 ([Opnd.v f.a f.ta] ++ if narrow then [.v f.d false] else []) [.v f.d false] noTrap fun o s =>
    let out := List.zipWith (fun (a d : W32) =>
        if narrow then BitVec.ofNat 32 (putField d.toNat (w * p) w (cvtElem n m a.toNat))
        else BitVec.ofNat 32 (cvtElem n m (field a.toNat (w * p) w))) (o.vlanes f.a) (o.vlanes f.d)
    (s.writeV 0 f.d out (o.enabled x)).retire (formWords x)

/-- VCVT (R250). -/
def execVcvt (f : RF) (op : BitVec 5) (s : State) : Host.Outcome State Fault Refusal := .next (vCvtForm f op 0 none s)
/-- VCVT with an extension (R250): the position is imm16a. -/
def execVcvtExt (f : RF) (op : BitVec 5) (x : Ext) (s : State) : Host.Outcome State Fault Refusal :=
  .next (vCvtForm f op x.immA (some x) s)

/-! ### Transcendental functions (R251) -/

/-- A published function on every element: 12 cycles. -/
def vTransForm (g : Nat → Nat) (f : RF) (x : Option Ext) (s : State) : State :=
  let t := floatType x
  vUn 12 (lane1 (elemBits t) (if t = 11 then viaF32 g else g)) f x s

/-- VEXP2 (R251). -/
def execVexp2 (f : RF) (s : State) : Host.Outcome State Fault Refusal := .next (vTransForm exp2Bits f none s)
/-- VEXP2 with an extension (R251). -/
def execVexp2Ext (f : RF) (x : Ext) (s : State) : Host.Outcome State Fault Refusal := .next (vTransForm exp2Bits f (some x) s)
/-- VLOG2 (R251). -/
def execVlog2 (f : RF) (s : State) : Host.Outcome State Fault Refusal := .next (vTransForm log2Bits f none s)
/-- VLOG2 with an extension (R251). -/
def execVlog2Ext (f : RF) (x : Ext) (s : State) : Host.Outcome State Fault Refusal := .next (vTransForm log2Bits f (some x) s)
/-- VRCP (R251). -/
def execVrcp (f : RF) (s : State) : Host.Outcome State Fault Refusal := .next (vTransForm rcpBits f none s)
/-- VRCP with an extension (R251). -/
def execVrcpExt (f : RF) (x : Ext) (s : State) : Host.Outcome State Fault Refusal := .next (vTransForm rcpBits f (some x) s)
/-- VRSQ (R251). -/
def execVrsq (f : RF) (s : State) : Host.Outcome State Fault Refusal := .next (vTransForm rsqrtBits f none s)
/-- VRSQ with an extension (R251). -/
def execVrsqExt (f : RF) (x : Ext) (s : State) : Host.Outcome State Fault Refusal := .next (vTransForm rsqrtBits f (some x) s)
/-- VEXP (R251). -/
def execVexp (f : RF) (s : State) : Host.Outcome State Fault Refusal := .next (vTransForm expBits f none s)
/-- VEXP with an extension (R251). -/
def execVexpExt (f : RF) (x : Ext) (s : State) : Host.Outcome State Fault Refusal := .next (vTransForm expBits f (some x) s)

/-! ### Reductions and scans (R252) -/

/-- A negative zero. -/
def FVal.isNegZero : FVal → Bool
  | .fin true 0 _ => true
  | _ => false

/-- The exact sum of floats: a NaN, or infinities of both signs, give NaN; a sum of negative zeros alone is -0, and every
other zero sum, that of no element too, is +0 (R69, R252).
It is formed in units of 2^-149, as R77 and R78 do: BF16 values lie in that range as FP32 ones do. -/
def sumVals (xs : List FVal) : FVal :=
  let r := xs.foldl (fun (acc : WVal) v => acc.addVal v) ⟨0, noFlags⟩
  let neg := decide (r.w < 0) || (!xs.isEmpty && xs.all FVal.isNegZero)
  (winSpecial r.fl).getD (.fin neg r.w.natAbs (-149))

/-- The value of an integer element of .i32 or .n32. -/
def intElem (t p : Nat) : Int := if typeSigned t then sext p 32 else p

/-- The rounded sum of elements of a type: for floats once, for integers exact. -/
def sumElems (t : Nat) (xs : List Nat) : Int :=
  if xs.isEmpty then 0
  else if isFloat t then ((fmtOf t).roundVal .rne false (sumVals (xs.map (fmtOf t).decode)) : Nat)
  else (xs.map (intElem t)).foldl (· + ·) 0

/-- VRMAX, or VRMIN if `least`, of elements of a type. -/
def extreme (t : Nat) (least : Bool) (xs : List Nat) : Int :=
  if isFloat t then
    let m := fmtOf t
    let g := if least then m.min else m.max
    match xs with
    | [] => (m.infOf (!least) : Nat)
    | x :: rest => (rest.foldl g (if m.isNan x then m.nan else x) : Nat)
  else
    let vs := xs.map (intElem t)
    let start : Int := if typeSigned t then (if least then 2 ^ 31 - 1 else -2 ^ 31) else if least then 2 ^ 32 - 1 else 0
    vs.foldl (fun a b => if least then (if a ≤ b then a else b) else if b ≤ a then a else b) start

/-- The elements of the enabled lanes. -/
def takenElems (t : Nat) (lanes : List W32) (on : List Bool) : List Nat :=
  (lanes.zip on).flatMap fun p => if p.2 then packed (elemBits t) p.1 else []

/-- VRSUM, VRMAX and VRMIN: a scalar result after 8 cycles. -/
def vReduceForm (g : Nat → List Nat → Int) (f : RF) (x : Option Ext) (s : State) : State :=
  let t := elType f x
  s.issue 0 [.v f.a f.ta] [.s f.d false] noTrap fun o s =>
    (s.laterS 8 f.d (word (g t (takenElems t (o.vlanes f.a) (o.enabled x))))).retire (formWords x)

/-- The scan of one element position: the elements of the enabled lanes up to lane l, or below it if `strict`. -/
def scanAt (t : Nat) (strict : Bool) (xs : List Nat) (on : List Bool) (l : Nat) : Nat :=
  let n := if strict then l else l + 1
  let taken := ((xs.zip on).take n).filterMap fun p => if p.2 then some p.1 else none
  wrap (sumElems t taken) (elemBits t)

/-- VSCAN and VSCAN.x: 8 cycles. -/
def vScanForm (strict : Bool) (f : RF) (x : Option Ext) (s : State) : State :=
  let t := elType f x
  s.issue 0 [.v f.a f.ta] [.v f.d false] noTrap fun o s =>
    let on := o.enabled x
    let rows := (o.vlanes f.a).map (packed (elemBits t))
    let out := (List.range 128).map fun l =>
      packLane (elemBits t) ((List.range (32 / elemBits t)).map fun j => scanAt t strict (rows.map fun r => r.getD j 0) on l)
    (s.writeV 8 f.d out on).retire (formWords x)

/-- VRSUM (R252). -/
def execVrsum (f : RF) (s : State) : Host.Outcome State Fault Refusal := .next (vReduceForm sumElems f none s)
/-- VRSUM with an extension (R252). -/
def execVrsumExt (f : RF) (x : Ext) (s : State) : Host.Outcome State Fault Refusal := .next (vReduceForm sumElems f (some x) s)
/-- VRMAX (R252). -/
def execVrmax (f : RF) (s : State) : Host.Outcome State Fault Refusal :=
  .next (vReduceForm (fun t => extreme t false) f none s)
/-- VRMAX with an extension (R252). -/
def execVrmaxExt (f : RF) (x : Ext) (s : State) : Host.Outcome State Fault Refusal :=
  .next (vReduceForm (fun t => extreme t false) f (some x) s)
/-- VRMIN (R252). -/
def execVrmin (f : RF) (s : State) : Host.Outcome State Fault Refusal :=
  .next (vReduceForm (fun t => extreme t true) f none s)
/-- VRMIN with an extension (R252). -/
def execVrminExt (f : RF) (x : Ext) (s : State) : Host.Outcome State Fault Refusal :=
  .next (vReduceForm (fun t => extreme t true) f (some x) s)
/-- VSCAN (R252). -/
def execVscan (f : RF) (s : State) : Host.Outcome State Fault Refusal := .next (vScanForm false f none s)
/-- VSCAN with an extension (R252). -/
def execVscanExt (f : RF) (x : Ext) (s : State) : Host.Outcome State Fault Refusal := .next (vScanForm false f (some x) s)
/-- VSCAN.x (R252). -/
def execVscanX (f : RF) (s : State) : Host.Outcome State Fault Refusal := .next (vScanForm true f none s)
/-- VSCAN.x with an extension (R252). -/
def execVscanXExt (f : RF) (x : Ext) (s : State) : Host.Outcome State Fault Refusal := .next (vScanForm true f (some x) s)

/-! ### Permutes, inserts and extracts (R253, R254) -/

/-- VPERM by the lane numbers in b: every lane (R253). -/
def execVperm (f : RF) (s : State) : Host.Outcome State Fault Refusal :=
  .next (s.issue 0 [.v f.a f.ta, .v f.b f.tb] [.v f.d false] noTrap fun o s =>
    let a := o.vlanes f.a
    (s.writeV 0 f.d ((o.vlanes f.b).map fun n => a.getD (n.toNat % 128) 0) (List.replicate 128 true)).retire 1)

/-- VPERM by a rotation (R253). -/
def execVpermRotate (f : RF) (x : Ext) (s : State) : Host.Outcome State Fault Refusal :=
  .next (s.issue 0 [.v f.a f.ta] [.v f.d false] noTrap fun o s =>
    let a := o.vlanes f.a
    (s.writeV 0 f.d ((List.range 128).map fun l => a.getD ((l + x.immA) % 128) 0) (o.enabled (some x))).retire 3)

/-- The enabled lanes of d take values computed from Src(a). -/
def vFromScalar (g : Word → Nat → W32) (f : RF) (x : Option Ext) (s : State) : State :=
  s.issue 0 [.s f.a f.ta] [.v f.d false] noTrap fun o s =>
    (s.writeV 0 f.d ((List.range 128).map (g (o.sval f.a))) (o.enabled x)).retire (formWords x)

/-- Lane l of VIOTA: Wrap(Src(a) + l, 32). -/
def iotaLane (a : Word) (l : Nat) : W32 := (a + BitVec.ofNat 64 l).setWidth 32

/-- VBCAST (R253). -/
def execVbcast (f : RF) (s : State) : Host.Outcome State Fault Refusal :=
  .next (vFromScalar (fun a _ => a.setWidth 32) f none s)
/-- VBCAST with an extension (R253). -/
def execVbcastExt (f : RF) (x : Ext) (s : State) : Host.Outcome State Fault Refusal :=
  .next (vFromScalar (fun a _ => a.setWidth 32) f (some x) s)
/-- VIOTA (R253). -/
def execViota (f : RF) (s : State) : Host.Outcome State Fault Refusal := .next (vFromScalar iotaLane f none s)
/-- VIOTA with an extension (R253). -/
def execViotaExt (f : RF) (x : Ext) (s : State) : Host.Outcome State Fault Refusal := .next (vFromScalar iotaLane f (some x) s)

/-- The lane flags with one lane set. -/
def onlyLane (l : Nat) : List Bool := (List.range 128).map fun i => i == l

/-- Writes one lane of d; the others keep their bytes. -/
def State.insertLane (s : State) (r : Reg) (l : Nat) (x : W32) : State := s.writeV 0 r (List.replicate 128 x) (onlyLane l)

/-- VINS with a scalar lane number (R253): 128 or more traps. -/
def execVins (f : RF) (s : State) : Host.Outcome State Fault Refusal :=
  .next (s.issue 0 [.s f.a f.ta, .s f.b f.tb, .v f.d false] [.v f.d false]
    (fun s => if 128 ≤ (s.sval f.b).toNat then some causeVectorOperand else none)
    fun o s => (s.insertLane f.d (o.sval f.b).toNat ((o.sval f.a).setWidth 32)).retire 1)

/-- VINS with an immediate lane number (R253). -/
def execVinsImmediate (f : RF) (x : Ext) (s : State) : Host.Outcome State Fault Refusal :=
  .next (s.issue 0 [.s f.a f.ta, .v f.d false] [.v f.d false] noTrap fun o s =>
    (s.insertLane f.d x.immA ((o.sval f.a).setWidth 32)).retire 3)

/-- VEXT from lane l on: d takes the value of the lowest enabled lane, a its number (R253). -/
def vExtForm (l : Nat) (f : RF) (x : Option Ext) (s : State) : State :=
  s.issue 0 [.v f.b f.tb] [.s f.d false, .s f.a false] noTrap fun o s =>
    let on := o.enabled x
    let (v, j) := match firstBelow 128 fun j => l ≤ j && on.getD j false with
      | none => ((0 : W32), 128)
      | some j => ((o.vlanes f.b).getD j 0, j)
    ((s.putS f.d (v.setWidth 64)).putS f.a (BitVec.ofNat 64 j)).retire (formWords x)

/-- VEXT (R253). -/
def execVext (f : RF) (s : State) : Host.Outcome State Fault Refusal := .next (vExtForm 0 f none s)
/-- VEXT with a first lane (R253). -/
def execVextImmediate (f : RF) (x : Ext) (s : State) : Host.Outcome State Fault Refusal :=
  .next (vExtForm x.immA f (some x) s)

/-- The transpose of 32 rows of 32 elements of 4 bytes (R254). -/
def transposed (bytes : List Byte) : List Byte :=
  let lanes := lanesOf bytes
  bytesOfLanes ((List.range 1024).map fun n => lanes.getD (n % 32 * 32 + n / 32) 0)

/-- VTRANS (R254): 8 cycles. -/
def execVtrans (f : RF) (s : State) : Host.Outcome State Fault Refusal :=
  .next (s.issue 0 [.tile f.a f.ta] [.tile f.d false] noTrap fun o s =>
    let out := transposed (o.bytesOf (.tile f.a false))
    ((s.reserve (.tile f.d false)).post 8
      (.deliver (s.spaceDelivery (s.me.place (.tile f.d false)).1 out (List.replicate 4096 true)))).retire 1)

/-! ### Top-k selection (R259, R260) -/

/-- A candidate ranks strictly before another by value and index: a NaN ranks below every number, the two zeros alike. -/
def ranksBefore (x y : W32 × W32) : Bool :=
  let a := x.1.toNat
  let b := y.1.toNat
  match Fmt.f32.isNan a, Fmt.f32.isNan b with
  | true, true => x.2.toNat < y.2.toNat
  | true, false => false
  | false, true => true
  | false, false =>
    match Fmt.f32.cmp a b with
    | some .gt => true
    | some .eq => x.2.toNat < y.2.toNat
    | _ => false

/-- A candidate joins a ranked list behind those that do not rank after it (R259). -/
def insertRanked (c : W32 × W32) : List (W32 × W32) → List (W32 × W32)
  | [] => [c]
  | d :: ds => if ranksBefore c d then c :: d :: ds else d :: insertRanked c ds

/-- A candidate is added: the first K stay; any NaN is kept as the canonical one (R259). -/
def TopK.add (t : TopK) (value index : W32) : TopK :=
  let v := if Fmt.f32.isNan value.toNat then BitVec.ofNat 32 Fmt.f32.nan else value
  { t with cands := (insertRanked (v, index) t.cands).take t.k }

/-- VTOPK.add (R260). -/
def topkAddForm (f : RF) (x : Option Ext) (s : State) : State :=
  s.issue 0 [.v f.a f.ta, .s f.b f.tb] [] noTrap fun o s =>
    let lanes := ((o.vlanes f.a).zip (o.enabled x)).zipIdx
    let base := o.sval f.b
    let t := lanes.foldl (fun (t : TopK) (p : (W32 × Bool) × Nat) =>
      if p.1.2 then t.add p.1.1 (iotaLane base p.2) else t) o.me.topk
    (s.modMe fun st => { st with topk := t }).retire (formWords x)

/-- VTOPK.add (R260). -/
def execVtopkAdd (f : RF) (s : State) : Host.Outcome State Fault Refusal := .next (topkAddForm f none s)
/-- VTOPK.add with an extension (R260). -/
def execVtopkAddExt (f : RF) (x : Ext) (s : State) : Host.Outcome State Fault Refusal := .next (topkAddForm f (some x) s)

/-- VTOPK.drain (R260): values to d, indices to a, 8 cycles; the buffer is emptied. -/
def execVtopkDrain (f : RF) (s : State) : Host.Outcome State Fault Refusal :=
  .next (s.issue 0 [] [.v f.d false, .v f.a false] noTrap fun o s =>
    let cands := o.me.topk.cands
    let all := List.replicate 128 true
    let values := (List.range 128).map fun l => ((cands[l]?).map (·.1)).getD 0x7FC00000#32
    let indices := (List.range 128).map fun l => ((cands[l]?).map (·.2)).getD 0xFFFFFFFF#32
    let s := (s.writeV 8 f.d values all).writeV 8 f.a indices all
    (s.modMe fun st => { st with topk := { st.topk with cands := [] } }).retire 1)

/-- VTOPK.clr (R260): a capacity of 0 or above 64 traps. -/
def execVtopkClr (f : RF) (s : State) : Host.Outcome State Fault Refusal :=
  .next (s.issue 0 [.s f.a f.ta] []
    (fun s => if s.sval f.a = 0 || 64 < (s.sval f.a).toNat then some causeVectorOperand else none)
    fun o s => (s.modMe fun st => { st with topk := ⟨(o.sval f.a).toNat, []⟩ }).retire 1)

/-! ### Window accumulators (R255-R258) -/

/-- The 128 lane integers of an accumulator's bytes (R77, R255). -/
def windowInts (bytes : List Byte) : List Int :=
  (piecesOf 40 128 bytes).map fun b => sext (natOfBytes b) 320

/-- The bytes of lane integers. -/
def windowBytes (ws : List Int) : List Byte := ws.flatMap fun w => bytesOfNat 40 (wrap w 320)

/-- The lanes of accumulator a_n: integers through the view, flags and counts of the name (R255). -/
def State.windowLanes (s : State) (r : Reg) : List WVal :=
  let ints := windowInts (s.bytesOf (.w r false))
  ints.zipIdx.map fun p => ⟨p.1, lookupD s.myCrew.win (r.toNat * 128 + p.2) noFlags⟩

/-- An earlier window operation of the same crew or Hasp strand on the same name, or on bytes that a_n overlaps, has not
completed (R256). -/
def State.windowBusy (s : State) (r : Reg) : Bool :=
  let first := (s.me.place (.w r false)).1 / 64
  (s.pending.any fun e => match e.ev with
    | .deliver p => p.sid.core == s.cur.core && p.owner == s.ownerOf s.cur && !p.win.isEmpty &&
        (p.win.any (fun x => x.1 == r.toNat) || anyIn first 80 p.lines)
    | _ => false) || s.jobs.any fun j => j.waits.any fun x =>
      x.win && x.sid.any fun sid => sid.core == s.cur.core && s.ownerOf sid == s.ownerOf s.cur &&
        (x.d == r.toNat || (x.base / 64 < first + 80 && first < x.base / 64 + 80))

/-- Waits for the earlier window operations, once the name lies in the window (R256). -/
def State.afterWindow (s : State) (r : Reg) (k : State → State) : State :=
  if s.inWindow (.w r false) && s.windowBusy r then s.lend .poll else k s

/-- The delivery of an accumulator with its window state (R256). -/
def State.windowDelivery (s : State) (r : Reg) (lanes : List WVal) : Delivery :=
  let base := (s.me.place (.w r false)).1
  { s.spaceDelivery base (windowBytes (lanes.map (·.w))) (List.replicate 5120 true) with
    win := lanes.zipIdx.map fun p => (r.toNat, p.2, p.1.fl) }

/-- The number of times two divides a number that is not zero, up to `fuel`. -/
def lowBit (n : Nat) : Nat → Nat
  | 0 => 0
  | fuel + 1 => if n % 2 = 1 then 0 else lowBit (n / 2) fuel + 1

/-- The words of W that an addend spans (R257): from the lowest word with a set bit of its magnitude to the highest word
that changes; 1 for a zero, a NaN or an infinity. -/
def addSpan (old : WVal) (v : FVal) : Nat :=
  match v with
  | .fin s n e =>
    if n = 0 then 1
    else
      let x := scaledTo (-149) s n e
      let changed := (BitVec.ofInt 320 old.w ^^^ BitVec.ofInt 320 (old.addVal v).w).toNat
      Nat.log2 changed / 32 - lowBit x.natAbs 320 / 32 + 1
  | _ => 1

/-- Adds values to a lane one after the other: the lane and the widest span. -/
def addAll (lane : WVal) (vs : List FVal) : WVal × Nat :=
  vs.foldl (fun (acc : WVal × Nat) v => (acc.1.addVal v, max acc.2 (addSpan acc.1 v))) (lane, 1)

/-- WADD and WADDM: the enabled lanes of the mask `on` are added; 1 + w cycles. -/
def wAddForm (f : RF) (t : Nat) (counts : Bool) (words : Nat) (on : State → List Bool) (s : State) : State :=
  s.afterWindow f.d fun s =>
    s.issue 0 [.v f.a f.ta, .w f.d false] [.w f.d false] noTrap fun o s =>
      let m := fmtOf t
      let work := ((o.windowLanes f.d).zip (o.vlanes f.a)).zip (on o)
      let done := work.map fun (p : (WVal × W32) × Bool) =>
        if p.2 then
          let (lane, w) := addAll p.1.1 ((packed m.width p.1.2).map m.decode)
          (if counts then { lane with fl := { lane.fl with count := min (lane.fl.count + 1) 0xFFFFFFFF } } else lane, w)
        else (p.1.1, 1)
      let w := done.foldl (fun acc p => max acc p.2) 1
      ((s.reserve (.w f.d false)).post (1 + w) (.deliver (s.windowDelivery f.d (done.map (·.1))))).retire words

/-- The lanes that MASK and mask mb enable. -/
def bothMasks (x : Option Ext) (b : Reg) (s : State) : List Bool :=
  lanesOn (s.me.mask (maskNo x) &&& s.me.mask (b.toNat % 8))

/-- WADD (R257). -/
def execWadd (f : RF) (s : State) : Host.Outcome State Fault Refusal :=
  .next (wAddForm f 12 false 1 (fun o => o.enabled none) s)
/-- WADD with an extension (R257). -/
def execWaddExt (f : RF) (x : Ext) (s : State) : Host.Outcome State Fault Refusal :=
  .next (wAddForm f (floatType (some x)) false 3 (fun o => o.enabled (some x)) s)
/-- WADDM (R257). -/
def execWaddm (f : RF) (s : State) : Host.Outcome State Fault Refusal :=
  .next (wAddForm f 12 true 1 (bothMasks none f.b) s)
/-- WADDM with an extension (R257). -/
def execWaddmExt (f : RF) (x : Ext) (s : State) : Host.Outcome State Fault Refusal :=
  .next (wAddForm f 12 true 3 (bothMasks (some x) f.b) s)

/-- Round(W * 2^-149 * T / COUNT) after the flag order; COUNT 0 gives the canonical NaN (R258). -/
def quotientLane (x : WVal) (t : Nat) : Nat :=
  match winSpecial x.fl with
  | some v => Fmt.f32.roundVal .rne false v
  | none =>
    if x.fl.count = 0 then Fmt.f32.nan
    else
      let p : Int := x.w * t
      Fmt.f32.round .rne false (quotient (decide (p < 0)) p.natAbs (-149) x.fl.count 0 64)

/-- WRND, WMEAN and WSCALE: lane results to d, and under .clr the enabled lanes of the accumulator cleared; 8 cycles. -/
def wOutForm (f : RF) (scalar : Bool) (g : Word → WVal → Nat) (x : Option Ext) (s : State) : State :=
  s.afterWindow f.a fun s =>
    s.issue 0 ([Opnd.w f.a f.ta] ++ if scalar then [Opnd.s f.b f.tb] else []) [.w f.a false, .v f.d false] noTrap fun o s =>
      let lanes := o.windowLanes f.a
      let on := o.enabled x
      let out := lanes.map fun l => BitVec.ofNat 32 (g (o.sval f.b) l)
      let clear := f.qf.getLsbD 0
      let left := (lanes.zip on).map fun (p : WVal × Bool) => if clear && p.2 then ⟨0, noFlags⟩ else p.1
      let s := (s.reserve (.w f.a false)).post 8 (.deliver (s.windowDelivery f.a left))
      (s.writeV 8 f.d out on).retire (formWords x)

/-- WRND (R79, R258). -/
def execWrnd (f : RF) (s : State) : Host.Outcome State Fault Refusal :=
  .next (wOutForm f false (fun _ l => l.round) none s)
/-- WRND with an extension (R79, R258). -/
def execWrndExt (f : RF) (x : Ext) (s : State) : Host.Outcome State Fault Refusal :=
  .next (wOutForm f false (fun _ l => l.round) (some x) s)
/-- WMEAN (R258). -/
def execWmean (f : RF) (s : State) : Host.Outcome State Fault Refusal :=
  .next (wOutForm f false (fun _ l => quotientLane l 1) none s)
/-- WMEAN with an extension (R258). -/
def execWmeanExt (f : RF) (x : Ext) (s : State) : Host.Outcome State Fault Refusal :=
  .next (wOutForm f false (fun _ l => quotientLane l 1) (some x) s)
/-- WSCALE (R258). -/
def execWscale (f : RF) (s : State) : Host.Outcome State Fault Refusal :=
  .next (wOutForm f true (fun b l => quotientLane l (b.toNat % 2 ^ 32)) none s)
/-- WSCALE with an extension (R258). -/
def execWscaleExt (f : RF) (x : Ext) (s : State) : Host.Outcome State Fault Refusal :=
  .next (wOutForm f true (fun b l => quotientLane l (b.toNat % 2 ^ 32)) (some x) s)

end Sys2Proof.Machine
end

