-- ==== Sys2Proof/Machine/Groups.lean ====
section
/-! DEFINITION. Ordered and reduction groups: MCST and its sequencer, the members' side, reduction rounds, REDUCE and the
bulk reduction (spec 18 R325-R332; log 7, 12). -/

namespace Sys2Proof.Machine

/-- 150 ns, half the time of an operation whose target is the own hub, in cycles (R322). -/
def hubCycles : Nat := 188

/-- TRAP_INFO of majors 0x33 and 0x35, which name no handle (R351). -/
def noHandle : Word := 0xFFFF

/-! ### Ordered multicast: the sequencer (R326-R328) -/

/-- The sequencer of a group on this device. -/
def State.seq? (s : State) (pid g : Nat) : Option Sequencer :=
  (s.job? pid).bind fun j => j.seqs.find? fun q => q.group == g
def State.modSeq (s : State) (pid g : Nat) (f : Sequencer → Sequencer) : State :=
  s.modJob pid fun j => { j with seqs := updateFirst (fun q => q.group == g) f j.seqs }

/-- code << 56 | number of R326. -/
def mcstWord (code n : Nat) : Word := BitVec.ofNat 64 (code * 2 ^ 56 + n % 2 ^ 32)

/-- A scalar result lands at a strand: in its append, if the name was bound at issue, or in the register (R61, R136). -/
def State.landStatus (s : State) (sid : SId) (app : Booking) (d : Reg) (x : Word) : State :=
  match app with
  | some a => s.fillAppend a (bytesOfNat 8 x.toNat)
  | none => s.deliver { sid := sid, owner := s.ownerOf sid, sregs := [(d, x)], bytes := [], lines := [], win := [] }

/-- The result of an MCST reaches its strand, unless the crew was killed meanwhile. -/
def State.mcstDeliver (s : State) (sid : SId) (serial : Nat) (d : Reg) (x : Word) : State :=
  match s.unapplied.find? fun u => u.sid == sid && u.serial == serial with
  | none => s
  | some u => s.landStatus sid u.app d x

/-- The MCST has taken effect: fences wait for it no longer (R326). -/
def State.mcstOver (s : State) (serial : Nat) : State := { s with unapplied := s.unapplied.filter fun u => u.serial != serial }

/-- The sequencer's reply, and whether the store is over with it (R326; log 12). -/
def State.mcstReply (s : State) (op : McstOp) (code n : Nat) (over_ : Bool) : State :=
  match peerOf op.sid.pos with
  | some dev => s.answerPeer dev op.pid op.sid op.serial 7 (mcstWord code n) (BitVec.ofNat 64 op.d.toNat) (1 + 2 * boolNat over_) 0
  | none =>
    let s := s.mcstDeliver op.sid op.serial op.d (mcstWord code n)
    if over_ then s.mcstOver op.serial else s

/-- Every member has applied the store of an MCST (R326). -/
def State.mcstApplied (s : State) (op : McstOp) : State :=
  match peerOf op.sid.pos with
  | some dev => s.answerPeer dev op.pid op.sid op.serial 7 0 0 2 0
  | none => s.mcstOver op.serial

/-- How many stores a member lags behind. -/
def Sequencer.lag (q : Sequencer) (i : Nat) : Nat := wrap ((q.n : Int) - (q.acked.getD i 0 : Int)) 32

/-- The next store may be stamped: none is stamped more than 64 above what some member has not acknowledged (R327). -/
def Sequencer.room (q : Sequencer) : Bool := (List.range q.acked.length).all fun i => q.lag i < 64

/-- 1 ms, after which a member that has not acknowledged a store has failed (R328). -/
def ackCycles : Nat := 1250000

/-- A stamped store goes to the members of a device (R326). -/
def State.sendApply (s : State) (op : McstOp) (n dev : Nat) : State :=
  if dev = s.device then s.postFree hubCycles (.multicastApply op.pid op.group n op.word op.val)
  else s.hubSend { s.blankMsg dev opApply op.pid with cls := 2, group := op.group, gseq := n, opnd := op.val.toNat + op.word * 2 ^ 64 }

/-- A store is stamped and sent to every member (R326). -/
def State.stamp (s : State) (g : Group) (op : McstOp) : State :=
  match s.seq? op.pid op.group with
  | none => s
  | some q =>
    let n := (q.n + 1) % 2 ^ 32
    let s := s.modSeq op.pid op.group fun q => { q with n := n, stores := q.stores ++ [(n, op, s.cycle)] }
    let s := s.mcstReply op 0 n false
    let s := (s.memberDevs g).foldl (fun (s : State) dev => s.sendApply op n dev) s
    (List.range g.nmemb).foldl (fun (s : State) i => s.post ackCycles (.multicastAckTimeout op.pid op.group i)) s

/-- MCST at the sequencer: GROUP_FAIL from a frozen group, a stamp, or a wait for the window (R326, R327). -/
def State.sequence (s : State) (op : McstOp) : State :=
  match s.group? op.pid op.group, s.seq? op.pid op.group with
  | some g, some q =>
    if q.frozen then s.mcstReply op 1 q.stable true
    else if q.queue.isEmpty && q.room then s.stamp g op
    else s.modSeq op.pid op.group fun q => { q with queue := q.queue ++ [op] }
  | _, _ => s

/-- MCST_SEQUENCE (R326). -/
def execMcstSequence (op : McstOp) (s : State) : Host.Outcome State Fault Refusal := .next (s.sequence op)

/-- Stores that wait are stamped while the window has room. -/
def State.pumpSeq (pid g : Nat) : Nat → State → State
  | 0, s => s
  | fuel + 1, s =>
    match s.group? pid g, s.seq? pid g with
    | some gr, some q =>
      match q.queue with
      | op :: rest =>
        if q.frozen || !q.room then s
        else State.pumpSeq pid g fuel ((s.modSeq pid g fun q => { q with queue := rest }).stamp gr op)
      | [] => s
    | _, _ => s

/-- The device of the failed member of a frozen group: none of its members survives. -/
def State.lostDevice (s : State) (g : Group) (q : Sequencer) : Option Nat := if q.frozen then some (s.memberDev g q.failed) else none

/-- The members that a store still waits for: all, or the survivors of a frozen group. -/
def State.awaited (s : State) (g : Group) (q : Sequencer) : List Nat :=
  (List.range q.acked.length).filter fun i => s.lostDevice g q != some (s.memberDev g i)

/-- A store has reached every awaited member. -/
def State.reached (s : State) (g : Group) (q : Sequencer) (n : Nat) : Bool :=
  (s.awaited g q).all fun i => wrap ((q.acked.getD i 0 : Int) - (n : Int)) 32 < 2 ^ 31

/-- STATUS of R328. -/
def statusWord (i stable : Nat) : Nat := 2 ^ 63 + i * 2 ^ 32 + stable

/-- Writes device memory for the hub; a page's sync bits turn full as by any plain store (R200). -/
def State.hubStore (s : State) (pa : Nat) (bs : List Byte) : State :=
  if pa + bs.length ≤ memSize then s.memStore pa bs true else { s with oob := true }

/-- The mailbox record of a group failure (R328, R359): stable number and H. -/
def State.mailGroup (s : State) (pid g i stable high : Nat) : State :=
  s.mail 0 ⟨mailWord 6 0 0 0 2 pid 0, 0, BitVec.ofNat 64 (g + i * 2 ^ 16 + stable * 2 ^ 32), BitVec.ofNat 64 high⟩

/-- A group failure at this device: STATUS at its members, but the failed one, and the record (R328). -/
def State.groupFailed (s : State) (pid gi i stable high : Nat) : State :=
  match s.group? pid gi with
  | none => s
  | some g =>
    let s := (s.membersOn g s.device).foldl (fun (s : State) k =>
      if k = i || s.memberDev g k == s.memberDev g i then s else s.hubStore ((s.orderedMember g k).1 + 8) (bytesOfNat 8 (statusWord i stable))) s
    s.mailGroup pid gi i stable high

/-- After acknowledgements: stores that every awaited member has are over; a frozen group whose survivors all have H is
reported, at the sequencer's device also where no member is, otherwise waiting stores go on (R326-R328). -/
def State.settleGroup (s : State) (pid gi : Nat) : State :=
  match s.group? pid gi, s.seq? pid gi with
  | some g, some q =>
    let (out, left) := q.stores.partition fun x => s.reached g q x.1
    let s := s.modSeq pid gi fun q => { q with stores := left }
    let s := out.foldl (fun (s : State) x => s.mcstApplied x.2.1) s
    if !q.frozen then s.pumpSeq pid gi 64
    else if !left.isEmpty || q.told then s
    else
      let s := s.modSeq pid gi fun q => { q with told := true }
      let s := if (s.memberDevs g).contains s.device then s else s.mailGroup pid gi q.failed q.stable q.n
      (s.memberDevs g).foldl (fun (s : State) dev =>
        if dev = s.device then s.groupFailed pid gi q.failed q.stable q.n
        else if s.lostDevice g q = some dev then s
        else s.hubSend { s.blankMsg dev opGroupFail pid with
          group := gi, gseq := q.stable, opnd := q.failed + q.n * 2 ^ 64 }) s
  | _, _ => s

/-- Members of a device have acknowledged every store up to `n` (R327). -/
def State.memberAcked (s : State) (pid gi dev n : Nat) : State :=
  match s.group? pid gi with
  | none => s
  | some g =>
    let mine := s.membersOn g dev
    let ahead (p : Nat × Nat) : Nat := if mine.contains p.2 && wrap ((n : Int) - (p.1 : Int)) 32 < 2 ^ 31 then n else p.1
    (s.modSeq pid gi fun q => { q with acked := q.acked.zipIdx.map ahead }).settleGroup pid gi

/-- The sequencer of a frozen group sends to every surviving member each stamped store that the member has not acknowledged
(R328). -/
def State.resendStores (s : State) (pid gi : Nat) : State :=
  match s.group? pid gi, s.seq? pid gi with
  | some g, some q =>
    (s.memberDevs g).foldl (fun (s : State) dev =>
      let alive := if s.memberDev g q.failed = dev then [] else s.membersOn g dev
      q.stores.foldl (fun (s : State) x =>
        if alive.any fun i => 2 ^ 31 ≤ wrap ((q.acked.getD i 0 : Int) - (x.1 : Int)) 32 then s.sendApply x.2.1 x.1 dev else s) s) s
  | _, _ => s

/-- GROUP_FREEZE (R328): the first failure alone changes anything. -/
def State.freezeGroup (s : State) (pid gi i : Nat) : State :=
  match s.seq? pid gi with
  | none => s
  | some q =>
    if q.frozen then s
    else
      let most := (List.range q.acked.length).foldl (fun m k => max m (q.lag k)) 0
      let stable := wrap ((q.n : Int) - (most : Int)) 32
      let s := s.modSeq pid gi fun q => { q with frozen := true, failed := i, stable := stable, queue := [] }
      let s := q.queue.foldl (fun (s : State) op => s.mcstReply op 1 stable true) s
      (s.resendStores pid gi).settleGroup pid gi

/-- MULTICAST_ACK_TIMEOUT (R328): a member has left a store unacknowledged for 1 ms. -/
def execMulticastAckTimeout (pid group member : Nat) (s : State) : Host.Outcome State Fault Refusal :=
  guardPhysical (match s.seq? pid group with
    | none => s
    | some q =>
      if q.stores.any fun x => x.2.2 + ackCycles ≤ s.cycle && 2 ^ 31 ≤ wrap ((q.acked.getD member 0 : Int) - (x.1 : Int)) 32 then
        s.freezeGroup pid group member
      else s)

/-! ### Ordered multicast: the members (R327) -/

/-- This device's members have applied every store up to `n`: the sequencer is told. -/
def State.ackApply (s : State) (g : Group) (pid n : Nat) : State :=
  if g.homeDev = s.device then s.memberAcked pid g.index s.device n
  else s.hubSend { s.blankMsg g.homeDev opAck pid with cls := 1, tag := hubFace, group := g.index, gseq := n, opnd := 2 }

/-- Applies a store at the members of this device: the word and SEQ as one action (R327). -/
def State.applyStore (s : State) (g : Group) (n word : Nat) (val : Word) : State :=
  (s.membersOn g s.device).foldl (fun (s : State) i =>
    let base := (s.orderedMember g i).1
    (s.hubStore (base + 8 * word) (bytesOfNat 8 val.toNat)).hubStore base (bytesOfNat 8 n)) s

/-- Applies what has arrived in sequence, early arrivals included. -/
def State.applyNext (pid : Nat) (g : Group) : Nat → State → State
  | 0, s => s
  | fuel + 1, s =>
    match (s.job? pid).bind fun j => j.members.find? fun m => m.group == g.index with
    | none => s
    | some m =>
      let n := (m.applied + 1) % 2 ^ 32
      match m.early.find? fun x => x.1 == n with
      | none => s
      | some (_, word, val) =>
        let next (x : GroupMember) : GroupMember := { x with applied := n, early := x.early.filter fun y => y.1 != n }
        let s := s.applyStore g n word val
        State.applyNext pid g fuel
          ((s.modJob pid fun j => { j with members := updateFirst (fun x => x.group == g.index) next j.members }).ackApply g pid n)

/-- A store of an ordered group arrives at this device: in sequence it is applied, early it is held, a repeated one is
acknowledged again (R327). -/
def State.multicast (s : State) (pid gi n word : Nat) (val : Word) : State :=
  match s.group? pid gi, (s.job? pid).bind fun j => j.members.find? fun m => m.group == gi with
  | some g, some m =>
    if wrap ((m.applied : Int) - (n : Int)) 32 < 2 ^ 31 then s.ackApply g pid m.applied
    else if m.early.any fun x => x.1 == n then s
    else
      let hold (x : GroupMember) : GroupMember := { x with early := x.early ++ [(n, word, val)] }
      State.applyNext pid g 65 (s.modJob pid fun j => { j with members := updateFirst (fun x => x.group == gi) hold j.members })
  | _, _ => s

/-- MULTICAST_APPLY (R327). -/
def execMulticastApply (pid group n word : Nat) (val : Word) (s : State) : Host.Outcome State Fault Refusal :=
  guardPhysical (s.multicast pid group n word val)

/-! ### MCST (R326) -/

/-- The group of a membership of the running strand's task, checked for its kind; the traps of R326 and R329. -/
def State.withGroup (s : State) (m kind : Nat) (k : Group → State → State) : State :=
  if s.noTask then s.trap causeIllegal noHandle
  else match s.myTask?.bind fun t => (t.memb[m]?).getD none with
    | none => s.trap causeIllegal noHandle
    | some n =>
      match s.group? (s.pidOf s.cur) n with
      | none => s.trap causeGroupKind noHandle
      | some g => if g.kind ≠ kind then s.trap causeGroupKind noHandle else k g s

/-- The store leaves for the sequencer; those of one core's interface reach it in their order, on the own device too (R321, R326). -/
def State.toSequencer (s : State) (g : Group) (op : McstOp) (pc : Word) (app : Booking) : State :=
  let s := { s with unapplied := s.unapplied ++ [({ sid := op.sid, serial := op.serial, group := some op.group, word := op.word, app := app } : Unapplied)] }
  let earlier (i : Instr) : Bool := match i with
    | .mcstSequence x => x.sid.core == op.sid.core
    | _ => false
  if g.homeDev = s.device then s.postOrdered hubCycles earlier (.mcstSequence op)
  else s.sendMsg op.sid.core { s.blankMsg g.homeDev opMcst op.pid with
    group := op.group
    tag := reqTag op.sid op.serial 0
    opnd := op.val.toNat + pc.toNat * 2 ^ 64 + (op.word + op.d.toNat * 2 ^ 16 + boolNat op.rel * 2 ^ 24) * 2 ^ 128 }

/-- An access of the running strand to some bytes that an ordered store will write, here or, as far as it can be told, on a member's device, has
not taken effect (R296, R326). -/
def State.storesMeet (s : State) (g : Group) (word : Nat) : Bool :=
  let places := s.mcstPlaces (s.pidOf s.cur) g.index word
  s.reqs.any fun r => r.ofStrand s.cur && (r.space < 2 || (r.space == 2 && !(s.membersOn g r.peer).isEmpty)) && r.elems.any fun e =>
    e.phase != .done && (r.space == 2 || places.any fun a =>
      if e.phase == .home || e.phase == .parked then !e.host && meets a 8 e.pa e.size
      else (s.placesOf (dieOf s.cur.core) r.pid e.va).any fun p => !p.1 && meets a 8 p.2 e.size)

/-- MCST d, a, #m, #w (R326); it follows the strand's earlier accesses to the bytes it writes (R296). -/
def execMcst (f : RF) (x : Ext) (s : State) : Host.Outcome State Fault Refusal :=
  .next (s.gated 6 fun s => s.withGroup x.immA groupOrdered fun g s =>
    if g.rwords ≤ x.immB then s.trap causeGroupRange noHandle
    else s.withSources noHandle [.s f.a f.ta] [] fun s => s.withDests noHandle [.s f.d false] fun s =>
      if s.holdsLater s.cur || s.storesMeet g x.immB || (x.order ≠ 0 && !s.quiet s.cur) || (g.homeDev ≠ s.device && s.myCore.cannotSend) then s.lend .poll
      else
        let (k, t) := s.nextSerial
        let op : McstOp :=
          { sid := s.cur, pid := s.pidOf s.cur, group := g.index, word := x.immB, val := s.sval f.a, rel := x.order != 0, d := f.d,
            serial := k }
        let (app, t) := ((t.popAll [.s f.a f.ta]).reserve (.s f.d false)).book (.s f.d false)
        (t.toSequencer g op s.me.pc app).retire 3)

/-! ### Reduction rounds at the root (R329-R331) -/

/-- A lane of a round: its window. -/
def roundLane (p : Int × WLane) : WVal := ⟨p.1, p.2⟩

/-- The value of a window rounded once to a type, with the flag order of R79 (R330). -/
def WVal.roundTo (x : WVal) (f : Fmt) : Nat :=
  match winSpecial x.fl with
  | some v => f.roundVal .rne false v
  | none => f.roundSum .rne x.w (-149)

/-- The elements of 512 bytes: 128 of .f32 or 256 of .bf16 (R329). -/
def elementsOf (bf16 : Bool) (bytes : List Byte) : List W32 :=
  if bf16 then (piecesOf 2 256 bytes).map fun b => BitVec.ofNat 32 (natOfBytes b) else lanesOf bytes

/-- The bytes of elements. -/
def elementBytes (bf16 : Bool) (es : List W32) : List Byte :=
  if bf16 then es.flatMap fun w => bytesOfNat 2 w.toNat else bytesOfLanes es

/-- Bytes of an element. -/
def elementSize (bf16 : Bool) : Nat := if bf16 then 2 else 4

/-- Adds a contribution, or a partial sum of several, to the lanes; the blocks that arrived invalid are neither added nor counted
(R329, R331). -/
def Round.add (r : Round) (op : RedOp) : Round :=
  let f : Fmt := if op.bf16 then .bf16 else .f32
  let perBlock := 64 / elementSize op.bf16
  let count (p : Nat × Nat) : Nat := if op.blocks.getLsbD p.2 then p.1 + 1 else p.1
  let sum (p : (Int × WLane) × Nat) : Int × WLane :=
    if op.blocks.getLsbD (p.2 / perBlock) then
      let v := (roundLane p.1).addVal (f.decode (op.lanes.getD p.2 0).toNat)
      (v.w, v.fl)
    else p.1
  let whole (p : (Int × WLane) × (Int × WLane)) : Int × WLane :=
    let v := (roundLane p.1).addWindow (roundLane p.2)
    (v.w, v.fl)
  match op.part with
  | some x => { r with
      got := op.member :: (op.more ++ r.got)
      blocks := (r.blocks.zip x.counts).map fun p => p.1 + p.2
      lanes := (r.lanes.zip x.lanes).map whole }
  | none => { r with got := op.member :: r.got, blocks := r.blocks.zipIdx.map count, lanes := r.lanes.zipIdx.map sum }

/-- The round of a number at this root. -/
def State.round? (s : State) (pid g k : Nat) : Option Round :=
  (s.job? pid).bind fun j => j.rounds.find? fun r => r.group == g && r.round == k
def State.setRound (s : State) (pid : Nat) (r : Round) : State :=
  s.modJob pid fun j => { j with rounds := (j.rounds.filter fun x => !(x.group == r.group && x.round == r.round)) ++ [r] }

/-- A result on its way to the contributor on a device: to the own device as it stands, to another in messages of at most 8
flits (R330, R331; log 12). -/
def State.sendResult (s : State) (dev : Nat) (r : RedResult) (frags : List (List Byte)) : State :=
  if dev = s.device then s.postFree hubCycles (.reduceResultDeliver r)
  else frags.zipIdx.foldl (fun (s : State) p => s.hubSend { s.blankMsg dev opResult r.pid with
    cls := 1, group := r.group, gseq := r.round, opnd := p.2, pay := flitsOf p.1 }) s

/-- The bytes of a lane in a window image: 40 of W and one of flags (log 12). -/
def imageLane (p : Int × WLane) : List Byte :=
  bytesOfNat 40 (wrap p.1 320) ++ [BitVec.ofNat 8 (boolNat p.2.nan + 2 * boolNat p.2.pinf + 4 * boolNat p.2.ninf + 8 * boolNat p.2.ovf)]

/-- A lane from its bytes. -/
def laneOfImage (b : List Byte) : Int × WLane :=
  let fl := (b.getD 40 0).toNat
  (sext (natOfBytes (b.take 40)) 320, ⟨bit fl 0, bit fl 1, bit fl 2, bit fl 3, 0⟩)

/-- A Sleet result's fragments: 12 lanes each, the counts behind the last lanes. -/
def imageFragments (lanes : List (Int × WLane)) (counts : List Nat) : List (List Byte) :=
  let bytes := (piecesOf 12 11 lanes).map fun ls => ls.flatMap imageLane
  match bytes.reverse with
  | last :: rest => (rest.reverse) ++ [last ++ counts.flatMap (bytesOfNat 2)]
  | [] => []

/-- The number of fragments of a Sleet result. -/
def fragmentCount : Nat := 11

/-- The result of a round whose contributions are all there (R330). -/
def State.roundOk (s : State) (pid : Nat) (g : Group) (r : Round) : State :=
  let f : Fmt := if r.bf16 then .bf16 else .f32
  let es := r.lanes.map fun p => BitVec.ofNat 32 ((roundLane p).roundTo f)
  let res : RedResult :=
    { pid := pid, group := g.index, round := r.round, failed := false, missing := 0, lanes := es, image := [], counts := [] }
  let s := s.modJob pid fun j => { j with rounds := j.rounds.filter fun x => !(x.group == g.index && x.round == r.round) }
  (s.memberDevs g).foldl (fun (s : State) dev => s.sendResult dev res [elementBytes r.bf16 es]) s

/-- The members that a round lacks, and their bitmap (R330). -/
def Round.missing (r : Round) (n : Nat) : List Nat := (List.range n).filter fun i => !r.got.contains i
def bitmapBytes (n : Nat) (ms : List Nat) : List Byte :=
  (List.range ((n + 511) / 512 * 64)).map fun i =>
    BitVec.ofNat 8 (((List.range 8).filter fun k => ms.contains (8 * i + k)).map (2 ^ ·)).sum

/-- A reliable round's failure at one member device: REPORT is written, then its contributor receives REDUCE_FAILED (R330). -/
def State.roundFailedAt (s : State) (g : Group) (dev pid k : Nat) (ms : List Nat) : State :=
  let map := bitmapBytes g.nmemb ms
  if dev = s.device then
    (s.hubStore g.report map).post 0 (.reduceResultDeliver
      { pid := pid, group := g.index, round := k, failed := true, missing := ms.length, lanes := [], image := [], counts := [] })
  else
    let parts := piecesOf 512 2 map
    parts.zipIdx.foldl (fun (s : State) p => s.hubSend { s.blankMsg dev opReduceFail pid with
      group := g.index, gseq := k, opnd := ms.length + p.2 * 2 ^ 64 + parts.length * 2 ^ 72, pay := flitsOf p.1 }) s

/-- A reliable round fails (R330): the partial sums are discarded; the round is remembered for late contributions. -/
def State.roundFails (s : State) (pid : Nat) (g : Group) (r : Round) : State :=
  let s := s.setRound pid { r with failed := true, lanes := [] }
  (s.memberDevs g).foldl (fun (s : State) dev => s.roundFailedAt g dev pid r.round (r.missing g.nmemb)) s

/-- A Sleet round ends: the windows and counts go to every member (R331). -/
def State.sleetEnds (s : State) (pid : Nat) (g : Group) (r : Round) : State :=
  let s := s.setRound pid { r with failed := true, lanes := [] }
  let res : RedResult :=
    { pid := pid, group := g.index, round := r.round, failed := false, missing := 0, lanes := [], image := r.lanes, counts := r.blocks }
  (s.memberDevs g).foldl (fun (s : State) dev => s.sendResult dev res (imageFragments r.lanes r.blocks)) s

/-- Cycles of a group's timeout (R325). -/
def Group.timeout (g : Group) : Nat := 1250 * g.tmo

/-- A contribution reaches the root (R329-R331): into its round, whose time runs from the first arrival. -/
def State.combine (s : State) (op : RedOp) : State :=
  match s.group? op.pid op.group with
  | none => s
  | some g =>
    match s.round? op.pid op.group op.round with
    | some r =>
      if (op.member :: op.more).any r.got.contains then s
      else if r.failed then
        if g.sleet then s
        else ((op.member :: op.more).map (s.memberDev g)).eraseDups.foldl (fun (s : State) dev =>
          s.roundFailedAt g dev op.pid op.round (r.missing g.nmemb)) s
      else
        let r := r.add op
        if !g.sleet && r.got.length = g.nmemb then s.roundOk op.pid g r else s.setRound op.pid r
    | none =>
      let blank : Round :=
        { group := op.group, round := op.round, bf16 := op.bf16, since := s.cycle, got := [], blocks := List.replicate 8 0
          lanes := List.replicate (512 / elementSize op.bf16) (0, noFlags), failed := false }
      let r := blank.add op
      if !g.sleet && r.got.length = g.nmemb then s.roundOk op.pid g r
      else (s.setRound op.pid r).post g.timeout (.reduceRoundTimeout op.pid op.group op.round)

/-- REDUCE_COMBINE (R329, R330): a contribution is added exactly; when all have arrived the root sends the result. -/
def execReduceCombine (op : RedOp) (s : State) : Host.Outcome State Fault Refusal := guardPhysical (s.combine op)

/-- REDUCE_ROUND_TIMEOUT (R330, R331). -/
def execReduceRoundTimeout (pid group round : Nat) (s : State) : Host.Outcome State Fault Refusal :=
  guardPhysical (match s.group? pid group, s.round? pid group round with
    | some g, some r => if r.failed then s else if g.sleet then s.sleetEnds pid g r else s.roundFails pid g r
    | _, _ => s)

/-! ### Results at the contributor (R329-R332) -/

/-- The status of a REDUCE (R329). -/
def reduceStatus (code missing blocks : Nat) : Word := BitVec.ofNat 64 (code * 2 ^ 56 + missing % 2 ^ 16 * 2 ^ 8 + blocks % 2 ^ 8)

/-- BLOCKS of a Sleet result: the blocks that some contribution lacks (R331). -/
def lackingBlocks (n : Nat) (counts : List Nat) : Nat :=
  (counts.zipIdx.map fun p => if p.1 = n then 0 else 2 ^ p.2).sum

/-- The lanes of a window image with the counts of their blocks (R331). -/
def imageLanes (image : List (Int × WLane)) (counts : List Nat) : List (Int × WLane) :=
  image.zipIdx.map fun p => (p.1.1, { p.1.2 with count := counts.getD (p.2 / 16) 0 })

/-- A result and its status land at the strand that waits (R329-R331): a failed round leaves d its bytes. -/
def State.roundToStrand (s : State) (sid : SId) (w : RoundWait) (g : Group) (r : RedResult) : State :=
  let blank : Delivery := { sid := sid, owner := s.ownerOf sid, sregs := [], bytes := [], lines := [], win := [] }
  let bytes := elementBytes w.bf16 r.lanes
  let lanes := imageLanes r.image r.counts
  let status :=
    if r.failed then reduceStatus 1 r.missing 0
    else if w.win && lackingBlocks g.nmemb r.counts ≠ 0 then reduceStatus 2 0 (lackingBlocks g.nmemb r.counts)
    else reduceStatus 0 0 0
  let s :=
    if w.win then s.deliver { blank with
      bytes := [(w.base, windowBytes (lanes.map (·.1)), List.replicate 5120 true)]
      lines := List.range' (w.base / 64) 80
      win := lanes.zipIdx.map fun p => (w.d, p.2, p.1.2) }
    else match w.app with
      | some a => s.fillAppend a (if r.failed then (s.owned sid.core (s.ownerOf sid)).window.readBytes w.base 512 else bytes)
      | none => s.deliver { blank with
          bytes := if r.failed then [] else [(w.base, bytes, List.replicate 512 true)]
          lines := List.range' (w.base / 64) 8 }
  s.landStatus sid w.app2 w.a status

/-- A bulk reduction's vector lands, or its entry takes its late fault (R332). -/
def State.roundToEntry (s : State) (e : EntryRef) (w : RoundWait) (r : RedResult) : State :=
  match s.entry? e with
  | none => s
  | some x =>
    let b := (s.core e.core).entryBytes x
    if r.failed then (s.modEntry e fun y => { y with flight := y.flight - 1 }).post 0 (.lateFault e causeReduceFailed)
    else ((s.landLater e (brDslot b) (brDoff b + 512 * w.base) 0 (elementBytes w.bf16 r.lanes)).landed e 1).post 0 (.bulkReduceVector e)

/-- The window image and the counts that fragments make up (R331; log 12). -/
def imageOfParts (parts : List (Nat × List Byte)) : List (Int × WLane) × List Nat :=
  (parts.flatMap fun p => (piecesOf 41 (if p.1 = 10 then 8 else 12) p.2).map laneOfImage,
    (piecesOf 2 8 ((lookupD parts 10 []).drop (41 * 8))).map natOfBytes)

/-- The fragments that this device holds of a round it has yet to take. -/
def Job.earlyParts (j : Job) (g k : Nat) : List (Nat × List Byte) :=
  ((j.early.find? fun x => x.1 == g && x.2.1 == k).map (·.2.2)).getD []

/-- Fragments of a Sleet round that this device has not taken yet are kept for it (R331). -/
def State.keepEarly (s : State) (pid g k : Nat) (parts : List (Nat × List Byte)) : State :=
  s.modJob pid fun j =>
    if k < lookupD j.nextRound g 0 then j
    else
      let all_ := parts.foldl (fun l p => putAt l p.1 p.2) (j.earlyParts g k)
      { j with early := (j.early.filter fun x => !(x.1 == g && x.2.1 == k)) ++ [(g, k, all_)] }

/-- The round is delivered to whatever on this device waits for it; a Sleet round that nothing here has taken is kept. -/
def State.roundLands (s : State) (r : RedResult) : State :=
  match s.group? r.pid r.group, (s.job? r.pid).bind fun j => j.waits.find? fun w => w.group == r.group && w.round == r.round with
  | some g, some w =>
    let s := s.modJob r.pid fun j => { j with waits := j.waits.filter fun x => !(x.group == r.group && x.round == r.round) }
    let s := match w.sid, w.entry with
      | some sid, _ => s.roundToStrand sid w g r
      | none, some e => s.roundToEntry e w r
      | none, none => s
    s
  | some g, none =>
    if r.failed || !g.sleet then s
    else s.keepEarly r.pid r.group r.round ((imageFragments r.image r.counts).zipIdx.map fun p => (p.2, p.1))
  | none, _ => s

/-- REDUCE_RESULT_DELIVER (R329-R332). -/
def execReduceResultDeliver (r : RedResult) (s : State) : Host.Outcome State Fault Refusal := .next (s.roundLands r)

/-- A result message from a root on another device: a reliable result, or a fragment of a window image (log 12). -/
def State.resultArrives (s : State) (pid g k index : Nat) (bytes : List Byte) : State :=
  match (s.job? pid).bind fun j => j.waits.find? fun w => w.group == g && w.round == k with
  | none => if (s.group? pid g).any (·.sleet) then s.keepEarly pid g k [(index, bytes)] else s
  | some w =>
    let blank : RedResult := { pid := pid, group := g, round := k, failed := false, missing := 0, lanes := [], image := [], counts := [] }
    if !w.win then s.post 0 (.reduceResultDeliver { blank with lanes := elementsOf w.bf16 bytes })
    else
      let parts := putAt w.parts index bytes
      let s := s.modJob pid fun j => { j with waits := updateFirst (fun x => x.group == g && x.round == k) (fun x => { x with parts := parts }) j.waits }
      if parts.length < fragmentCount then s
      else
        let (lanes, counts) := imageOfParts parts
        s.post 0 (.reduceResultDeliver { blank with image := lanes, counts := counts })

/-! ### REDUCE and the bulk reduction (R329, R332) -/

/-- Rounds of a group that this device has outstanding (R329). -/
def State.roundsOut (s : State) (pid g : Nat) : Nat :=
  ((s.job? pid).map fun j => (j.waits.filter fun w => w.group == g).length).getD 0

/-- The device's next round of a group (R329). -/
def State.takeRound (s : State) (pid g : Nat) : Nat × State :=
  match s.job? pid with
  | none => (0, s)
  | some j =>
    let k := lookupD j.nextRound g 0
    (k, s.modJob pid fun j => { j with nextRound := putAt j.nextRound g (k + 1) })

/-- The position under which the fabric unit of a core sends its contributions (log 12). -/
def fabricPos : Nat := 103

/-- A contribution leaves for the root: reliable in class 1, or as Sleet with a budget of TMO (R320, R329, R331). TAG names the strand, or
the unit, that it comes from (R317). -/
def State.contribute (s : State) (sid : SId) (pid : Nat) (g : Group) (k : Nat) (bf16 : Bool) (bytes : List Byte) (serial : Nat) : State :=
  if g.homeDev = s.device then
    s.postFree hubCycles (.reduceCombine
      { pid := pid, group := g.index, round := k, member := ((s.membersOn g s.device).headD 0), bf16 := bf16
        lanes := elementsOf bf16 bytes, blocks := BitVec.allOnes 8 })
  else s.sendMsg sid.core { s.blankMsg g.homeDev opContribution pid with
    cls := if g.sleet then 3 else 1
    pseq := serial
    budget := if g.sleet then min (g.tmo * 1000 / 64) 65535 else 0
    group := g.index
    gseq := k
    tag := reqTag sid serial 0
    opnd := boolNat bf16
    pay := flitsOf bytes }

/-- REDUCE d, a, b, #m (R329). -/
def execReduce (f : RF) (x : Ext) (s : State) : Host.Outcome State Fault Refusal :=
  .next (s.gated 7 fun s => s.withGroup x.immA groupReduction fun g s =>
    let bf16 := x.type == 11
    let pid := s.pidOf s.cur
    let d : Opnd := if g.sleet then .w f.d false else .v f.d false
    let go := fun (s : State) =>
      s.withSources noHandle [.v f.b f.tb] [d] fun s => s.withDests noHandle [d, .s f.a false] fun s =>
        if 8 ≤ s.roundsOut pid g.index || (g.homeDev ≠ s.device && s.myCore.cannotSend) then s.lend .poll
        else
          let (n, t) := s.nextSerial
          let (k, t) := t.takeRound pid g.index
          let t := t.popAll [.v f.b f.tb]
          let (app, t) := if g.sleet then (none, t) else t.book d
          let (app2, t) := t.book (.s f.a false)
          let parts := ((t.job? pid).map fun j => j.earlyParts g.index k).getD []
          let wait : RoundWait :=
            { group := g.index, round := k, sid := some s.cur, entry := none, d := f.d.toNat, a := f.a, base := (s.me.place d).1
              bf16 := bf16, pc := s.me.pc, win := g.sleet, parts := parts, app := app, app2 := app2 }
          let t := t.modJob pid fun j => { j with waits := j.waits ++ [wait], early := j.early.filter fun x => !(x.1 == g.index && x.2.1 == k) }
          let t := if parts.length < fragmentCount then t
            else
              let (lanes, counts) := imageOfParts parts
              t.post 0 (.reduceResultDeliver
                { pid := pid, group := g.index, round := k, failed := false, missing := 0, lanes := [], image := lanes, counts := counts })
          let t := (t.reserve d).reserve (.s f.a false)
          (t.contribute s.cur pid g k bf16 (s.vbytes f.b) n).retire 3
    let check := fun (s : State) =>
      if g.sleet && (7 < f.d.toNat || bf16) then s.trap causeGroupKind noHandle
      else if g.sleet then s.afterWindow f.d go else go s
    if g.sleet then s.gated 8 check else check s)

/-- BULK_REDUCE_VECTOR (R332): the next source vector whose granules are full is sent as a round, while the device has fewer
than 8 of the group outstanding. -/
def execBulkReduceVector (e : EntryRef) (s : State) : Host.Outcome State Fault Refusal :=
  .next (match s.entry? e, e.owner with
    | some x, .crew t =>
      let b := (s.core e.core).entryBytes x
      match x.todo, s.memberGroup x.pid t (brMemb b) with
      | v :: rest, some g =>
        if x.stage ≠ 1 then s
        else if 8 ≤ s.roundsOut x.pid g.index || (g.homeDev ≠ s.device && (s.core e.core).cannotSend) then
          s.post 64 (.bulkReduceVector e)
        else (s.readSource e [] (sourcePlaces (brSslot b) (brSoff b + 512 * v) 512 0) 512 fun bytes s =>
            let (n, s) := s.nextSerial
            let (k, s) := s.takeRound x.pid g.index
            let wait : RoundWait :=
              { group := g.index, round := k, sid := none, entry := some e, d := 0, a := 0, base := v, bf16 := brBf16 b, pc := 0
                win := false, parts := [] }
            let s := s.modJob x.pid fun j => { j with waits := j.waits ++ [wait] }
            let s := s.modEntry e fun y => { y with todo := rest, flight := y.flight + 1 }
            some ((s.contribute ⟨e.core, fabricPos⟩ x.pid g k (brBf16 b) bytes n).post 0 (.bulkReduceVector e))).getD
          (s.post 64 (.bulkReduceVector e))
      | _, _ => s
    | _, _ => s)

end Sys2Proof.Machine
end

