-- ==== Sys2Proof/Machine/Fabric.lean ====
section
/-! DEFINITION. The fabric: routes and detours, links, injection, retry and arrival, the Sleet class, SLSEND and DEVNUM
(spec 18 R313-R324, R333; 21 R363; log 12). -/

namespace Sys2Proof.Machine

/-! ### Routes (R313-R316) -/

/-- Extents of X and Y (R316). -/
def State.xext (s : State) : Nat := field s.fabric.shape.toNat 16 5 + 1
def State.yext (s : State) : Nat := field s.fabric.shape.toNat 21 5 + 1

/-- A number names a device of the system (R313). -/
def State.deviceExists (s : State) (n : Nat) : Bool := n < 2 ^ 13 && devX n < s.xext && devY n < s.yext

/-- The way round a torus: + when it is no longer (R315). -/
def shorterWay (src dst ext : Nat) : Bool := (dst + ext - src) % ext ≤ ext / 2

/-- The port of the next hop in dimension order; none at the destination (R314, R315). -/
def State.routePort (s : State) (dst : Nat) : Option Nat :=
  let me := s.device
  if devX me ≠ devX dst then some (if shorterWay (devX me) (devX dst) s.xext then 4 else 5)
  else if devY me ≠ devY dst then some (if shorterWay (devY me) (devY dst) s.yext then 6 else 7)
  else if devA me ≠ devA dst then some (if devA me < devA dst then 0 else 1)
  else if devB me ≠ devB dst then some (if devB me = 0 then 2 else 3)
  else none

/-- The port is connected (R314). -/
def State.connected (s : State) (p : Nat) : Bool :=
  match p with
  | 0 => devA s.device < 3
  | 1 => 0 < devA s.device
  | 2 | 3 => true
  | 4 | 5 => 1 < s.xext
  | _ => 1 < s.yext

/-- The port carries messages. -/
def State.portUp (s : State) (p : Nat) : Bool := s.connected p && !s.fabric.linkDown.getLsbD p && !s.fabric.retrain.getLsbD p

/-- The port of a detour: through B, or through A when that link is down too (R316). -/
def State.detourPort (s : State) : Option Nat :=
  let pb := if devB s.device = 0 then 2 else 3
  let pa := if devA s.device < 3 then 0 else 1
  if s.portUp pb then some pb else if s.portUp pa then some pa else none

/-! ### The switch (R315, R316, R319, R323) -/

def State.modFabric (s : State) (f : Fabric → Fabric) : State := { s with fabric := f s.fabric }

/-- Adds to SLEETDROP, which holds at its greatest value (R319). -/
def State.countSleet (s : State) (n : Nat) : State :=
  s.modFabric fun f => { f with sleetDrop := BitVec.ofNat 32 (min (f.sleetDrop.toNat + n) (2 ^ 32 - 1)) }

/-- Adds to POISON (R319). -/
def State.countPoison (s : State) : State :=
  s.modFabric fun f => { f with poison := BitVec.ofNat 32 (min (f.poison.toNat + 1) (2 ^ 32 - 1)) }

/-- The flits of a message. -/
def flitCount (m : Msg) : Nat := 1 + m.pay.length

/-- Removes the first hop that satisfies a test. -/
def dropHop (p : Hop → Bool) : List Hop → List Hop
  | [] => []
  | h :: hs => if p h then hs else h :: dropHop p hs

/-- The hop stands in the switch. -/
def Hop.waiting (h : Hop) : Bool := h.port.isNone && !h.held

/-- The message has crossed coordinate 0 in the torus dimension of a port when it leaves on it: the second virtual channel (R315). -/
def State.crossed (s : State) (m : Msg) (p : Nat) : Bool :=
  let me := s.device
  match p with
  | 4 => (devX me + 1) % s.xext < devX m.src
  | 5 => devX m.src < (devX me + s.xext - 1) % s.xext
  | 6 => (devY me + 1) % s.yext < devY m.src
  | 7 => devY m.src < (devY me + s.yext - 1) % s.yext
  | _ => false

/-- A payload flit that is still held when the budget runs out becomes a zero flit; how long each is held is open (R323; log 2). -/
def State.lateFlits (s : State) (h : Hop) : State :=
  (List.range h.msg.pay.length).foldl (fun (s : State) i =>
    let (n, s) := s.fresh
    if h.since + 80 * h.msg.budget < s.cycle + n % 65 then s.post (n % 65) (.sleetBudgetExpire h.id (1 + i)) else s) s

/-- The hop leaves on a port: its flits are sent, and the link's answer is to come; a Sleet message's budget shrinks by its
time here (R319, R323). -/
def State.leaveOn (s : State) (h : Hop) (p detours : Nat) : State :=
  let m := { h.msg with
    budget := if h.msg.cls = 3 then h.msg.budget - (s.cycle - h.since) / 80 else h.msg.budget
    detours := detours }
  let vc := if detours ≠ h.detours then 2 else boolNat (s.crossed m p)
  let s := s.modFabric fun f => { f with
    hops := updateFirst (·.id == h.id) (fun x => { x with msg := m, port := some p, detours := detours, replays := 0, vc := vc }) f.hops }
  let s := if m.cls = 3 then s.lateFlits h else s
  let (k, s) := s.fresh
  s.post (64 + k / 2 % 64) (.linkReplay p (k % 2 == 0))

/-- The replay buffer of a port has room for a message: 256 flits that the link has not acknowledged (R319). -/
def State.replayRoom (s : State) (p : Nat) (m : Msg) : Bool :=
  ((s.fabric.hops.filter fun h => h.port == some p).map fun h => flitCount h.msg).sum + flitCount m ≤ 256

/-! ### Contributions that meet at a switch (R329, R331; log 12) -/

/-- A contribution as a partial sum: the blocks that arrived invalid are neither added nor counted (R331). -/
def asPart (m : Msg) : PartSum :=
  match m.part with
  | some p => p
  | none =>
    let bf16 := bit m.opnd 0
    let f : Fmt := if bf16 then .bf16 else .f32
    let on (i : Nat) : Bool := ((m.pay[i]?).map (·.1)).getD false
    let lane (p : W32 × Nat) : Int × WLane :=
      if on (p.2 / (64 / elementSize bf16)) then
        let v := (roundLane (0, noFlags)).addVal (f.decode p.1.toNat)
        (v.w, v.fl)
      else (0, noFlags)
    { devs := [m.src], acks := if m.cls = 3 then [] else [(m.src, seriesFace m, m.pseq)]
      counts := (List.range 8).map fun i => boolNat (on i)
      lanes := (elementsOf bf16 (bytesOfFlits m.pay)).zipIdx.map lane }

/-- The exact sum of two partial sums (R77, R78). -/
def plusPart (x y : PartSum) : PartSum :=
  let lane (p : (Int × WLane) × (Int × WLane)) : Int × WLane :=
    let v := (roundLane p.1).addWindow (roundLane p.2)
    (v.w, v.fl)
  { devs := x.devs ++ y.devs, acks := x.acks ++ y.acks, counts := (x.counts.zip y.counts).map fun p => p.1 + p.2
    lanes := (x.lanes.zip y.lanes).map lane }

/-- Two waiting contributions of one round that are on their way to its root, neither of them a resend. -/
def Hop.meets (h x : Hop) : Bool :=
  h.msg.op == opContribution && x.msg.op == opContribution && h.msg.cls == x.msg.cls && h.msg.pid == x.msg.pid &&
    h.msg.group == x.msg.group && h.msg.gseq == x.msg.gseq && h.msg.dst == x.msg.dst && x.port.isNone && !h.msg.again && !x.msg.again &&
    !h.msg.poisoned && !x.msg.poisoned

/-- The contributions of a round that stand in the switch with `h` become one partial sum in its place, with what is left of the
smallest budget (R329, R331). -/
def State.meet (s : State) (h : Hop) : Hop × State :=
  let group := s.fabric.hops.filter fun x => h.meets x
  if group.length < 2 then (h, s)
  else
    let left (x : Hop) : Nat := x.msg.budget - (s.cycle - x.since) / 80
    let parts := group.map fun x => asPart x.msg
    let sum := (parts.drop 1).foldl plusPart (parts.headD (asPart h.msg))
    let m := { h.msg with pay := [], part := some sum, budget := group.foldl (fun b x => min b (left x)) (left h) }
    let h' := { h with msg := m, since := s.cycle, held := false }
    (h', s.modFabric fun f => { f with
      hops := (f.hops.filter fun x => x.id == h.id || !h.meets x).map fun x => if x.id == h.id then h' else x })

/-- SWITCH_FORWARD (R315, R316): the next message that waits goes to this device, or one hop on its way, by a detour where
the link is down; one that cannot is dropped here, and its source resends it or gives it up (R319). Contributions of one round that
wait here together go on as their sum (R329). -/
def execSwitchForward (s : State) : Host.Outcome State Fault Refusal :=
  .next (match s.fabric.hops.find? Hop.waiting with
    | none => s
    | some h =>
      let drop (s : State) : State := s.modFabric fun f => { f with hops := f.hops.filter fun x => x.id != h.id }
      match s.routePort h.msg.dst with
      | none => (drop s).post 0 (.messageArrive h.msg)
      | some p =>
        let (h, s) := if h.msg.cls = 1 then s.meet h else (h, s)
        let lost := if h.msg.cls = 3 then (drop s).countSleet (flitCount h.msg) else drop s
        let go := fun (q detours : Nat) => if s.replayRoom q h.msg then s.leaveOn h q detours else s.postFree 64 .switchForward
        if s.portUp p then go p h.detours
        else if 2 ≤ h.detours then lost
        else match s.detourPort with
          | some q => go q (h.detours + 1)
          | none => lost)

/-- LINK_REPLAY (R319): the link's answer for the oldest message on a port: it is through, or it is sent again; after 16
failures the link is down and its messages go back to the switch. A Sleet message, once sent, is never sent again (R323). -/
def execLinkReplay (port : Nat) (good : Bool) (s : State) : Host.Outcome State Fault Refusal :=
  let on (h : Hop) : Bool := h.port == some port
  .next (match s.fabric.hops.find? on with
    | none => s
    | some h =>
      if good || h.msg.cls = 3 then s.modFabric fun f => { f with hops := dropHop on f.hops }
      else if 16 ≤ h.replays then
        let back (x : Hop) : Hop := if on x then { x with port := none, replays := 0 } else x
        let again := s.fabric.hops.filter fun x => !(on x && x.msg.cls == 3)
        let n := (again.filter on).length
        let s := s.modFabric fun f => { f with hops := again.map back, linkDown := f.linkDown ||| (1#8 <<< port) }
        (List.range n).foldl (fun (s : State) _ => s.post 0 .switchForward) s
      else
        let s := s.modFabric fun f => { f with hops := updateFirst on (fun x => { x with replays := x.replays + 1 }) f.hops }
        let (k, s) := s.fresh
        s.post (k / 2 % 64) (.linkReplay port (k % 2 == 0)))

/-- A link goes out of service; what is on it finishes (R316). -/
def State.linkOut (s : State) (port : Nat) : State :=
  (s.withdraw (· == .linkRetrainDone port)).modFabric fun f =>
    { f with linkDown := f.linkDown ||| (1#8 <<< port), retrain := f.retrain &&& ~~~(1#8 <<< port) }

/-- LINK_STATE_DOWN (R316): the link is out of service. -/
def execLinkStateDown (port : Nat) (s : State) : Host.Outcome State Fault Refusal := .next (s.linkOut port)

/-- 200 µs in cycles (R316). -/
def retrainCycles : Nat := 250000

/-- DOWN takes the 0 that was written, and the link retrains (R5, R316). -/
def State.linkRetrain (s : State) (port : Nat) : State :=
  if s.fabric.linkDown.getLsbD port then
    (s.modFabric fun f => { f with linkDown := f.linkDown &&& ~~~(1#8 <<< port), retrain := f.retrain ||| (1#8 <<< port) }).postFree
      retrainCycles (.linkRetrainDone port)
  else s

/-- LINK_STATE_RETRAIN (R5, R316). -/
def execLinkStateRetrain (port : Nat) (s : State) : Host.Outcome State Fault Refusal := .next (s.linkRetrain port)

/-- LINK_RETRAIN_DONE (R316): the link is back in service. -/
def execLinkRetrainDone (port : Nat) (s : State) : Host.Outcome State Fault Refusal :=
  .next (s.modFabric fun f => { f with retrain := f.retrain &&& ~~~(1#8 <<< port) })

/-- FAB_COUNT as read (R319). -/
def State.fabCount (s : State) : Word := s.fabric.sleetDrop ++ s.fabric.poison

/-- Clears both counters of FAB_COUNT, as a read does (R319). -/
def State.clearFabCount (s : State) : State := s.modFabric fun f => { f with sleetDrop := 0, poison := 0 }

/-- FAB_COUNT_READ (R5, R319): what the read leaves behind. -/
def execFabCountRead (s : State) : Host.Outcome State Fault Refusal := .next s.clearFabCount

/-! ### Cuts: markers and their end (R373, R374) -/

/-- A marker is enqueued at the tail of a channel whose home is here; a task with markers on all its inputs records (R373). -/
def State.markChannel (s : State) (pid n : Nat) : State :=
  match s.chan? pid n with
  | none => s
  | some ch =>
    (s.modChan pid n fun c => { c with marker := some (c.marker.getD c.count) }).post 0 (.cutTaskRecord pid ch.ctask)

/-- INFO of the cut-done message, and DONE, once markers have arrived on every connected port and every reliable message
of the device is acknowledged (R374). -/
def State.checkCut (s : State) : State :=
  let c := s.cut
  if c.active && c.sent && !c.done && (List.range 8).all (fun p => !s.connected p || c.ports.getLsbD p) &&
      s.fabric.kept.isEmpty && s.cores.all (fun c => c.kept.isEmpty) then
    ({ s with cut := { c with done := true } }).mail 0 ⟨mailWord 8 0 0 0 2 0 0, 0, c.epoch.setWidth 64, 0⟩
  else s

/-! ### Injection and retry (R318, R319) -/

/-- The messages that an interface keeps. -/
def State.keptBy (s : State) (face : Nat) : List (Msg × Nat × Nat) := if face = hubFace then s.fabric.kept else (s.core face).kept
def State.setKept (s : State) (face : Nat) (l : List (Msg × Nat × Nat)) : State :=
  if face = hubFace then s.modFabric fun f => { f with kept := l } else s.modCore face fun c => { c with kept := l }

/-- A spilled message takes the place in the injection buffer that has become free (R318). -/
def State.refill (s : State) (core : Nat) : State :=
  match (s.core core).spilled with
  | [] => s
  | m :: rest =>
    if 16 ≤ (s.core core).inject.length then s else (s.modCore core fun c => { c with spilled := rest }).sendMsg core m

/-- A Sleet contribution stands in the switch for a while, within its budget, to be summed with others of its round (R331). -/
def State.holdPart (s : State) (m : Msg) : State :=
  (s.enterSwitch m true).postFree (80 * m.budget) (.sleetPartialForward m.pid m.group m.gseq)

/-- MESSAGE_INJECT (R318): the oldest whole message of a core's buffer leaves; a reliable one gets its pair number and is kept
for retry, an SLSEND has taken effect (R319, R321, R324). -/
def execMessageInject (core : Nat) (s : State) : Host.Outcome State Fault Refusal :=
  .next (
    let c := s.core core
    if c.niBusy then s
    else match c.inject with
      | [] => s.refill core
      | m :: rest =>
        let (n, next) := nextPseq c.pairNext (pairKey m)
        let s := (s.modCore core fun c => { c with inject := rest }).refill core
        if m.cls = 3 then
          let s : State := { s with unapplied := s.unapplied.filter fun u => u.serial != m.pseq }
          if m.op = opContribution then s.holdPart m else s.enterSwitch m false
        else
          let m := { m with pseq := n, series := c.series }
          let s := s.modCore core fun c => { c with pairNext := next, kept := c.kept ++ [(m, s.cycle, 0)] }
          (s.post resendCycles (resendOf core m)).enterSwitch m false)

/-- A scalar result never comes: its register is left empty, or its append is dropped (R136, R355). -/
def State.loseStatus (s : State) (sid : SId) (app : Booking) (d : Reg) : State :=
  match app with
  | some a => s.dropReq a
  | none => s.modStrand sid fun st => st.lose d

/-- The late fault of a lost reliable message goes to its originator (R319, R363). -/
def State.failMsg (s : State) (m : Msg) (code : Nat) : State :=
  let sid : SId := ⟨field m.tag 0 16, field m.tag 16 8⟩
  let fault (pc : Word) (reg : Nat) : LateFault := ⟨code, pc, reg, false, false, 0, 0⟩
  if sid.core = hubFace || m.op = opReply then
    match m.cls, s.group? m.pid m.group with
    | 2, some g => s.freezeGroup m.pid m.group ((s.membersOn g m.dst).headD 0)
    | _, _ => s
  else if m.op ≤ opAtomic then
    match s.req? (tagReq m.tag) with
    | some r => s.peerEnd r (tagElem m.tag) [] code
    | none => s
  else if m.op = opChannel || m.op = opBarrier then
    if (s.strand sid).awaits (tagReq m.tag) then
      (s.modStrand sid fun st => { st with wait := none }).lateFault sid (fault (s.strand sid).pc 0)
    else s
  else if m.op = opMcst then
    match s.unapplied.find? fun u => u.sid == sid && u.serial == tagReq m.tag with
    | none => s
    | some u =>
      let d := field m.opnd 144 5
      ((s.mcstOver (tagReq m.tag)).loseStatus sid u.app (BitVec.ofNat 5 d)).lateFault sid (fault (BitVec.ofNat 64 (field m.opnd 64 64)) d)
  else if m.op = opContribution then
    match (s.job? m.pid).bind fun j => j.waits.find? fun w => w.group == m.group && w.round == m.gseq with
    | none => s
    | some w =>
      let s := s.modJob m.pid fun j => { j with waits := j.waits.filter fun x => !(x.group == m.group && x.round == m.gseq) }
      match w.sid, w.entry with
      | some x, _ =>
        let s := s.loseStatus x w.app2 w.a
        let s := match w.app with
          | some a => s.dropReq a
          | none => s.modOwned x.core (s.ownerOf x) fun c => c.loseLines (w.base / 64) (if w.win then 80 else 8)
        s.lateFault x (fault w.pc w.d)
      | none, some e => (s.modEntry e fun y => { y with flight := y.flight - 1 }).post 0 (.lateFault e code)
      | none, none => s
  else s

/-- END_TO_END_RESEND (R319): without an acknowledgement the message is sent again; after three resends it is given up. -/
def execEndToEndResend (core dst pseq : Nat) (s : State) : Host.Outcome State Fault Refusal :=
  let face := core % 2 ^ 16
  let cls := core / 2 ^ 16
  let mine (x : Msg × Nat × Nat) : Bool := x.1.dst == dst && x.1.cls == cls && x.1.pseq == pseq
  guardPhysical (match (s.keptBy face).find? mine with
    | none => s
    | some (m, _, n) =>
      if n < 3 then
        let s := s.setKept face (updateFirst mine (fun x => (x.1, s.cycle, x.2.2 + 1)) (s.keptBy face))
        (s.post resendCycles (.endToEndResend core dst pseq)).enterSwitch { m with again := true } false
      else ((s.setKept face ((s.keptBy face).filter fun x => !mine x)).failMsg m causeUnreachable).checkCut)

/-- ACKNOWLEDGE_ARRIVE (R319, R327): the kept copy is dropped. In class 2 the number stands for the job, the group and the
store, and the sequencer learns what the device has applied (log 12). -/
def execAcknowledgeArrive (core dst pseq : Nat) (s : State) : Host.Outcome State Fault Refusal :=
  let face := core % 2 ^ 16
  let cls := core / 2 ^ 16
  guardPhysical (
    if cls = 2 then
      let n := field pseq 0 32
      let group := field pseq 32 8
      let pid := pseq / 2 ^ 40
      let over_ (x : Msg × Nat × Nat) : Bool :=
        x.1.cls == 2 && x.1.dst == dst && x.1.pid == pid && x.1.group == group && wrap ((n : Int) - (x.1.gseq : Int)) 32 < 2 ^ 31
      ((s.setKept face ((s.keptBy face).filter fun x => !over_ x)).memberAcked pid group dst n).checkCut
    else (s.setKept face ((s.keptBy face).filter fun x => !(x.1.dst == dst && x.1.cls == cls && x.1.pseq == pseq))).checkCut)

/-- What a reset of a core's network interface does as one action (R363): a message whose flits are leaving, one a cycle since its
injection, ends in a poison tail at its receiver, the buffer and the kept messages are discarded, their originators take Interface Reset, and the pair numbers
start again. -/
def State.resetFace (s : State) (core : Nat) : State :=
  let c := s.core core
  let waiting := c.inject ++ c.spilled
  let lost := (waiting.filter fun m => m.cls != 3) ++ c.kept.map (·.1)
  let sleet := waiting.filter fun m => m.cls == 3
  let leaving (h : Hop) : Bool :=
    h.msg.src == s.device && h.msg.part.isNone && faceOf h.msg == core && s.cycle < h.since + flitCount h.msg
  let cut (h : Hop) : Hop := if leaving h then { h with msg := { h.msg with poisoned := true } } else h
  let s := s.modFabric fun f => { f with hops := f.hops.map cut }
  let s := s.modCore core fun c => { c with inject := [], spilled := [], kept := [], pairNext := [], niBusy := true, series := c.series + 1 }
  let s := { s with unapplied := s.unapplied.filter fun u => !sleet.any fun m => m.pseq == u.serial }
  let s := s.withdraw fun e => match e with
    | .endToEndResend f _ _ => f % 2 ^ 16 == core
    | .messageInject k => k == core
    | .acknowledgeArrive f _ _ => f == core || f == core + 2 ^ 16
    | _ => false
  (lost.foldl (fun (s : State) m => s.failMsg m causeInterfaceReset) s).postFree 256 (.niResetDone core)

/-! ### Arrival (R317, R321, R322) -/

/-- Two messages belong to one series of a pair. -/
def samePair (a b : Msg) : Bool := a.src == b.src && seriesFace a == seriesFace b

/-- A request of another device: an access that the stations of this device translate, or one to a slot (R177, R322). The spec says only
'the peer's stations'; the model takes those of the die of the originating core's number (log 12). -/
def State.peerRequest (s : State) (m : Msg) : State :=
  let (id, s) := s.nextSerial
  let word := field m.opnd 128 64
  let op := field word 8 8
  let kind : ReqKind := match field word 0 8 with
    | 1 => .store
    | 2 => .atomic op
    | 3 => .lock op (bit word 16)
    | 4 => .ldsync
    | 5 => .stsync
    | 6 => .waitne
    | _ => .load
  let size := field word 24 8
  let pay := bytesOfFlits m.pay
  let slot := bit m.addr 63
  let sid := peerSid m.src m.tag
  let wide := kind == .atomic 8
  let room := if slot then 2 ^ 22 else 2 ^ 58
  let va := m.addr % room
  let places := if bit word 18 then (List.range 4).map fun i => (va + i * field m.opnd 0 64) % room else [va]
  s.addReq { s.reqOf sid kind id with
    pid := m.pid
    space := if slot then 3 else 0
    peer := s.device
    rcore := field m.addr 22 8
    fenced := fencesOf (field word 36 4)
    type := field word 32 4
    order := field word 40 3
    scope := field word 44 4
    counted := bit word 17
    limit := field word 48 16
    x := if bit word 18 then 0 else BitVec.ofNat 64 (field m.opnd 0 64)
    y := BitVec.ofNat 64 (field m.opnd 64 64)
    xs := if wide then pay.take 32 else []
    ys := if wide then (pay.drop 32).take 33 else []
    elems := places.map fun a => elemAt a size 0 0 false (if wide then [] else pay.take size)
    ack := if m.op = opWrite then some m.pseq else none
    source := some (m.src, m.tag) }

/-- A reply reaches the request or the waiting strand it answers (R322; log 12). -/
def State.takeReply (s : State) (m : Msg) : State :=
  let code := field m.opnd 128 16
  let flags := field m.opnd 144 32
  let x := BitVec.ofNat 64 (field m.opnd 0 64)
  let y := BitVec.ofNat 64 (field m.opnd 64 64)
  let sid : SId := ⟨field m.tag 0 16, field m.tag 16 8⟩
  let n := tagReq m.tag
  match field m.opnd 176 16 with
  | 4 =>
    if code ≠ 0 then (if (s.strand sid).awaits n then s.trapOf sid code else s)
    else
      let s := if bit flags 13 then s.modChan m.pid x.toNat fun c => { c with closedP := true } else s
      let regs := [(BitVec.ofNat 5 (flags / 2 ^ 3), x), (BitVec.ofNat 5 (flags / 2 ^ 8), y)].take (field flags 1 2)
      s.takeChannelReply ⟨sid, n, bit flags 0, regs⟩
  | 5 => s.takeBarrierReply
      { sid := sid, memb := field flags 3 2, refused := bit flags 0, phase := x.toNat, arrival := bit flags 1, ends := bit flags 2
        d := BitVec.ofNat 5 (flags / 2 ^ 5), serial := n }
  | 8 => s.cancelled sid n flags code
  | 9 => s.attemptFailed n (bit flags 0)
  | 7 =>
    let s := if bit flags 0 then s.mcstDeliver sid n (BitVec.ofNat 5 y.toNat) x else s
    if bit flags 1 then s.mcstOver n else s
  | _ => match (s.req? n).bind fun r => (r.elems[tagElem m.tag]?).map fun e => (r, e) with
    | none => s
    | some (r, e) =>
      if e.phase != .home then s
      else s.peerEnd r (tagElem m.tag) ((bytesOfFlits m.pay).take (if r.kind == .atomic 8 then 33 else e.size)) code

/-- A reduction failure from a root (R330): this device's hub writes its part of REPORT, and after the last part every
contributor here receives REDUCE_FAILED. -/
def State.reduceFailed (s : State) (m : Msg) : State :=
  match s.group? m.pid m.group with
  | none => s
  | some g =>
    let index := field m.opnd 64 8
    let s := s.hubStore (g.report + 512 * index) (bytesOfFlits m.pay)
    if index + 1 = field m.opnd 72 8 then
      s.post 0 (.reduceResultDeliver
        { pid := m.pid, group := m.group, round := m.gseq, failed := true, missing := field m.opnd 0 64, lanes := [], image := []
          counts := [] })
    else s

/-- A contribution arrives at this root (R329, R331). -/
def State.contributionArrives (s : State) (m : Msg) : State :=
  match s.group? m.pid m.group with
  | none => s
  | some g =>
    match s.membersOn g m.src with
    | [] => s
    | i :: _ =>
      let bf16 := bit m.opnd 0
      let others := ((m.part.map (·.devs)).getD []).filter (· != m.src)
      let blocks := (m.pay.zipIdx.map fun p => if p.1.1 then 2 ^ p.2 else 0).sum
      s.post 0 (.reduceCombine
        { pid := m.pid, group := m.group, round := m.gseq, member := i, bf16 := bf16, lanes := elementsOf bf16 (bytesOfFlits m.pay)
          blocks := BitVec.ofNat 8 blocks, part := m.part, more := others.flatMap fun d => (s.membersOn g d).take 1 })

/-- What a message does at its destination (R317). -/
def State.actOn (s : State) (m : Msg) : State :=
  let sid := peerSid m.src m.tag
  let n := tagReq m.tag
  let word := field m.opnd 128 64
  let s := if m.op = opChannel && field word 0 8 = 5 then s.markChannel m.pid m.addr else s
  if (m.op = opAtomic || m.op = opChannel || m.op = opBarrier) && bit word 7 then s.cancelHere m sid n (field word 16 16)
  else match m.op with
  | 0 | 1 | 2 => s.peerRequest m
  | 3 => s.takeReply m
  | 4 =>
    let op : ChanOp :=
      { sid := sid, pid := m.pid, chan := m.addr, val := BitVec.ofNat 64 (field m.opnd 0 64), d := BitVec.ofNat 5 (word / 2 ^ 8)
        a := BitVec.ofNat 5 (word / 2 ^ 16), serial := n }
    s.post 0 (match field word 0 8 with
      | 0 => .sendAtHome op
      | 1 => .recvAtHome op
      | 2 => .recvnbAtHome op
      | 3 => .eosAtHome op
      | 4 => .lostEosEnqueue m.pid m.addr
      | _ => .cutTaskRecord m.pid (((s.chan? m.pid m.addr).map (·.ctask)).getD 0))
  | 5 =>
    if bit word 3 then s.dropAtHome m.pid m.group (m.src, field m.opnd 0 64)
    else s.post 0 (.barrierArriveAtHome
      { sid := sid, pid := m.pid, task := field m.opnd 0 64, group := m.group, memb := field word 8 2, drop := bit word 0
        sync := bit word 1, phase := if bit word 2 then some (field m.opnd 64 64) else none, d := BitVec.ofNat 5 (word / 2 ^ 16)
        serial := n })
  | 6 => s.post 0 (.sharedMapHomeAction
      { sid := sid, pid := m.pid, map := field word 16 16, kind := field word 0 8, pin := bit word 8
        key := BitVec.ofNat 64 (field m.opnd 0 64), check := BitVec.ofNat 32 (field m.opnd 64 32)
        value := BitVec.ofNat 32 (field m.opnd 96 32), task := field word 32 14, d := 0, pc := BitVec.ofNat 64 n })
  | 7 => s.post 0 (.mcstSequence
      { sid := sid, pid := m.pid, group := m.group, word := field word 0 16, val := BitVec.ofNat 64 (field m.opnd 0 64)
        rel := bit word 24, d := BitVec.ofNat 5 (word / 2 ^ 16), serial := n })
  | 8 => s.post 0 (.multicastApply m.pid m.group m.gseq (field m.opnd 64 64) (BitVec.ofNat 64 (field m.opnd 0 64)))
  | 9 => s.contributionArrives m
  | 10 => s.resultArrives m.pid m.group m.gseq m.opnd (bytesOfFlits m.pay)
  | 11 => s.post 0 (.sleetWriteLand m)
  | 13 => s.groupFailed m.pid m.group (field m.opnd 0 64) m.gseq (field m.opnd 64 64)
  | 14 => s.reduceFailed m
  | 15 => s.post 0 (.redirect n (tagElem m.tag))
  | _ => s

/-- The next number to act on of a pair's series (R321). -/
def State.expected (s : State) (m : Msg) : Nat :=
  ((s.fabric.pairIn.find? fun p => p.1 == m.src && p.2.1 == seriesFace m).map (·.2.2)).getD 0

/-- A later series of the pair has started: what is left of the message's own acts no more (R363). -/
def State.outdated (s : State) (m : Msg) : Bool :=
  s.fabric.pairIn.any fun p => p.1 == m.src && p.2.1 % 2 ^ 16 == faceOf m && m.series < p.2.1 / 2 ^ 16

/-- A message of a pair is acted on, in its turn; the first of a series ends the earlier ones (R321, R363). -/
def State.actInTurn (s : State) (m : Msg) : State :=
  let s := s.modFabric fun f =>
    { f with
      pairIn := (f.pairIn.filter fun p => !(p.1 == m.src && p.2.1 % 2 ^ 16 == faceOf m)) ++ [(m.src, seriesFace m, (m.pseq + 1) % 2 ^ 32)]
      early := f.early.filter fun x => !(x.src == m.src && faceOf x == faceOf m && (x.series < m.series || (samePair x m && x.pseq == m.pseq))) }
  s.actOn m

/-- Early arrivals whose turn has come are acted on. -/
def State.actEarly (m : Msg) : Nat → State → State
  | 0, s => s
  | fuel + 1, s =>
    match s.fabric.early.find? fun x => samePair x m && x.pseq == s.expected m with
    | some x => State.actEarly m fuel (s.actInTurn x)
    | none => s

/-- A reliable message is acknowledged to its source interface; a partial sum to the source of each contribution in it (R319, R329). -/
def State.acknowledge (s : State) (m : Msg) : State :=
  let acks := (m.part.map (·.acks)).getD [(m.src, seriesFace m, m.pseq)]
  acks.foldl (fun (s : State) a => s.hubSend { s.blankMsg a.1 opAck m.pid with
    cls := 1, tag := a.2.1 % 2 ^ 16, series := a.2.1 / 2 ^ 16, pseq := a.2.2, opnd := m.cls }) s

/-- A reliable message has been taken: it is acknowledged, but a store only when it has taken effect (R319, R336). -/
def State.taken (s : State) (m : Msg) : State := if m.op = opWrite then s else s.acknowledge m

/-- A message that has been acted on arrives again: it is acknowledged again, unless it is a store that has yet to take effect. -/
def State.repeated (s : State) (m : Msg) : State :=
  if s.reqs.any (fun r => r.ack == some m.pseq && r.source == some (m.src, m.tag)) then s else s.acknowledge m

/-- What tells a message of class 1 from every other: a resend of it is discarded (R319). -/
def seenKeys (m : Msg) : List (Nat × Nat × Nat × Nat × Nat) :=
  let round := m.gseq + m.group * 2 ^ 32 + m.pid * 2 ^ 40
  match m.part with
  | some p => p.acks.map fun a => (a.1, a.2.1, a.2.2, round, 0)
  | none => [(m.src, seriesFace m, m.pseq, round, if m.op = opContribution then 0 else m.tag)]

/-- A message of class 1 arrives: it is acted on once (R319). A partial sum of which one contribution has arrived alone is discarded;
the others are sent again. -/
def State.arriveUnordered (s : State) (m : Msg) : State :=
  if (seenKeys m).any s.fabric.seen.contains then (if m.part.isSome then s else s.acknowledge m)
  else ((s.acknowledge m).modFabric fun f => { f with seen := f.seen ++ seenKeys m }).actOn m

/-- A reliable-ordered message arrives (R321, R363): acted on in its turn, held when early, and discarded when repeated, or when a later
series of its pair has started. -/
def State.arriveOrdered (s : State) (m : Msg) : State :=
  let ahead := wrap ((m.pseq : Int) - (s.expected m : Int)) 32
  if s.outdated m || 2 ^ 31 ≤ ahead then s.repeated m
  else if ahead = 0 then State.actEarly m 256 ((s.taken m).actInTurn m)
  else if s.fabric.early.any fun x => samePair x m && x.pseq == m.pseq then s.taken m
  else if 256 ≤ (s.fabric.early.filter (samePair m)).length then s.postFree 64 (.messageArrive m)
  else (s.taken m).modFabric fun f => { f with early := f.early ++ [m] }

/-- Payload flits of a Sleet message that arrive with a bad link check, which the model shows as bytes without validity, become zero flits and
are counted (R319, R323; log 12). -/
def State.cleanFlits (s : State) (m : Msg) : Msg × State :=
  let bad := m.pay.filter fun p => !p.1 && p.2 != 0
  if m.cls ≠ 3 || bad.isEmpty then (m, s)
  else ({ m with pay := m.pay.map fun p => if p.1 then p else (false, 0) }, s.countSleet bad.length)

/-- MESSAGE_ARRIVE (R315, R317, R319-R321): a message for another device goes on through the switch, a Sleet message with its time on the
link taken off its budget (R323); one with a reserved field or a poison tail is discarded and counted. -/
def execMessageArrive (m : Msg) (s : State) : Host.Outcome State Fault Refusal :=
  guardPhysical (
    if s.unreachable then s
    else if 15 < m.op || 8 < m.pay.length || m.resv ≠ 0 || m.poisoned then s.countPoison
    else
    let (m, s) := s.cleanFlits m
    if m.dst ≠ s.device then
      if m.cls = 3 then
        let (n, s) := s.fresh
        let m := { m with budget := m.budget - n % 3 }
        if m.op = opContribution then s.holdPart m else s.enterSwitch m false
      else s.enterSwitch m false
    else if s.bar.pwr ≠ 0 then (if m.cls = 3 then s.countSleet (flitCount m) else s.post 0 (.messageArrive m)).wake
    else if m.op = opAck && (m.pseq = 0xFFFFFFFF || (faceOf m != hubFace && m.series != (s.core (faceOf m)).series)) then s
    else if m.op = opAck then
      s.post 0 (if m.opnd = 2 then .acknowledgeArrive (hubFace + 2 * 2 ^ 16) m.src (m.gseq + m.group * 2 ^ 32 + m.pid * 2 ^ 40)
        else .acknowledgeArrive (faceOf m + m.opnd * 2 ^ 16) m.src m.pseq)
    else if m.cls = 3 || m.cls = 2 then s.actOn m
    else if m.cls = 1 then s.arriveUnordered m
    else s.arriveOrdered m)

/-- SLEET_PARTIAL_FORWARD (R331): the partial sum that a switch holds of a Sleet round goes on, with a contribution count for each
block. -/
def execSleetPartialForward (pid group round : Nat) (s : State) : Host.Outcome State Fault Refusal :=
  let mine (h : Hop) : Bool := h.held && h.msg.pid == pid && h.msg.group == group && h.msg.gseq == round
  .next (match s.fabric.hops.find? mine with
    | none => s
    | some h =>
      let (h', s) := s.meet h
      let s := s.modFabric fun f => { f with hops := f.hops.map fun x => if x.id == h'.id then { x with held := false } else x }
      (s.post (80 * h'.msg.budget + 1) (.sleetBudgetExpire h'.id 0)).post 0 .switchForward)

/-! ### Sleet (R323, R324) -/

/-- SLEET_BUDGET_EXPIRE (R323): a message whose header would be held past its budget is dropped whole; a payload flit becomes
a zero flit. `index` is the message's number in this switch, `flit` 0 the header. -/
def execSleetBudgetExpire (index flit : Nat) (s : State) : Host.Outcome State Fault Refusal :=
  let mine (h : Hop) : Bool := h.msg.cls == 3 && h.id == index && !h.held
  .next (match s.fabric.hops.find? mine with
    | none => s
    | some h =>
      if flit = 0 then
        (if h.port.isSome then s
         else (s.modFabric fun f => { f with hops := f.hops.filter fun x => x.id != h.id }).countSleet (flitCount h.msg))
      else if h.port.isNone then s
      else
        let blank (x : Hop) : Hop := { x with msg := { x.msg with pay := x.msg.pay.set (flit - 1) (false, 0) } }
        (s.modFabric fun f => { f with hops := updateFirst (·.id == h.id) blank f.hops }).countSleet 1)

/-- SLEET_WRITE_LAND (R323): valid flits write their bytes and turn their granules full, invalid ones write zeros; a core of
another job refuses the message. -/
def execSleetWriteLand (m : Msg) (s : State) : Host.Outcome State Fault Refusal :=
  let core := field m.addr 22 8
  .next (if !s.coreRuns core m.pid then s.countSleet 1
    else m.pay.zipIdx.foldl (fun (s : State) p =>
      let a := m.addr % 2 ^ 22 + 64 * p.2
      if p.1.1 then s.slotStore core a (bytesOfNat 64 p.1.2)
      else s.slotWrite core a (List.replicate 64 0) (List.replicate 64 true) []) s)

/-- The checks of SLSEND, in its order (R324). -/
def sleetTrap (x : Ext) (r : Nat) (s : State) : Option Nat :=
  let ks := coordsOf x s
  let a := locate r (dieOf s.cur.core) ks
  if recSpace r ≠ 3 || !recW r then some causeLayoutPermission
  else if recRank r < ks.length then some causeLayoutRank
  else if recStride r 0 ≠ typeSize (recFormat r) then some causeLayoutAlign
  else if !inRange r ks || 16384 < a % 16384 + 512 then some causeLayoutBounds
  else if a % 64 ≠ 0 then some causeLayoutAlign
  else none

/-- SLSEND b, %h, k..., a (R324). -/
def execSlsend (f : RF) (x : Ext) (s : State) : Host.Outcome State Fault Refusal :=
  let info := handleInfo x.handle
  let srcs : List Opnd := [.v f.a f.ta, .s f.b f.tb]
  .next (s.gated 8 fun s => s.withSources info (coordOpnds x) srcs fun s => s.withRecord x.handle fun r s =>
    match sleetTrap x r s with
    | some c => s.trap c info
    | none => s.withSources info srcs [] fun s =>
      if s.holdsLater s.cur || s.myCore.cannotSend then s.lend .poll
      else
        let (k, t) := s.nextSerial
        let m : Msg := { s.blankMsg (recPeer r) opSleet (s.pidOf s.cur) with
          cls := 3
          pseq := k
          budget := (sat (s.sval f.b).toInt 0 65535).toNat
          addr := slotAddr (recCore r) (locate r (dieOf s.cur.core) (coordsOf x s))
          tag := reqTag s.cur k 0
          pay := flitsOf (s.vbytes f.a) }
        let t := t.popAll (coordOpnds x ++ srcs)
        (({ t with unapplied := t.unapplied ++ [({ sid := s.cur, serial := k, group := none } : Unapplied)] }).sendMsg s.cur.core m).retire 3)

/-! ### DEVNUM (R333) -/

/-- DEVNUM d (R333). -/
def execDevnum (f : RF) (s : State) : Host.Outcome State Fault Refusal :=
  .next (s.issue 0 [] [.s f.d false] noTrap fun _ s => (s.putS f.d (s.fabric.shape.setWidth 64)).retire 1)

end Sys2Proof.Machine
end

