-- ==== Sys2Proof/Machine/Fetch.lean ====
section
/-! DEFINITION. Instruction fetch (spec 03_encoding R32, R50-R53; 09 R402; 21 R350). -/

namespace Sys2Proof.Machine

/-- What a fetch finds: words, a fetch that is held, or the address of a word that cannot be fetched. -/
inductive Fetched where
  | words (ws : List W32)
  | wait
  | bad (a : Word)
deriving DecidableEq, Repr

/-- An address whose bit 63 is set is a handler address (R350). -/
def isHandlerAddr (a : Word) : Bool := a.getLsbD 63

/-- The byte of the slot store that a handler address names: slots 248 and 249 (R350). -/
def handlerByte (a : Word) : Nat := 248 * 16384 + field a.toNat 0 15

/-- A handler address may be fetched from: privileged mode, and bits [62:15] zero (R350). -/
def handlerOk (priv : Bool) (a : Word) : Bool := priv && field a.toNat 15 48 == 0

/-- The held fetch of a strand (R402). -/
def State.heldFetch (s : State) (sid : SId) : Option Req := s.reqs.find? fun r => r.sid == sid && r.kind == .fetch

/-- The word of a list of bytes. -/
def wordOfBytes (bs : List Byte) : W32 := BitVec.ofNat 32 (natOfBytes bs)

/-- Holds the fetch of a word at its station (R402). -/
def State.holdFetch (s : State) (va : Nat) (kind : Option Nat) : State :=
  let die := dieOf s.cur.core
  let pid := s.pidOf s.cur
  let (id, s) := s.nextSerial
  let s := { s with reqs := s.reqs ++
    [{ s.reqOf s.cur .fetch id with elems := [heldElem va 4 id] }] }
  (s.shutFull die va).pageFault die pid va kind

/-- Fetches one word at a virtual address: from the core's fetched copies, which may be stale until FENCE.i, or through
translation; a fetch that does not complete is held as a read fault, and one that the station does not accept waits outside it (R53, R188,
R192, R402). Which of the two a word is taken from is open (log 7). -/
def State.fetchVirtual (s : State) (a : Word) : Fetched × State :=
  let die := dieOf s.cur.core
  let pid := s.pidOf s.cur
  let va := wrap a.toNat 58
  let copy := s.myCore.icache.find? fun e => e.1 == pid && e.2.1 == a
  let (n, s) := s.fresh
  match copy, n % 2 with
  | some (_, _, w), 0 => (.words [w], s)
  | _, _ =>
    if s.notAccepted die pid va then (.wait, s)
    else if s.pageFaulted die pid va then (.wait, s.holdFetch va none)
    else
      match s.translate die pid va .load with
      | (.ok pa host _ _, s) =>
        let w := wordOfBytes ((if host then s.host else s.mem).readBytes pa 4)
        let s := if copy.isSome then s else s.modMyCore fun c => { c with icache := (pid, a, w) :: c.icache }
        (.words [w], s)
      | (.fault _, s) => (.wait, s.holdFetch va (some 1))
      | (.migrating, s) => (.wait, s.holdFetch va (some 1))

/-- Fetches one word (R350, R402): at a handler address always the bytes that the slot holds now, which R53 would let a copy stand for
(DESIGN CHOICE, log 26), with a record of each corrected error (R153). -/
def State.fetchWord (s : State) (a : Word) : Fetched × State :=
  if isHandlerAddr a then
    if handlerOk s.me.priv a && !s.myCore.slotBad (handlerByte a) 4 then
      (.words [wordOfBytes (s.myCore.slots.readBytes (handlerByte a) 4)], s.reportCorrected s.cur.core (handlerByte a) 4)
    else (.bad a, s)
  else s.fetchVirtual a

/-- Fetches `n` words from an address, until one is held or cannot be fetched. -/
def State.fetchMore (s : State) (a : Word) : Nat → List W32 → Fetched × State
  | 0, ws => (.words ws, s)
  | n + 1, ws =>
    match s.fetchWord a with
    | (.words [w], s) => s.fetchMore (a + 4) n (ws ++ [w])
    | r => r

/-- Fetches the instruction at the running strand's PC, every word of it (R32, R50): a fetch that was held and aborted
cannot be made, and one that is held waits (R402). -/
def State.fetchInstr (s : State) : Fetched × State :=
  match s.heldFetch s.cur with
  | some r =>
    match r.elems with
    | [e] => if e.phase == .done then (.bad (BitVec.ofNat 64 e.va), s.dropReq r.id) else (.wait, s)
    | _ => (.wait, s)
  | none =>
    match s.fetchWord s.me.pc with
    | (.words [w], s) => s.fetchMore (s.me.pc + 4) (instrWords w - 1) [w]
    | r => r

end Sys2Proof.Machine
end

