-- ==== Sys2Proof/Machine/Issue.lean ====
section
/-! DEFINITION. Who issues in a turn (spec 05_issue R86-R92, R114 LENT). -/

namespace Sys2Proof.Machine

/-- What the strand waits for has happened (R87). -/
def State.waitOver (s : State) (sid : SId) : Bool :=
  match (s.strand sid).wait with
  | none | some .poll => true
  | some (.sreg r) => (s.strand sid).isFull r
  | some (.lines first count) => !anyIn first count (s.owned sid.core (s.ownerOf sid)).empty
  | some (.sregOwn r) => (s.strand sid).isFree r
  | some (.linesOwn first count) => (s.owned sid.core (s.ownerOf sid)).linesFree first count
  | some (.granules slot first count) => !anyIn (1024 * slot + first) count (s.core sid.core).empty
  | some (.reply _) | some (.cancel _) | some (.acq _) => false

/-- A late fault is to be taken before the strand's next issue (R349, R353). -/
def Strand.lateDue (st : Strand) : Bool := !st.late.isEmpty && !st.nest

/-- The strand is eligible (R87): a strand of a held crew, a halted, yielding or spin-lending one is not ready, and a
waiting one is when its wait is over or abandoned for a late fault. -/
def State.eligible (s : State) (sid : SId) : Bool :=
  let st := s.strand sid
  let w := s.owned sid.core (s.ownerOf sid)
  !st.halted && !st.yielding && !w.held && !w.stopped &&
    (st.lateDue || (st.spin.isNone && s.waitOver sid)) &&
    (match st.last with | none => true | some l => decide (l + 4 ≤ s.cycle))

/-- The positions after p in the order of the search: p + 1, ..., p + 15 modulo 16 (R88). -/
def searchOrder (p : Nat) : List Nat := (List.range 15).map fun i => (p + 1 + i) % 16

/-- The strands that may issue in position p's turn, in the order of R88. -/
def State.candidates (s : State) (core p : Nat) : List SId :=
  let c := s.core core
  let crewOf := fun q => (c.crewAt q).map (·.task)
  let ready := fun q => (c.crewAt q).isSome && s.eligible ⟨core, q⟩
  let hasp := c.haspOn && !c.guarded.getLsbD p && s.eligible ⟨core, 16⟩
  let own := if ready p then [p] else []
  let kin := (searchOrder p).filter fun q => ready q && (crewOf p).isSome && crewOf q == crewOf p
  let others := (searchOrder p).filter fun q => ready q && !((crewOf p).isSome && crewOf q == crewOf p)
  ((if hasp then [16] else []) ++ own ++ kin ++ others).map fun q => ⟨core, q⟩

/-- ISSUE_TURN (R88): chooses the strands that may issue in this cycle's turn of a core, in order.
A supervisor core has one strand, which issues whenever it is eligible; `haspOn` says that it has been started. -/
def execIssueTurn (core : Nat) (s : State) : Host.Outcome State Fault Refusal :=
  let s := { s with turn := s.turn + 1 }
  let p := s.cycle % 16
  let cands := if core < 256 then s.candidates core p
    else if (s.core core).haspOn && s.eligible ⟨core, 0⟩ then [⟨core, 0⟩] else []
  let s := if core < 256 then
      s.modCore core fun c => { c with turnOf := some p, guarded := c.guarded &&& ~~~(1#16 <<< p) }
    else s
  .next (match cands with
    | [] => s.modCore core fun c => c.endTurn none
    | q :: qs => { s with cur := q, rest := qs, sel := true })

end Sys2Proof.Machine
end

