-- ==== Sys2Proof/Machine/Control.lean ====
section
/-! DEFINITION. Control registers, traps and the handler, holds and kills, the mailbox, fences and halts, the Hasp strand,
migration, bank erasure and cuts (spec 05 R113-R118; 07 R152, R153; 09 R189, R192, R193; 11 R239; 16 R307; 19 R342; 21 R349-R363,
R369, R373-R376). -/

namespace Sys2Proof.Machine

/-! ### Traps and the return (R349-R353) -/

/-- TRAP #n (R352): a software trap that resumes at Next. -/
def execTrap (_f : RF) (x : Ext) (s : State) : Host.Outcome State Fault Refusal :=
  .next (s.trapAt causeSoftware (BitVec.ofNat 64 x.immA) (s.me.next 3))

/-- RETURN (R352). -/
def execReturnOp (s : State) : Host.Outcome State Fault Refusal :=
  .next (s.privileged fun s => s.countIssue.modMe Strand.leaveHandler)

/-- The handler is entered for the oldest late fault of a strand, in place of the wait it abandons (R349, R350). -/
def State.takeLate (s : State) (sid : SId) : State :=
  match (s.strand sid).late with
  | [] => s
  | f :: rest =>
    let entry := (s.core sid.core).handlerEntry
    s.modStrand sid fun st =>
      { st.enterHandler entry st.pc f.info true f.engine f.merged f.reg f.code with late := rest }

/-- HANDLER_ENTRY (R349, R350): the strand's late fault is taken before its next issue; where its wait cannot be decided yet,
the next candidate is asked; where the home's answer is a trap, that comes first (R353). -/
def execHandlerEntry (sid : SId) (s : State) : Host.Outcome State Fault Refusal :=
  .next (if !(s.strand sid).lateDue then s
    else
      let (over_, t) := s.abandon sid
      if over_ then (if (t.strand sid).lateDue then t.takeLate sid else t)
      else if s.sel && s.cur == sid then t.nextCandidate else t)

/-! ### The mailbox (R358, R359) -/

/-- Messages waiting in the ring. -/
def Die.mboxCount (d : Die) : Nat := (d.mboxHead - d.mboxTail).toNat

/-- Writes a message and advances HEAD, which ends a halt of the die's supervisor strand (R358, R362). -/
def State.mboxWrite (s : State) (d : Nat) (m : MboxMsg) : State :=
  let die := s.die d
  let at_ := field die.mboxBase.toNat 12 40 * 4096 + 64 * (die.mboxHead.toNat % 64)
  let bytes := [m.d0, m.pc, m.info, m.info2, s.cycleOf d, 0, 0, 0].flatMap fun w => bytesOfNat 8 w.toNat
  let s := s.physStore at_ bytes
  let s := (s.modDie d fun x => { x with mboxHead := x.mboxHead + 1 }).modStrand ⟨256 + d, 0⟩ fun st => { st with halted := false }
  if s.faultHost then { s with msix := s.msix ||| 4#4 } else s

/-- Posters that waited go on while the ring has room, oldest first. -/
def State.mboxDrain (d : Nat) : Nat → State → State
  | 0, s => s
  | fuel + 1, s =>
    match (s.die d).mboxWait with
    | m :: rest =>
      if (s.die d).mboxCount = 64 then s
      else State.mboxDrain d fuel ((s.modDie d fun x => { x with mboxWait := rest }).mboxWrite d m)
    | [] => s

/-- MAILBOX_POST (R358): a poster waits while the ring is full. -/
def execMailboxPost (die : Nat) (m : MboxMsg) (s : State) : Host.Outcome State Fault Refusal :=
  guardPhysical (State.mboxDrain die 64 (s.modDie die fun x => { x with mboxWait := x.mboxWait ++ [m] }))

/-! ### CREW_CTL, NI_CTL, HASP_CTL, SLOT_ERASED (R152, R153, R357, R363, R369) -/

/-- PREEMPT of the crew at a position; a free position is ignored (R357, R364). -/
def State.crewPreempt (s : State) (core pos : Nat) : State :=
  match (s.core core).crewAt pos with
  | some w => s.requestPreempt core w
  | none => s

/-- KILL of the crew at a position (R357). -/
def State.crewKill (s : State) (core pos : Nat) : State :=
  match (s.core core).crewAt pos with
  | some w => s.killCrew core w .killed
  | none => s

/-- RESUME of the crew at a position: the hold ends and halted strands are ready (R357, R362). -/
def State.crewResume (s : State) (core pos : Nat) : State :=
  match (s.core core).crewAt pos with
  | some w =>
    (strandsOf core w).foldl (fun (s : State) sid => s.modStrand sid fun st => { st with halted := false })
      (s.modCrew core w.task fun w => { w with held := false })
  | none => s

/-- CREW_CTL_PREEMPT (R357). -/
def execCrewCtlPreempt (core pos : Nat) (s : State) : Host.Outcome State Fault Refusal := .next (s.crewPreempt core pos)
/-- CREW_CTL_KILL (R357). -/
def execCrewCtlKill (core pos : Nat) (s : State) : Host.Outcome State Fault Refusal := guardPhysical (s.crewKill core pos)
/-- CREW_CTL_RESUME (R357). -/
def execCrewCtlResume (core pos : Nat) (s : State) : Host.Outcome State Fault Refusal := .next (s.crewResume core pos)

/-- NI_CTL_RESET (R363). -/
def execNiCtlReset (core : Nat) (s : State) : Host.Outcome State Fault Refusal := guardPhysical (s.resetFace core)

/-- NI_SELF_RESET (R359, R363): as a reset, with an uncorrected-error message of unit 2. -/
def execNiSelfReset (core : Nat) (s : State) : Host.Outcome State Fault Refusal :=
  guardPhysical ((s.mail (dieOf core) ⟨mailWord 5 0 (core % 256) 0 (boolNat (256 ≤ core)) 0 0, 0, BitVec.ofNat 64 (2 * 2 ^ 16), 0⟩).resetFace core)

/-- NI_RESET_DONE (R363): what stalled goes on. -/
def execNiResetDone (core : Nat) (s : State) : Host.Outcome State Fault Refusal :=
  .next ((List.range 16).foldl (fun (s : State) _ => s.refill core) (s.modCore core fun c => { c with niBusy := false }))

/-- HASP_CTL's fields: GO, MODE, STOP, PID (R369). -/
def haspGo (v : Word) : Bool := v.getLsbD 63
def haspMode (v : Word) : Bool := v.getLsbD 62
def haspStop (v : Word) : Bool := v.getLsbD 61
/-- The fields of HASP_CTL that a write leaves; GO is computed on reading. -/
def haspFields : Word := 0x600000000000FFFF#64

/-- The Hasp strand runs, or is about to. -/
def State.haspBusy (s : State) (core : Nat) : Bool := (s.core core).haspOn || s.awaits (· == .haspRunnable core)

/-- GO (R369): the strand starts at HASP_ENTRY, runnable within 64 cycles; a GO while it is runnable is ignored. -/
def State.startHasp (s : State) (core : Nat) (v : Word) : State :=
  if 256 ≤ core || s.haspBusy core then s
  else
    let s := s.modCore core fun c => { c with haspCtl := v &&& haspFields }
    let entry := (s.core core).haspEntry
    (s.modStrand ⟨core, 16⟩ fun st => { st with pc := entry, priv := haspMode v, wait := none, spin := none, annul := 0, halted := false }).postFree 64
      (.haspRunnable core)

/-- STOP (R369): the strand stops before its next issue. -/
def State.stopHasp (s : State) (core : Nat) : State :=
  let s := (s.abandon ⟨core, 16⟩).2
  (s.withdraw (· == .haspRunnable core)).modCore core fun c => { c with haspOn := false }

/-- HASP_CTL_GO (R369). -/
def execHaspCtlGo (core : Nat) (v : Word) (s : State) : Host.Outcome State Fault Refusal := .next (s.startHasp core v)
/-- HASP_CTL_STOP (R369). -/
def execHaspCtlStop (core : Nat) (s : State) : Host.Outcome State Fault Refusal := .next (s.stopHasp core)
/-- HASP_RUNNABLE (R369). -/
def execHaspRunnable (core : Nat) (s : State) : Host.Outcome State Fault Refusal :=
  .next (s.modCore core fun c => { c with haspOn := true })

/-- A write of HASP_CTL (R369). The spec leaves open whether a write with GO = 1 while the strand is runnable still sets MODE and PID; the
model ignores the whole write (DESIGN CHOICE, log 26). -/
def State.haspWrite (s : State) (core : Nat) (v : Word) : State :=
  if haspGo v && s.haspBusy core && !haspStop v then s
  else if haspStop v then (s.stopHasp core).modCore core fun c => { c with haspCtl := v &&& haspFields }
  else if haspGo v then s.startHasp core v
  else s.modCore core fun c => { c with haspCtl := v &&& haspFields }

/-- The number of bits set among the low `n`. -/
def bitCount (v : Word) (n : Nat) : Nat := ((List.range n).filter v.getLsbD).length

/-- A write of SLOT_ERASED (R152): more than two banks are ignored; otherwise the banks change and a pass rewrites the store. -/
def State.eraseBanks (s : State) (core : Nat) (v : Word) : State :=
  if 2 < bitCount v 34 then s
  else
    ((s.withdraw (· == .slotErasedPassDone core)).modCore core fun c => { c with slotErased := v.setWidth 34 }).postFree 4194304
      (.slotErasedPassDone core)

/-- A write of PPOINT_DEFER (R240): the bound of pre-emptions that are deferred now changes with it. -/
def State.deferWrite (s : State) (core : Nat) (v : Word) : State :=
  let s := s.modCore core fun c => { c with ppointDefer := v &&& 0x1FFFF }
  let c := s.core core
  c.crews.foldl (fun (s : State) w => match w.preempt with
    | some p => if p.mask.isSome then s
      else s.post (p.since + c.deferBound - s.cycle) (.preemptDeferExpire core w.task)
    | none => s) s

/-- SLOT_ERASED_WRITE (R152). -/
def execSlotErasedWrite (core : Nat) (v : Word) (s : State) : Host.Outcome State Fault Refusal := .next (s.eraseBanks core v)

/-- SLOT_ERASED_PASS_DONE (R152): the check symbols agree with the mask; every row that could be corrected has been
rewritten, but for the banks that are erased. -/
def execSlotErasedPassDone (core : Nat) (s : State) : Host.Outcome State Fault Refusal :=
  .next (s.modCore core fun c => { c with
    erasedDone := c.slotErased, slotErrors := c.slotErrors.filter fun e => c.rowBad e.row || c.slotErased.getLsbD e.bank })

/-- PATROL_SCRUB (R153): one row is visited, and written back if it was corrected; the stores take their turns 4 cycles apart, so that the
next row of this one comes 1,024 cycles later (log 19). -/
def execPatrolScrub (core : Nat) (s : State) : Host.Outcome State Fault Refusal :=
  .next (
    let c := s.core core
    let row := c.scrubRow
    let s := if s.bar.pwr ≠ 0 then s else s.modCore core fun c => { c with scrubRow := (row + 1) % 4096 }
    let s := if c.slotErrors.isEmpty || s.bar.pwr ≠ 0 || c.rowBad row then s
      else (s.reportCorrected core (1024 * row) 1024).modCore core fun c => { c with
        slotErrors := c.slotErrors.filter fun e => e.row != row || c.slotErased.getLsbD e.bank }
    s.post 3 (.patrolScrub ((core + 1) % 256)))

/-! ### Migration (R192, R193) -/

/-- Bits [51:14] of a frame register. -/
def frameBits (v : Word) : Word := v &&& 0xFFFFFFFFFC000#64

/-- A write of MIG_SRC (R192, R193): the frame is marked handed off, what is parked there is redirected, and the copy begins; ignored
while one runs. -/
def State.startMigration (s : State) (v : Word) : State :=
  if s.migBusy || !s.feature 10 then s
  else
    let frame := (frameBits v).toNat / 16384
    let s : State := { s with migSrc := frameBits v, migDone := false, migBusy := true, marks := frame :: s.marks.filter (· != frame) }
    (s.sendBack fun _ e => !e.host && e.pa / 16384 == frame).postFree 65536 .migrationDone

/-- MIG_SRC_WRITE (R192, R386). -/
def execMigSrcWrite (v : Word) (s : State) : Host.Outcome State Fault Refusal := .next (s.startMigration v)

/-- MIGRATION_DONE (R192): the frame's bytes and sync bits stand in the new frame. Of a MIG_DST written while the migration runs the spec says
nothing; the copy goes to what it holds now (DESIGN CHOICE, log 24). -/
def execMigrationDone (s : State) : Host.Outcome State Fault Refusal :=
  guardPhysical (
    let (p, q) := (s.migSrc.toNat, s.migDst.toNat)
    let (bytes, s) := s.physRead p 16384
    let moved := (s.syncEmpty.filter fun d => p / 8 ≤ d && d < p / 8 + 2048).map fun d => d - p / 8 + q / 8
    let s := s.physStore q bytes
    { s with syncEmpty := moved.foldl (fun l d => addRange d 1 l) (delRange (q / 8) 2048 s.syncEmpty), migDone := true, migBusy := false })

/-- The mark of a frame may be cleared by a write of MIG_FREE: there is one, and the frame's migration has ended (R193). -/
def State.markClearable (s : State) (frame : Nat) : Bool :=
  s.marks.contains frame && !(s.migBusy && s.migSrc.toNat / 16384 == frame)

/-- A write of MIG_FREE (R193). -/
def State.freeFrame (s : State) (v : Word) : State :=
  let frame := (frameBits v).toNat / 16384
  let s := { s with migFree := frameBits v }
  if s.markClearable frame && !s.awaits (· == .migrationMarkClear frame) then s.postFree 4096 (.migrationMarkClear frame) else s

/-- MIG_FREE_WRITE (R193). -/
def execMigFreeWrite (v : Word) (s : State) : Host.Outcome State Fault Refusal := .next (s.freeFrame v)

/-- A request translated to the frame has not yet been redirected (R193). -/
def State.frameBusy (s : State) (frame : Nat) : Bool :=
  s.reqs.any fun r => r.elems.any fun e => (e.phase == .home || e.phase == .parked) && !e.host && r.space < 2 && e.pa / 16384 == frame

/-- MIGRATION_MARK_CLEAR (R193): once every request translated to the frame has been redirected. -/
def execMigrationMarkClear (frame : Nat) (s : State) : Host.Outcome State Fault Refusal :=
  .next (if s.frameBusy frame then s.post 0 (.migrationMarkClear frame) else { s with marks := s.marks.filter (· != frame) })

/-! ### Cuts (R373-R375) -/

/-- JOBAREA's table of a cut (R373): the channel's head and the tokens before its marker. -/
def State.recordRing (s : State) (j : Job) (c : Channel) : State :=
  s.physStore (j.jobArea + 0x80000 + 16 * c.num) (bytesOfNat 8 c.head ++ bytesOfNat 8 (c.marker.getD c.count))

/-- Every valid input of a task has its marker (R373). -/
def Job.marked (j : Job) (t : Task) : Bool :=
  t.inputs.all fun n => match j.chan? n with
    | some c => c.marker.isSome || c.sink
    | none => true

/-- The markers that a recorded task's outputs get (R373). -/
def State.markOutputs (s : State) (j : Job) (t : Task) : State :=
  t.outputs.foldl (fun (s : State) n => match j.chan? n with
    | none => s
    | some c =>
      if c.cdev = s.device then s.markChannel j.pid n
      else s.hubSend { s.blankMsg c.cdev opChannel j.pid with addr := n, opnd := 5 * 2 ^ 128 }) s

/-- The neighbour beyond a port (R314). -/
def State.neighbour (s : State) (p : Nat) : Nat :=
  let me := s.device
  let (x, y, a, b) := (devX me, devY me, devA me, devB me)
  let at_ (x y a b : Nat) : Nat := 256 * y + 8 * x + 2 * a + b
  match p with
  | 0 => at_ x y (a + 1) b
  | 1 => at_ x y (a - 1) b
  | 2 | 3 => at_ x y a (1 - b)
  | 4 => at_ ((x + 1) % s.xext) y a b
  | 5 => at_ ((x + s.xext - 1) % s.xext) y a b
  | 6 => at_ x ((y + 1) % s.yext) a b
  | _ => at_ x ((y + s.yext - 1) % s.yext) a b

/-- The hub's marker leaves on a port (R374). -/
def State.sendMarker (s : State) (p : Nat) : State :=
  let m : Msg := { s.blankMsg (s.neighbour p) opAck 0 with cls := 1, pseq := 0xFFFFFFFF, gseq := s.cut.epoch.toNat, tag := hubFace }
  let (id, s) := s.nextSerial
  let hop : Hop := { msg := m, detours := 0, port := some p, replays := 0, held := false, since := s.cycle, id := id, vc := 0 }
  (s.modFabric fun f => { f with hops := f.hops ++ [hop] }).postFree 64 (.linkReplay p true)

/-- When every task has recorded, the hub sends its markers (R374). -/
def State.cutProgress (s : State) : State :=
  let s := if s.cut.active && !s.cut.sent && s.jobs.all (fun j => j.tasks.all (·.recorded)) then
      ((List.range 8).filter s.connected).foldl State.sendMarker { s with cut := { s.cut with sent := true } }
    else s
  s.checkCut

/-- A task has recorded: the rings of its inputs are written down and its outputs marked (R373). -/
def State.taskRecorded (s : State) (pid : Nat) (t : Task) : State :=
  match s.job? pid with
  | none => s
  | some j =>
    let s := s.modJob pid fun j => j.modTask t.index fun t => { t with recorded := true }
    let s := (t.inputs.filterMap j.chan?).foldl (fun (s : State) c => s.recordRing j c) s
    (s.markOutputs j t).cutProgress

/-- Image 1 of a task that is away is its image 0 with KIND 2 (R373). -/
def State.copyImage (s : State) (pid : Nat) (t : Task) : State :=
  let base := t.ctx + imageSize
  let (header, s) := s.physRead t.ctx 4096
  let blocks := natOfBytes ((header.drop (8 * 41)).take 32)
  let epoch := BitVec.ofNat 64 (dwordOf header 1)
  let s := ((List.range 224).filter (bit blocks)).foldl (fun (s : State) i =>
    let (bs, s) := s.physRead (t.ctx + 4096 * i) 4096
    s.physStore (base + 4096 * i) bs) s
  let s := s.physStore base (bytesOfNat 8 (putField (dwordOf header 0) 30 2 2))
  ((List.range 224).filter (bit blocks)).foldl (fun (s : State) i =>
    let (bs, s) := s.physRead (base + 4096 * i) 4096
    s.physStore (base + 917504 + 16 * i) (s.tagOf 1 i pid t.index epoch bs)) s

/-- The header of a task's image 1 (R370, R373). -/
def Task.cutHeader (t : Task) (pid : Nat) (settled : Bool) : Header :=
  { pid := pid, task := t.index, kind := 2, nsm1 := t.nsm1, settled := settled, held := false, epoch := t.epoch
    home := t.lastCore.getD 0, saved := 0, spilled := 0 }

/-- A task that has never run records the crew it would start with (log 7). -/
def State.freshImage (s : State) (pid : Nat) (t : Task) : State :=
  let w : Crew := { task := t.index, pid := pid, hold := t.floor, claim := t.claim, floor := t.floor, acMask := BitVec.ofNat 8 (2 ^ t.floor.ac - 1) }
  let strands := (List.range (t.nsm1 + 1)).map (startStrand t)
  s.writeImage t.ctx 1 (t.cutHeader pid false) w (imageRuns (Core.reset 0) w strands [] 0)

/-- A crew on its core records image 1 and stays stopped in place (R364, R368, R373). -/
def State.recordCrew (s : State) (core pid : Nat) (t : Task) : State :=
  let w := s.owned core (.crew t.index)
  let again := Instr.cutTaskRecord pid t.index
  if !w.stopped then
    let s := (s.stopCrew core t.index).modCrew core t.index fun w => { w with cutting := true }
    s.post (moveCycles (imageRuns (s.core core) w ((s.core core).crewStrands w) [] w.acMask)) again
  else if !w.cutting then s.post 64 again
  else if !s.saveReady core w then ((strandsOf core w).foldl State.stopWait s).post 0 again
  else
    let s := w.pos.zipIdx.foldl (fun (s : State) p => s.setAside ⟨core, p.1⟩ p.2) s
    let s := s.saveCrew core 1 2 (s.owned core (.crew t.index)) (BitVec.allOnes 8)
    let s := s.modCore core fun c => c.unspool w.pos
    s.taskRecorded pid t

/-- CUT_TASK_RECORD (R373): with markers on all its inputs a task records, one whose crew is still being saved once its image stands. -/
def execCutTaskRecord (pid task : Nat) (s : State) : Host.Outcome State Fault Refusal :=
  guardPhysical (match (s.job? pid).bind fun j => (j.task? task).map fun t => (j, t) with
    | none => s
    | some (j, t) =>
      if !s.cut.active || t.recorded || !j.marked t then s
      else if s.leaving t && (t.phase == .parkedPooled || t.phase == .ready) then s.post 64 (.cutTaskRecord pid task)
      else match t.phase with
        | .settled => (s.writeImage t.ctx 1 (t.cutHeader pid true) { lastPhase := t.last } []).taskRecorded pid t
        | .killed | .lost => s.taskRecorded pid t
        | .placed | .parkedResident =>
          let core := t.lastCore.getD 0
          if (s.owned core (.crew task)).pos.isEmpty then (s.copyImage pid t).taskRecorded pid t else s.recordCrew core pid t
        | _ => (if t.ran then s.copyImage pid t else s.freshImage pid t).taskRecorded pid t)

/-- START (R373): the source channels are marked, and tasks with no input record at once. -/
def State.startCut (s : State) (epoch : BitVec 32) : State :=
  if s.cut.active then s
  else
    let fresh (t : Task) : Task := { t with recorded := false }
    let plain (j : Job) : Job := { j with tasks := j.tasks.map fresh }
    let (came, other) := s.cut.early.partition fun p => p.2 == epoch.toNat
    let ports := came.foldl (fun (m : BitVec 8) p => m ||| (1#8 <<< p.1)) 0
    let cut := { s.cut with epoch := epoch, active := true, done := false, ports := ports, sent := false, early := other }
    let s : State := { s with cut := cut, jobs := s.jobs.map plain }
    let s := s.jobs.foldl (fun (s : State) j =>
      let s := (j.chans.filter fun c => c.pnone && c.cdev == s.device).foldl (fun (s : State) c => s.markChannel j.pid c.num) s
      (j.tasks.filter fun t => t.inputs.isEmpty).foldl (fun (s : State) t => s.post 0 (.cutTaskRecord j.pid t.index)) s) s
    s.cutProgress

/-- A crew that a cut holds goes on: its spilled messages are injected again, its requests issued again (R366, R375). -/
def State.releaseCrew (s : State) (core pid : Nat) (t : Task) : State :=
  let w := s.owned core (.crew t.index)
  if !w.cutting then s
  else
    let sids := strandsOf core w
    let base := t.ctx + imageSize
    let s := s.modCrew core t.index fun w => { w with cutting := false, stopped := false }
    let s := s.reclaim pid t.index sids
    let s := if t.recorded then s.respool core sids base else s
    (sids.foldl State.kickGenerators s).kickEngines core

/-- The held tasks of a cut go on, and its markers are gone (R375). -/
def State.endCut (s : State) : State :=
  let s := s.jobs.foldl (fun (s : State) j => j.tasks.foldl (fun (s : State) t =>
    match t.lastCore with
    | some core => s.releaseCrew core j.pid t
    | none => s) s) s
  let plain (t : Task) : Task := { t with recorded := false }
  let bare (c : Channel) : Channel := { c with marker := none }
  let clear (j : Job) : Job := { j with tasks := j.tasks.map plain, chans := j.chans.map bare }
  let s : State := { s with cut := { s.cut with active := false }, jobs := s.jobs.map clear }
  let s := s.jobs.foldl (fun (s : State) j => j.chans.foldl (fun (s : State) c => s.serve j.pid c.num) s) s
  s.kickDispatch

/-- RELEASE (R375). -/
def State.releaseCut (s : State) : State := if s.cut.active then s.endCut else s

/-- ABORT (R375): KIND 0 is written to each image 1. -/
def State.abortCut (s : State) : State :=
  if !s.cut.active then s
  else
    let s := s.jobs.foldl (fun (s : State) j => j.tasks.foldl (fun (s : State) t =>
      let (d, s) := s.physRead (t.ctx + imageSize) 8
      s.physStore (t.ctx + imageSize) (bytesOfNat 8 (putField (natOfBytes d) 30 2 0))) s) s
    s.endCut

/-- CUT_CTL_START (R373). -/
def execCutCtlStart (v : Word) (s : State) : Host.Outcome State Fault Refusal := guardPhysical (s.startCut (v.setWidth 32))
/-- CUT_CTL_RELEASE (R375). -/
def execCutCtlRelease (s : State) : Host.Outcome State Fault Refusal := guardPhysical s.releaseCut
/-- CUT_CTL_ABORT (R375). -/
def execCutCtlAbort (s : State) : Host.Outcome State Fault Refusal := guardPhysical s.abortCut

/-- CUT_PORT_MARKER (R374): a marker of a cut that has not started here is kept for it. -/
def execCutPortMarker (port epoch : Nat) (s : State) : Host.Outcome State Fault Refusal :=
  .next (if s.cut.active && s.cut.epoch.toNat = epoch then
      ({ s with cut := { s.cut with ports := s.cut.ports ||| (1#8 <<< port) } }).checkCut
    else { s with cut := { s.cut with early := (port, epoch) :: s.cut.early } })

/-- A write of CUT_CTL (R374, R375). -/
def State.cutWrite (s : State) (v : Word) : State :=
  let s := { s with cut := { s.cut with start := v.getLsbD 63, release := v.getLsbD 62, abort := v.getLsbD 61, ctl := v.setWidth 32 } }
  if v.getLsbD 61 then s.abortCut
  else if v.getLsbD 62 then s.releaseCut
  else if v.getLsbD 63 then s.startCut (v.setWidth 32)
  else s

/-- CUT_STATUS (R374): LEFT counts the tasks not yet recorded. -/
def State.cutStatus (s : State) : Word :=
  let left := if s.cut.active then (s.jobs.map fun j => (j.tasks.filter fun t => !t.recorded).length).sum else 0
  BitVec.ofNat 64 (boolNat s.cut.done * 2 ^ 63 + boolNat s.cut.active * 2 ^ 62 + left % 2 ^ 14 * 2 ^ 32 + s.cut.epoch.toNat)

/-! ### Control registers (R113-R118, R360, R361) -/

/-- What a register belongs to: the strand, crew or core that CR_TARGET selects, the issuer alone, or its die and device. -/
inductive CrHome where
  | target
  | issuer
  | shared
deriving DecidableEq, Repr

/-- The registers (R114, R360); none for a number that names no register. -/
def crHome (n : Nat) : Option CrHome :=
  if n = 0x108 then some .issuer
  else if n ≤ 1 || (3 ≤ n && n ≤ 6) || (8 ≤ n && n ≤ 0xE) || (0x100 ≤ n && n ≤ 0x102) || (0x104 ≤ n && n ≤ 0x107) ||
      (0x110 ≤ n && n ≤ 0x113) || n = 0x120 || n = 0x121 || n = 0x180 || n = 0x190 || (0x240 ≤ n && n ≤ 0x260) then some .target
  else if n = 2 || n = 0x10 || n = 0x11 || (0x140 ≤ n && n ≤ 0x142) || (0x200 ≤ n && n ≤ 0x215) || n = 0x220 || n = 0x221 ||
      (0x300 ≤ n && n ≤ 0x302) then some .shared
  else none

/-- The strand that CR_TARGET selects, if there is one at its position (R361). -/
def State.crTargetOf (s : State) (sid : SId) : Option SId :=
  let t := (s.strand sid).crTarget.toNat
  let pos := field t 8 5
  let core := field t 0 8
  if !bit t 15 then some sid
  else if bit t 13 then (if pos = 0 then some ⟨256 + core % 4, 0⟩ else none)
  else if pos = 16 then some ⟨core, 16⟩
  else if ((s.core core).crewAt pos).isSome then some ⟨core, pos⟩
  else none

/-- STRAND_ID (R115). -/
def State.strandId (s : State) (sid : SId) : Word :=
  let sup := decide (256 ≤ sid.core)
  let w := s.owned sid.core (s.ownerOf sid)
  let crew := !sup && sid.pos < 16
  let size := if crew then w.pos.length - 1 else 0
  let rank := if crew then (w.pos.findIdx? (· == sid.pos)).getD 0 else 0
  BitVec.ofNat 64 ((if sup then sid.core - 256 else sid.core) * 2 ^ 24 + boolNat sup * 2 ^ 23 + sid.pos % 32 * 2 ^ 16 + size * 2 ^ 8 + rank)

/-- A register of level `n` of the active loops, the outer first (R114). -/
def Strand.loopReg (st : Strand) (n : Nat) (f : Loop → Word) : Word := ((st.loops.reverse[n]?).map f).getD 0

/-- FB_INFO of an entry (R189). -/
def FaultEntry.info (f : FaultEntry) : Word :=
  BitVec.ofNat 64 (boolNat f.valid * 2 ^ 63 + boolNat f.abort * 2 ^ 62 + f.pid % 2 ^ 16 * 2 ^ 32 + f.dies.toNat * 2 ^ 16 + f.kinds.toNat * 2 ^ 8)

/-- A record of the dispatch ring as read (R217). -/
def Dring.word (d : Dring) : Word :=
  BitVec.ofNat 64 (d.ticket % 2 ^ 32 * 2 ^ 32 + d.kind % 256 * 2 ^ 24 + d.engine % 16 * 2 ^ 20 + d.pos % 32 * 2 ^ 15 + d.chain % 8 * 2 ^ 12 +
    boolNat d.valid)

/-- A register as read, of the strand `t` that the access selects, by an issuer of die `d` (R114-R118, R360). -/
def State.crRead (s : State) (t : SId) (d : Nat) (n : Nat) : Word :=
  let st := s.strand t
  let c := s.core t.core
  match n with
  | 0x000 => s.strandId t
  | 0x001 => if t.pos = 16 || 256 ≤ t.core then 0 else BitVec.ofNat 64 (s.owned t.core (s.ownerOf t)).task
  | 0x002 => s.cycleOf d
  | 0x003 => st.issued
  | 0x004 => st.lent
  | 0x005 => st.retryLimit.setWidth 64
  | 0x006 => st.gatherDrops.setWidth 64
  | 0x008 => st.loopReg 0 (·.count)
  | 0x009 => st.loopReg 0 (·.start)
  | 0x00A => st.loopReg 0 (·.stop)
  | 0x00B => st.loopReg 1 (·.count)
  | 0x00C => st.loopReg 1 (·.start)
  | 0x00D => st.loopReg 1 (·.stop)
  | 0x00E => BitVec.ofNat 64 st.loops.length
  | 0x010 => s.bar.drvLo &&& 0x7FF
  | 0x100 => st.trapPc
  | 0x101 => st.trapCause
  | 0x102 => st.trapInfo
  | 0x104 => st.hscratch[0]
  | 0x105 => st.hscratch[1]
  | 0x106 => st.hscratch[2]
  | 0x107 => st.hscratch[3]
  | 0x108 => st.crTarget
  | 0x110 => c.handlerEntry
  | 0x111 => c.chainCtl
  | 0x112 => c.crewCtl
  | 0x113 => BitVec.ofNat 64 (2 * boolNat c.niBusy)
  | 0x120 => c.haspCtl ||| (boolWord (s.haspBusy t.core) <<< 63)
  | 0x121 => c.haspEntry
  | 0x140 => (s.die d).mboxBase
  | 0x141 => (s.die d).mboxHead.setWidth 64
  | 0x142 => (s.die d).mboxTail.setWidth 64
  | 0x180 => c.slotErased.setWidth 64
  | 0x190 => c.ppointDefer
  | 0x210 => BitVec.ofNat 64 (boolNat s.dropped * 2 ^ 63 + s.dropCount.toNat)
  | 0x211 => boolWord s.faultHost
  | 0x212 => s.migDst
  | 0x213 => s.migSrc
  | 0x214 => boolWord s.migDone
  | 0x215 => s.migFree
  | 0x220 => BitVec.ofNat 64 (boolNat s.cut.start * 2 ^ 63 + boolNat s.cut.release * 2 ^ 62 + boolNat s.cut.abort * 2 ^ 61 + s.cut.ctl.toNat)
  | 0x221 => s.cutStatus
  | 0x260 => BitVec.ofNat 64 c.dringHead
  | 0x300 => s.fabCount
  | 0x301 => s.fabric.linkDown.setWidth 64
  | 0x302 => s.fabric.shape.setWidth 64
  | _ =>
    if 0x200 ≤ n && n < 0x210 then
      let f := s.faults[(n - 0x200) / 2]?.getD {}
      if n % 2 = 0 then BitVec.ofNat 64 (f.page % 2 ^ 44 * 2 ^ 14) else f.info
    else if 0x240 ≤ n && n < 0x260 then (c.dring[n - 0x240]?.getD {}).word
    else 0

/-- A write of LINK_STATE (R5, R316): DOWN holds what is written from now on, and each port whose bit changes goes out of service or
retrains. -/
def State.linkWrite (s : State) (v : Word) : State :=
  (List.range 8).foldl (fun (s : State) p =>
    if v.getLsbD p then (if s.fabric.linkDown.getLsbD p then s else s.linkOut p) else s.linkRetrain p) s

/-- A write of CHAIN_CTL to a chain of the selected strand's crew, or of the Hasp strand (R356). -/
def State.chainWrite (s : State) (t : SId) (v : Word) : State :=
  let s := s.modCore t.core fun c => { c with chainCtl := v &&& 0x1F }
  let ch := field v.toNat 0 3
  let o := s.ownerOf t
  if 256 ≤ t.core then s
  else match field v.toNat 3 2 with
    | 1 => s.chainRetry t.core o ch
    | 2 => s.chainSkip t.core o ch
    | 3 => s.chainCancel t.core o ch
    | _ => s

/-- A write of CREW_CTL (R357). -/
def State.crewWrite (s : State) (core : Nat) (v : Word) : State :=
  let s := s.modCore core fun c => { c with crewCtl := v &&& 0x1F03 }
  let pos := field v.toNat 8 5
  match field v.toNat 0 2 with
  | 1 => s.crewPreempt core pos
  | 2 => s.crewKill core pos
  | 3 => s.crewResume core pos
  | _ => s

/-- A register is written, of the strand `t` that the access selects, by an issuer of die `d`; read-only fields stay (R5,
R114-R118, R360). -/
def State.crWrite (s : State) (t : SId) (d : Nat) (n : Nat) (v : Word) : State :=
  let core := t.core
  match n with
  | 0x005 => s.modStrand t fun st => { st with retryLimit := v.setWidth 16 }
  | 0x006 => s.modStrand t fun st => { st with gatherDrops := v.setWidth 32 }
  | 0x100 => s.modStrand t fun st => { st with trapPc := v }
  | 0x104 => s.modStrand t fun st => { st with hscratch := st.hscratch.set 0 v }
  | 0x105 => s.modStrand t fun st => { st with hscratch := st.hscratch.set 1 v }
  | 0x106 => s.modStrand t fun st => { st with hscratch := st.hscratch.set 2 v }
  | 0x107 => s.modStrand t fun st => { st with hscratch := st.hscratch.set 3 v }
  | 0x108 => s.modStrand t fun st => { st with crTarget := v &&& 0xBFFF }
  | 0x110 => s.modCore core fun c => { c with handlerEntry := v }
  | 0x111 => s.chainWrite t v
  | 0x112 => s.crewWrite core v
  | 0x113 => if v.getLsbD 0 then s.resetFace core else s
  | 0x120 => s.haspWrite core v
  | 0x121 => s.modCore core fun c => { c with haspEntry := v }
  | 0x140 => s.modDie d fun x => { x with mboxBase := v &&& 0xFFFFFFFFFF000 }
  | 0x142 => State.mboxDrain d 64 (s.modDie d fun x => { x with mboxTail := v.setWidth 7 })
  | 0x180 => s.eraseBanks core v
  | 0x190 => s.deferWrite core v
  | 0x211 => { s with faultHost := v.getLsbD 0 }
  | 0x212 => { s with migDst := frameBits v }
  | 0x213 => s.startMigration v
  | 0x215 => s.freeFrame v
  | 0x220 => s.cutWrite v
  | 0x301 => s.linkWrite v
  | 0x302 => s.modFabric fun f => { f with shape := v.setWidth 26 }
  | _ =>
    if 0x200 ≤ n && n < 0x210 && n % 2 = 1 then
      let i := (n - 0x200) / 2
      { s with faults := s.faults.setIfInBounds i { (s.faults[i]?.getD {}) with abort := v.getLsbD 62 } }
    else s

/-- The checks of an access (R113, R361): the strand it selects, or the cause of its trap. -/
def State.crAccess (s : State) (n : Nat) : Except Nat SId :=
  if 0x100 ≤ n && !s.me.priv then .error causePrivileged
  else match crHome n with
    | none => .error causeIllegal
    | some .target => match s.crTargetOf s.cur with
      | some t => .ok t
      | none => .error causeIllegal
    | some _ => .ok s.cur

/-- CRRD d, #num (R113). -/
def execCrrd (f : RF) (x : Ext) (s : State) : Host.Outcome State Fault Refusal :=
  .next (match s.crAccess x.immA with
    | .error c => s.trap c 0
    | .ok t => s.issue 0 [] [.s f.d false] noTrap fun o s =>
      let s := s.putS f.d (o.crRead t (dieOf o.cur.core) x.immA)
      (if x.immA = 0x300 then s.clearFabCount else s).retire 3)

/-- A value of CR_TARGET that the strand may not write (R361): a crew strand names its own core alone. -/
def targetForbidden (sid : SId) (v : Word) : Bool :=
  sid.pos < 16 && sid.core < 256 && v.getLsbD 15 && (v.getLsbD 13 || field v.toNat 0 8 != sid.core)

/-- CR_TARGET_WRITE (R361): the target is set, or the strand traps. -/
def execCrTargetWrite (sid : SId) (v : Word) (s : State) : Host.Outcome State Fault Refusal :=
  .next (if targetForbidden sid v then s.trapOf sid causePrivileged else s.crWrite sid (dieOf sid.core) 0x108 v)

/-- CRWR #num, a (R113, R193, R361): a privileged register waits for the strand's earlier accesses; a write of MIG_FREE lasts
until the frame's mark is cleared. -/
def execCrwr (f : RF) (x : Ext) (s : State) : Host.Outcome State Fault Refusal :=
  let n := x.immA
  guardPhysical (match s.crAccess n with
    | .error c => s.trap c 0
    | .ok t => s.withSources 0 [.s f.a f.ta] [] fun s =>
      let v := s.sval f.a
      let d := dieOf s.cur.core
      if n = 0x108 && targetForbidden s.cur v then s.trap causePrivileged 0
      else if 0x100 ≤ n && !s.quiet s.cur then s.lend .poll
      else if n = 0x215 && s.markClearable ((frameBits v).toNat / 16384) then (s.freeFrame v).lend .poll
      else ((s.popAll [.s f.a f.ta]).retire 3).crWrite t d n v)

/-! ### FENCE, HALT, PPOINT (R239, R307, R342, R362, R376) -/

/-- The place of a request is one whose completion a FENCE at a scope waits for: the device's own memory and slots, from .host on host
memory, from .chs on other devices (R336, R342). -/
def State.fenced (s : State) (scope : Nat) (r : Req) : Bool :=
  r.ofStrand s.cur && (if r.space = 1 || r.elems.any (·.host) then 6 ≤ scope else r.space = 0 || (r.space = 3 && r.peer = s.device) || 7 ≤ scope)

/-- A reliable message of the running strand is not acknowledged (R319, R342). -/
def State.unacknowledged (s : State) : Bool :=
  (s.myCore.inject ++ s.myCore.spilled ++ s.myCore.kept.map (·.1)).any fun m =>
    reliableMsg m && m.op != opReply && field m.tag 16 8 == s.cur.pos

/-- A REDUCE of the running strand has not been delivered (R329). -/
def State.reducing (s : State) : Bool := s.jobs.any fun j => j.waits.any fun w => w.sid == some s.cur

/-- What FENCE orders has not all taken effect (R307, R329, R340, R342): loads and map operations under .acq; every access under .rel, .ar and
.sc, a REDUCE with them, from .chs on the multicast stores, the Sleet messages and what is not acknowledged too; at .grp the group's multicast
stores under any order; nothing at scope .strand. R329 does not say whether a REDUCE is also a load: the model's .acq does not wait for it
(DESIGN CHOICE, log 8). -/
def State.fenceWaits (s : State) (order scope : Nat) (group : Option Nat) : Bool :=
  if scope = 0 || order = 0 then false
  else
    s.mapPending s.cur || (s.reqs.any fun r => s.fenced scope r && (order ≠ 1 || r.kind.reads)) ||
      (order ≠ 1 && s.reducing) || (order ≠ 1 && 7 ≤ scope && (s.unacknowledged || s.unapplied.any fun u => u.sid == s.cur)) ||
      (scope = 10 && s.unapplied.any fun u => u.sid == s.cur && u.group == group && group.isSome)

/-- FENCE (R307): waits; an acquire side makes what relaxed loads have read count, a release side the stores after it, at its scope (R305, R338);
then it discards the core's fetched words under .i. -/
def fenceForm (words : Nat) (f : RF) (order scope : Nat) (group : Option Nat) (s : State) : State :=
  if s.fenceWaits order scope group then s.lend .poll
  else
    let s := if scope = 0 || order = 0 then s else s.modMe fun st =>
      { st with
        heard := if order = 2 then st.heard else s.heardFenced (scope, group)
        fenced := if order = 1 then st.fenced else ((scope, group) :: st.fenced).eraseDups }
    (if f.qf.getLsbD 0 then s.modMyCore fun c => { c with icache := [] } else s).retire words

/-- FENCE, LEN 00: FENCE.sc.dev (R307). -/
def execFence (f : RF) (s : State) : Host.Outcome State Fault Refusal := .next (fenceForm 1 f 4 5 none s)

/-- FENCE with an order, a scope and, at .grp, a membership that the task must hold (R307, R340, R342, R400). -/
def execFenceExt (f : RF) (x : Ext) (s : State) : Host.Outcome State Fault Refusal :=
  let group := if s.noTask then none else s.myTask?.bind fun t => (t.memb[x.immA]?).getD none
  .next (if x.scope = 10 && group.isNone then s.trap causeIllegal 0 else fenceForm 3 f x.order.toNat x.scope.toNat group s)

/-- HALT (R362, R369, R376): a supervisor strand with a pending interrupt goes on; the Hasp strand stops. -/
def execHalt (s : State) : Host.Outcome State Fault Refusal :=
  .next (s.privileged fun s =>
    let sup := s.isSup
    let hasp := s.isHasp
    let s := s.retire 1
    if sup && s.me.irq then s.modMe fun st => { st with irq := false }
    else if hasp then (s.modMe fun st => { st with halted := true }).modMyCore fun c => { c with haspOn := false }
    else s.modMe fun st => { st with halted := true })

/-- PPOINT a (R30, R239, R400): with a pre-emption pending, the first one decides the live mask and the pre-emption takes
effect. -/
def execPpoint (f : RF) (s : State) : Host.Outcome State Fault Refusal :=
  .next (if s.isHasp || s.isSup then s.retire 1
    else s.issue 0 [.s f.a f.ta] [] noTrap fun o s =>
      let w := o.myCrew
      let s := s.retire 1
      match w.preempt with
      | some p =>
        if w.stopped || p.mask.isSome then s
        else ((s.modMyCrew fun w => { w with preempt := some { p with mask := some ((o.sval f.a).setWidth 8) } }).post 0
          (.preemptTakeEffect o.cur.core w.task))
      | none => s)

end Sys2Proof.Machine
end

