-- ==== Sys2Proof/Machine/Float.lean ====
section
/-! DEFINITION. The scalar floating-point instructions (spec 05_issue R104, R110-R112): bits [31:0] of a source are read
as FP32, the result is written zero-extended. -/

namespace Sys2Proof.Machine

/-- The FP32 pattern in a scalar register. -/
def lo32 (x : Word) : Nat := x.toNat % 2 ^ 32

/-- d := F(a, b), ready for the strand's next issue (R96). -/
def fBin (g : Nat → Nat → Nat) (f : RF) (s : State) : State :=
  s.issue 0 [.s f.a f.ta, .s f.b f.tb] [.s f.d false] noTrap fun o s =>
    (s.putS f.d (BitVec.ofNat 64 (g (lo32 (o.sval f.a)) (lo32 (o.sval f.b))))).retire 1

/-- d := F(a) of all 64 bits of a. -/
def fUn (g : Word → Word) (f : RF) (s : State) : State :=
  s.issue 0 [.s f.a f.ta] [.s f.d false] noTrap fun o s => (s.putS f.d (g (o.sval f.a))).retire 1

/-- d := F(a), landing after `lat` cycles (R96). -/
def fUnSlow (lat : Nat) (g : Nat → Nat) (f : RF) (s : State) : State :=
  s.issue 0 [.s f.a f.ta] [.s f.d false] noTrap fun o s =>
    (s.laterS lat f.d (BitVec.ofNat 64 (g (lo32 (o.sval f.a))))).retire 1

/-- FADD (R110). -/
def execFadd (f : RF) (s : State) : Host.Outcome State Fault Refusal :=
  .next (fBin (Fmt.f32.add (RMode.ofQf f.qf)) f s)

/-- FSUB (R110). -/
def execFsub (f : RF) (s : State) : Host.Outcome State Fault Refusal :=
  .next (fBin (Fmt.f32.sub (RMode.ofQf f.qf)) f s)

/-- FMUL (R110). -/
def execFmul (f : RF) (s : State) : Host.Outcome State Fault Refusal :=
  .next (fBin (Fmt.f32.mul (RMode.ofQf f.qf)) f s)

/-- FDIV (R110): 16 cycles (R96). -/
def execFdiv (f : RF) (s : State) : Host.Outcome State Fault Refusal :=
  .next (s.issue 0 [.s f.a f.ta, .s f.b f.tb] [.s f.d false] noTrap fun o s =>
    (s.laterS 16 f.d (BitVec.ofNat 64 (Fmt.f32.div (RMode.ofQf f.qf) (lo32 (o.sval f.a)) (lo32 (o.sval f.b))))).retire 1)

/-- FMIN (R70, R110). -/
def execFmin (f : RF) (s : State) : Host.Outcome State Fault Refusal :=
  .next (fBin Fmt.f32.min f s)

/-- FMAX (R70, R110). -/
def execFmax (f : RF) (s : State) : Host.Outcome State Fault Refusal :=
  .next (fBin Fmt.f32.max f s)

/-- FSQRT (R110): 16 cycles (R96). -/
def execFsqrt (f : RF) (s : State) : Host.Outcome State Fault Refusal :=
  .next (fUnSlow 16 (Fmt.f32.sqrt (RMode.ofQf f.qf)) f s)

/-- FMA (R110): d := Round(a * b + d[31:0]), d waited for. -/
def execFma (f : RF) (s : State) : Host.Outcome State Fault Refusal :=
  .next (s.issue 0 [.s f.a f.ta, .s f.b f.tb, .s f.d false] [.s f.d false] noTrap fun o s =>
    (s.putS f.d (BitVec.ofNat 64 (Fmt.f32.fma (RMode.ofQf f.qf) (lo32 (o.sval f.a)) (lo32 (o.sval f.b))
      (lo32 (o.sval f.d))))).retire 1)

/-- CVTFI (R111). -/
def execCvtfi (f : RF) (s : State) : Host.Outcome State Fault Refusal :=
  .next (fUn (fun x => word (Fmt.f32.toInt (RMode.ofQf f.qf) (-2 ^ 63) (2 ^ 63 - 1) (lo32 x))) f s)

/-- CVTFN (R111). -/
def execCvtfn (f : RF) (s : State) : Host.Outcome State Fault Refusal :=
  .next (fUn (fun x => word (Fmt.f32.toInt (RMode.ofQf f.qf) 0 (2 ^ 64 - 1) (lo32 x))) f s)

/-- CVTIF (R111): all 64 bits of a. -/
def execCvtif (f : RF) (s : State) : Host.Outcome State Fault Refusal :=
  .next (fUn (fun x => BitVec.ofNat 64 (Fmt.f32.ofInt (RMode.ofQf f.qf) x.toInt)) f s)

/-- CVTNF (R111): all 64 bits of a. -/
def execCvtnf (f : RF) (s : State) : Host.Outcome State Fault Refusal :=
  .next (fUn (fun x => BitVec.ofNat 64 (Fmt.f32.ofInt (RMode.ofQf f.qf) x.toNat)) f s)

/-- FCLASS (R111). -/
def execFclass (f : RF) (s : State) : Host.Outcome State Fault Refusal :=
  .next (fUn (fun x => BitVec.ofNat 64 (classOf (lo32 x))) f s)

/-- FEXP2 (R112): 12 cycles (R96). -/
def execFexp2 (f : RF) (s : State) : Host.Outcome State Fault Refusal :=
  .next (fUnSlow 12 exp2Bits f s)

/-- FLOG2 (R112): 12 cycles (R96). -/
def execFlog2 (f : RF) (s : State) : Host.Outcome State Fault Refusal :=
  .next (fUnSlow 12 log2Bits f s)

/-- FRCP (R112): 12 cycles (R96). -/
def execFrcp (f : RF) (s : State) : Host.Outcome State Fault Refusal :=
  .next (fUnSlow 12 rcpBits f s)

/-- FRSQ (R112): 12 cycles (R96). -/
def execFrsq (f : RF) (s : State) : Host.Outcome State Fault Refusal :=
  .next (fUnSlow 12 rsqrtBits f s)

/-- FCMP (R104): the skip count stands in QF. -/
def execFcmp (f : RF) (op : BitVec 5) (s : State) : Host.Outcome State Fault Refusal :=
  .next (s.issue 0 [.s f.a f.ta, .s f.b f.tb] [] noTrap fun o s =>
    (s.skipUnless (condFloat op .f32 (lo32 (o.sval f.a)) (lo32 (o.sval f.b))) f.qf).retire 1)

end Sys2Proof.Machine
end

