-- ==== Sys2Proof/Machine/Launch.lean ====
section
/-! DEFINITION. The submission and completion rings, and what a LAUNCH checks and loads (spec 14 R265-R268, R276, R286, R401; 18
R313, R325; 21 R375; 23 R382-R386). -/

namespace Sys2Proof.Machine

/-! ### Rings, and what the hub looks for when nothing runs (R381-R384, R393, R394, R396) -/

/-- The number of entries of a ring: 2^4 to 2^12 (R381). -/
def ringSize (log : BitVec 4) : Nat := 2 ^ min 12 (max 4 log.toNat)

/-- An index after another in a ring. -/
def ringNext (size : Nat) (i : BitVec 12) : BitVec 12 := BitVec.ofNat 12 ((i.toNat + 1) % size)

/-- No submission waits, and the host has read every completion (R394). -/
def Bar.ringsEmpty (b : Bar) : Bool :=
  b.sqTail.toNat % ringSize b.sqLog == b.sqHead.toNat && b.cqWait.isEmpty && b.cqTail.toNat == b.cqHead.toNat % ringSize b.cqLog

/-- The hub is acting on a submission. -/
def State.submitting (s : State) : Bool := s.awaits fun e => match e with
  | .nop _ | .launch _ | .launchCheckDone _ | .kill _ | .attest _ | .unlock _ | .fwload _ => true
  | _ => false

/-- No job is active and the rings are empty. -/
def State.hubIdle (s : State) : Bool := s.jobs.isEmpty && s.bar.ringsEmpty && !s.submitting

/-- An event that is posted unless it is already to come. -/
def State.postOnce (s : State) (ev : Instr) : State := if s.awaits (· == ev) then s else s.post 0 ev

/-- What waits for the first moment without a job: a debug request, a power request, the idle state (R393, R394, R396). -/
def State.lookIdle (s : State) : State :=
  let s := if s.jobs.isEmpty && s.bar.dbgPend then s.postOnce .dbgReqApply else s
  if !s.hubIdle then s
  else if s.bar.pwrPend then s.postOnce .powerStateEnter
  else if s.bar.sec = 1 && s.bar.pwr = 0 && !s.awaits (· == .idleEnter) then s.postFree 1250000 .idleEnter
  else s

/-! ### Submissions (R382, R383) -/

/-- OP of an entry. -/
def subOp (b : List Byte) : Nat := field (dwordOf b 0) 0 8

/-- The fields of an entry. -/
def subEntry (b : List Byte) : SubEntry :=
  let d := dwordOf b 0
  let op := subOp b
  let bad := field d 9 7 ≠ 0 || field d 48 16 ≠ 0 || (bit d 8 && op ≠ 1) || (field d 32 16 ≠ 0 && op ≠ 2) ||
    field (dwordOf b 1) 52 12 ≠ 0 || (dwordOf b 1 ≠ 0 && (op = 0 || op = 2)) || ((b.drop 16).take 32 != List.replicate 32 0 && op ≠ 3) ||
    dwordOf b 6 ≠ 0 || dwordOf b 7 ≠ 0
  { dbg := bit d 8, tag := field d 16 16, pid := field d 32 16, addr := field (dwordOf b 1) 0 52, nonce := (b.drop 16).take 32, bad := bad }

/-- The event that acts on an entry; a reserved OP has none. -/
def subEvent (b : List Byte) : Option Instr :=
  let e := subEntry b
  match subOp b with
  | 0 => some (.nop e)
  | 1 => some (.launch e)
  | 2 => some (.kill e)
  | 3 => some (.attest e)
  | 4 => some (.unlock e)
  | 5 => some (.fwload e)
  | _ => none

/-- SQ_HEAD advances. -/
def State.sqAdvance (s : State) : State := s.modBar fun b => { b with sqHead := ringNext (ringSize b.sqLog) b.sqHead }

/-- The hub reads the next entry, if it may act on one. -/
def State.sqNext (s : State) : State :=
  let b := s.bar
  if b.sqTail.toNat % ringSize b.sqLog = b.sqHead.toNat || b.sec = 0 || b.pwr ≠ 0 || s.submitting || !b.cqWait.isEmpty then s.lookIdle
  else
    let entry := s.host.readBytes (b.sqBase.toNat + 64 * b.sqHead.toNat) 64
    match subEvent entry with
    | some (.launch e) => s.post 0 (.launch e)
    | some (.attest e) => s.sqAdvance.postFree 1250000000 (.attest e)
    | some ev => s.sqAdvance.post 0 ev
    | none => s.sqAdvance.complete ⟨(subEntry entry).tag, if b.sec = 2 then 14 else 11, 0, 0⟩

/-- SQ_TAIL_DOORBELL (R383, R394, R396). -/
def execSqTailDoorbell (v : Word) (s : State) : Host.Outcome State Fault Refusal :=
  .next ((s.modBar fun b => { b with sqTail := v.setWidth 12, pwrPend := false }).wake.sqNext)

/-- An entry completes with a status. -/
def State.answer (s : State) (e : SubEntry) (status pid index : Nat) : State := s.complete ⟨e.tag, status, pid, index⟩

/-- NOP (R382, R384). -/
def execNop (e : SubEntry) (s : State) : Host.Outcome State Fault Refusal :=
  .next (s.answer e (if e.bad then 11 else 0) 0 0)

/-- The host may see the next entry of the completion ring written. -/
def Bar.cqRoom (b : Bar) : Bool :=
  (b.cqTail.toNat + ringSize b.cqLog - b.cqHead.toNat % ringSize b.cqLog) % ringSize b.cqLog ≠ ringSize b.cqLog - 1

/-- COMPLETION_WRITE (R380, R384): the oldest completion is written once there is room. -/
def execCompletionWrite (s : State) : Host.Outcome State Fault Refusal :=
  .next (match s.bar.cqWait with
    | [] => s.sqNext
    | c :: rest =>
      if !s.bar.cqRoom then s
      else
        let b := s.bar
        let a := b.cqBase.toNat + 16 * b.cqTail.toNat
        let d0 := c.tag % 2 ^ 16 + c.status % 2 ^ 8 * 2 ^ 16 + c.pid % 2 ^ 16 * 2 ^ 32 + boolNat b.cqPhase * 2 ^ 63
        let tail := ringNext (ringSize b.cqLog) b.cqTail
        let s : State := { s with
          host := s.host.write a (bytesOfNat 8 d0 ++ bytesOfNat 8 c.index)
          bar := { b with cqWait := rest, cqTail := tail, cqPhase := if tail = 0 then !b.cqPhase else b.cqPhase }
          msix := s.msix ||| 1#4 }
        let s := s.wrote 1 a 16
        if rest.isEmpty then s.sqNext else s.post 0 .completionWrite)

/-! ### LAUNCH: judging the entry (R265, R383-R386, R401) -/

/-- A device number names a device of the system (R313). -/
def State.names (s : State) (n : Nat) : Bool := n < 2 ^ 13 && field n 3 5 < s.xext && field n 8 5 < s.yext

/-- A table of `n` bytes stands in device memory at a multiple of `align` (R265, R266 status 1). -/
def tableAt (v align n : Nat) : Bool := field v 52 12 = 0 && v % align = 0 && v + n ≤ memSize

/-- A job descriptor keeps R265. -/
def descOk (b : List Byte) : Bool :=
  let d := dwordOf b
  let ntasks := field (d 0) 16 14 + 1
  let nchan := field (d 0) 32 13
  field (d 0) 30 2 = 0 && field (d 0) 45 19 = 0 && nchan ≤ 4096 && field (d 8) 32 32 = 0 &&
    (b.drop 72).all (· == 0) &&
    tableAt (d 1) 16384 16384 && tableAt (d 2) 64 (65536 * 64) && tableAt (d 3) 128 (128 * ntasks) && tableAt (d 4) 32 (32 * nchan) &&
    tableAt (d 5) 64 (256 * 64) && tableAt (d 6) 8 512 && tableAt (d 7) (2 ^ 20) (2 ^ 20)

/-- The job of a descriptor, before its launch is accepted. -/
def jobOf (b : List Byte) (e : SubEntry) : Job :=
  let d := dwordOf b
  { pid := field (d 0) 0 16, root := d 1, layout := d 2, tasksAt := d 3, chansAt := d 4, groupsAt := d 5, smapDir := d 6, jobArea := d 7
    sendStall := field (d 8) 0 32, nchan := field (d 0) 32 13, tag := e.tag, dbg := e.dbg, live := false, wide := false, done := false
    tasks := (List.range (field (d 0) 16 14 + 1)).map fun i =>
      { index := i, entry := 0, arg := 0, ctx := 0, nsm1 := 0, cls := 0, start := false, crit := false, aff := 0, floor := {}, claim := {},
        memb := [], chans := [], phase := .idle, ran := false, fromCut := false, lastCore := none, bound := false, saved := none, epoch := 0,
        recorded := false, kept := [] }
    chans := [], groups := [], barriers := [], seqs := [], members := [], rounds := [], waits := [], nextRound := [], early := [] }

/-- The status for which a LAUNCH is refused at once (R383): 9 to 12 in the order of their numbers. -/
def State.launchRefused (s : State) (e : SubEntry) (readable : Bool) (pid : Nat) : Option Nat :=
  if s.bar.sec ≠ 1 then some 14
  else if e.dbg && s.bar.dbg = 0 then some 9
  else if !(s.bar.drvLo.getLsbD 0) then some 10
  else if e.bad then some 11
  else if readable && (s.job? pid).isSome then some 12
  else none

/-! ### The checks of R266 -/

/-- The 128 bytes of a task descriptor, the 32 of a channel descriptor, the 64 of a group entry. -/
def State.taskBytes (s : State) (j : Job) (i : Nat) : List Byte := s.mem.readBytes (j.tasksAt + 128 * i) 128
def State.chanBytes (s : State) (j : Job) (n : Nat) : List Byte := s.mem.readBytes (j.chansAt + 32 * n) 32
def State.groupBytes (s : State) (j : Job) (g : Nat) : List Byte := s.mem.readBytes (j.groupsAt + 64 * g) 64

/-- A list names something twice. -/
def repeats (l : List Nat) : Bool := l.eraseDups.length != l.length

/-- The memberships of a task descriptor (R268). -/
def membOf (b : List Byte) : List (Option Nat) :=
  (List.range 4).map fun m => if bit (dwordOf b 4) (32 + m) then some (field (dwordOf b 4) (8 * m) 8) else none

/-- The channel list of a task descriptor (R268). -/
def chansOf (b : List Byte) : List (Option (Bool × Nat)) :=
  (List.range 32).map fun i =>
    let h := natOfBytes ((b.drop (64 + 2 * i)).take 2)
    if bit h 15 then some (bit h 14, field h 0 12) else none

/-- A resource field pair is out of range (R268). -/
def rangeBad (floor claim top : Nat) : Bool := claim < floor || top < claim

/-- A task descriptor breaks R268, or has neither START nor a valid input (R266 status 2). -/
def taskBad (nchan : Nat) (b : List Byte) : Bool :=
  let d := dwordOf b
  let half := fun i => natOfBytes ((b.drop (64 + 2 * i)).take 2)
  field (d 0) 0 2 ≠ 0 || field (d 0) 58 6 ≠ 0 || field (d 2) 0 12 ≠ 0 || field (d 2) 52 12 ≠ 0 ||
    rangeBad (field (d 3) 12 8) (field (d 3) 32 8) 252 || rangeBad (field (d 3) 20 8) (field (d 3) 40 8) 248 ||
    rangeBad (field (d 3) 28 4) (field (d 3) 48 4) 8 || field (d 3) 52 12 ≠ 0 || field (d 4) 36 28 ≠ 0 ||
    (List.range 4).any (fun m => !bit (d 4) (32 + m) && field (d 4) (8 * m) 8 ≠ 0) || repeats ((membOf b).filterMap id) ||
    d 6 ≠ 0 || d 7 ≠ 0 || (List.range 32).any (fun i => field (half i) 12 2 ≠ 0 || (bit (half i) 15 && nchan ≤ field (half i) 0 12)) ||
    (!bit (d 3) 6 && !(chansOf b).any fun c => c.any fun p => p.1)

/-- The task of a descriptor. -/
def taskOf (i : Nat) (b : List Byte) : Task :=
  let d := dwordOf b
  { index := i, entry := BitVec.ofNat 64 (d 0), arg := BitVec.ofNat 64 (d 1), ctx := d 2, nsm1 := field (d 3) 0 4, cls := field (d 3) 4 2
    start := bit (d 3) 6, crit := bit (d 3) 7, aff := BitVec.ofNat 4 (field (d 3) 8 4)
    floor := ⟨field (d 3) 12 8, field (d 3) 20 8, field (d 3) 28 4⟩, claim := ⟨field (d 3) 32 8, field (d 3) 40 8, field (d 3) 48 4⟩
    memb := membOf b, chans := chansOf b, phase := .idle, ran := false, fromCut := false, lastCore := none, bound := false, saved := none
    epoch := 0, recorded := false, kept := [] }

/-- The channel of a descriptor, as it stands at launch (R276). -/
def chanOf (n cycle : Nat) (b : List Byte) : Channel :=
  let d := dwordOf b
  let cap := field (d 1) 0 16 + 1
  let pre := field (d 1) 32 17
  { num := n, base := d 0, cap := cap, scope := field (d 1) 16 4, homeDie := field (d 1) 20 2, pdev := field (d 2) 0 16
    ptask := field (d 2) 16 14, pnone := bit (d 2) 30, cdev := field (d 2) 32 16, ctask := field (d 2) 48 14, head := 0, tail := pre % cap
    count := pre, closedP := false, closedC := false, marker := none, sends := [], recvs := [], parked := false, sink := false
    lostEos := false, moved := cycle }

/-- The tokens that a channel's ring is preloaded with. -/
def State.preloaded (s : State) (c : Channel) : List Nat := (List.range c.count).map fun i => s.mem.readNat (c.base + 8 * i) 8

/-- A task of this device is confined to one die. -/
def confined (tasks : List Task) (t die : Nat) : Bool := tasks.any fun x => x.index == t && x.aff == BitVec.ofNat 4 (2 ^ die)

/-- A channel descriptor breaks R276 or names no device (R313). -/
def State.chanBad (s : State) (tasks : List Task) (c : Channel) (b : List Byte) : Bool :=
  let d := dwordOf b
  let pre := s.preloaded c
  field (d 0) 0 3 ≠ 0 || field (d 0) 52 12 ≠ 0 || c.cap < 16 || !([4, 5, 8, 9].contains c.scope) || field (d 1) 22 10 ≠ 0 ||
    c.cap < c.count || field (d 1) 49 15 ≠ 0 || bit (d 2) 31 || field (d 2) 62 2 ≠ 0 || d 3 ≠ 0 ||
    !s.names c.cdev || (!c.pnone && !s.names c.pdev) ||
    (c.pnone && c.count == 0) ||
    (c.cdev == s.device && (if c.pnone then !(pre.getLast?.any fun t => bit t 63) else pre.any fun t => bit t 63)) ||
    (c.scope == 4 && ((!c.pnone && c.pdev != c.cdev) || (c.cdev == s.device && !confined tasks c.ctask c.homeDie) ||
      (!c.pnone && c.pdev == s.device && !confined tasks c.ptask c.homeDie))) ||
    (c.scope == 5 && c.pdev != c.cdev)

/-- The group of an entry of a kind other than 00 (R286, R325). -/
def groupOf (g : Nat) (b : List Byte) : Group :=
  let d := dwordOf b
  { index := g, kind := field (d 0) 62 2, homeDie := field (d 0) 56 2, homeDev := field (d 0) 40 16, nmemb := field (d 0) 0 32
    members := field (d 1) 0 52, rwords := field (d 2) 0 12, sleet := bit (d 2) 0, tmo := field (d 2) 16 16, report := field (d 3) 0 52 }

/-- A member entry of an ordered group breaks R325. -/
def State.memberBad (s : State) (g : Group) (i : Nat) : Bool :=
  let (base, dev) := s.orderedMember g i
  field (s.mem.readNat (g.members + 16 * i) 8) 52 12 ≠ 0 || field (s.mem.readNat (g.members + 16 * i + 8) 8) 16 48 ≠ 0 || base % 64 ≠ 0 ||
    16384 < base % 16384 + 8 * g.rwords || !s.names dev

/-- A group entry breaks R286 or R325. -/
def State.groupBad (s : State) (g : Group) (b : List Byte) : Bool :=
  let d := dwordOf b
  let rest := fun n => (List.range' n (8 - n)).any fun i => d i ≠ 0
  field (d 0) 58 4 ≠ 0 || field (d 0) 32 8 ≠ 0 || !s.names g.homeDev ||
    (if g.kind = groupBarrier then rest 1
    else g.homeDie ≠ 0 || rest 4 ||
      (if g.kind = groupOrdered then
        !tableAt (d 1) 16 (16 * g.nmemb) || field (d 2) 12 52 ≠ 0 || g.rwords < 3 || 2048 < g.rwords || d 3 ≠ 0 || g.nmemb < 1 ||
          1024 < g.nmemb || (List.range g.nmemb).any (s.memberBad g)
      else
        !tableAt (d 1) 8 (2 * g.nmemb) || field (d 2) 1 15 ≠ 0 || field (d 2) 32 32 ≠ 0 || g.tmo < 1 ||
          !tableAt (d 3) 64 (64 * ((g.nmemb + 511) / 512)) || g.nmemb < 1 || 8192 < g.nmemb ||
          !((List.range g.nmemb).all fun i => s.names (s.memberDev g i)) || repeats ((List.range g.nmemb).map (s.memberDev g))))

/-- A layout record names no device (R266 status 1, R313); a record without a set bit is not looked at. -/
def State.layoutBad (s : State) (j : Job) : Bool :=
  let near := s.mem.filter fun c => j.layout ≤ c.1 && c.1 < j.layout + 65536 * 64
  ((near.map fun c => (c.1 - j.layout) / 64).eraseDups).any fun h =>
    let r := s.mem.readNat (j.layout + 64 * h) 64
    recValid r && 2 ≤ recSpace r && !s.names (recPeer r)

/-- A task's channel list disagrees with the descriptors (R266 status 4). -/
def State.listBad (s : State) (chans : List Channel) (t : Task) : Bool :=
  t.chans.any fun e => match e with
    | none => false
    | some (input, n) => match chans.find? fun c => c.num == n with
      | none => true
      | some c => if input then c.cdev != s.device || c.ctask != t.index else c.pnone || c.pdev != s.device || c.ptask != t.index

/-- A channel is missing from the list of a task of this device that it names (R266 status 4). -/
def State.unlisted (s : State) (tasks : List Task) (c : Channel) : Bool :=
  let lists := fun (t : Nat) (e : Bool × Nat) => tasks.any fun x => x.index == t && x.chans.contains (some e)
  (c.cdev == s.device && !lists c.ctask (true, c.num)) || (!c.pnone && c.pdev == s.device && !lists c.ptask (false, c.num))

/-- How many tasks hold a membership of a group. -/
def membersNamed (tasks : List Task) (g : Nat) : Nat := (tasks.filter fun t => t.memb.contains (some g)).length

/-- A declared tile operand is no tile (R266 status 7). -/
def State.topBad (s : State) (j : Job) (b : List Byte) : Bool :=
  (List.range 4).any fun m =>
    let h := field (dwordOf b 5) (16 * m) 16
    let r := s.mem.readNat (j.layout + 64 * h) 64
    h ≠ 0xFFFF && !(recValid r && 9 ≤ recFormat r && recFormat r ≤ 11)

/-- What a launch has read: tasks, channels and groups. -/
structure Tables where
  tasks : List Task
  chans : List Channel
  groups : List Group

/-- The tables of a job. -/
def State.tables (s : State) (j : Job) : Tables :=
  { tasks := (List.range j.tasks.length).map fun i => taskOf i (s.taskBytes j i)
    chans := (List.range j.nchan).map fun n => chanOf n s.cycle (s.chanBytes j n)
    groups := ((List.range 256).map fun g => groupOf g (s.groupBytes j g)).filter fun g => g.kind ≠ 0 }

/-- A valid layout record of the job reaches another device (R177, R266). -/
def State.layoutFar (s : State) (j : Job) : Bool :=
  let near := s.mem.filter fun c => j.layout ≤ c.1 && c.1 < j.layout + 65536 * 64
  ((near.map fun c => (c.1 - j.layout) / 64).eraseDups).any fun h =>
    let r := s.mem.readNat (j.layout + 64 * h) 64
    recValid r && 2 ≤ recSpace r && recPeer r != s.device

/-- The tables say that the job has another device (R266): one names it, or a barrier homed here has members that no task here is. -/
def State.spans (s : State) (j : Job) (t : Tables) : Bool :=
  s.layoutFar j || t.groups.any (fun g => g.kind == groupBarrier && membersNamed t.tasks g.index < g.nmemb) || t.chans.any (fun c => c.cdev != s.device || (!c.pnone && c.pdev != s.device)) ||
    t.groups.any fun g => g.homeDev != s.device || (g.kind ≠ groupBarrier && (List.range g.nmemb).any fun i => s.memberDev g i != s.device)

/-- The job has parts on other devices: where its tables do not say so, its PID alone may link it to them, which nothing here shows
(R266, R401; log 7). -/
def State.drawWide (s : State) (j : Job) : Bool × State :=
  if s.spans j (s.tables j) then (true, s)
  else
    let (n, s) := s.fresh
    (n % 2 == 0, s)

/-- The first condition of R266 that fails on this device, with its index. -/
def State.launchFails (s : State) (j : Job) (t : Tables) : Option (Nat × Nat) :=
  let first := fun (st : Nat) (l : List Nat) => l.head?.map fun i => (st, i)
  (if s.layoutBad j then some (1, 0) else none)
  <|> first 2 ((List.range j.tasks.length).filter fun i => taskBad j.nchan (s.taskBytes j i))
  <|> first 3 ((t.chans.filter fun c => s.chanBad t.tasks c (s.chanBytes j c.num)).map (·.num))
  <|> first 4 ((t.tasks.filter fun x => s.listBad t.chans x).map (·.index))
  <|> first 4 ((t.chans.filter fun c => s.unlisted t.tasks c).map (·.num))
  <|> first 5 ((t.groups.filter fun g => s.groupBad g (s.groupBytes j g.index)).map (·.index))
  <|> first 5 (t.tasks.flatMap fun x => (x.memb.filterMap id).filter fun g => !t.groups.any fun y => y.index == g)
  <|> first 5 ((t.groups.filter fun g => g.kind == groupReduction && 1 < membersNamed t.tasks g.index).map (·.index))
  <|> first 6 ((t.groups.filter fun g => g.kind == groupBarrier &&
      (if j.wide then g.nmemb < membersNamed t.tasks g.index else membersNamed t.tasks g.index != g.nmemb)).map (·.index))
  <|> first 7 ((List.range j.tasks.length).filter fun i => s.topBad j (s.taskBytes j i))

/-- The verdict with the other devices' part, which is free for a job that spans devices (log 7). -/
def State.verdict (s : State) (j : Job) (t : Tables) : Option (Nat × Nat) × State :=
  let mine := s.launchFails j t
  if !j.wide then (mine, s)
  else
    let (n, s) := s.fresh
    let other := if n % 8 = 0 then none else some (n % 8, if n % 8 = 1 then 0 else n / 8 % 2 ^ 32)
    match mine, other with
    | some m, some o => (some (if o.1 < m.1 then o else m), s)
    | m, o => (m <|> o, s)

/-- LAUNCH (R383, R385, R401): refused at once, waiting for one of the 16 places, or checked; the time is that of the slowest device of
the job, so that of the largest tables where other devices take part. -/
def execLaunch (e : SubEntry) (s : State) : Host.Outcome State Fault Refusal :=
  .next (
    let readable := e.addr % 128 = 0 && e.addr + 128 ≤ memSize
    let b := s.mem.readBytes e.addr 128
    let (any, s) := if readable then (0, s) else s.fresh
    let pid := if readable then field (dwordOf b 0) 0 16 else any % 2 ^ 16
    match s.launchRefused e readable pid with
    | some st => s.sqAdvance.answer e st pid 0
    | none =>
      if 16 ≤ s.jobs.length then s.post 0 (.launch e)
      else if !readable || !descOk b then s.sqAdvance.answer e 1 pid 0
      else
        let j := jobOf b e
        let (wide, s) := s.drawWide j
        let n := if wide then 16384 + 4096 + 256 else j.tasks.length + j.nchan + 256
        ({ s with jobs := s.jobs ++ [{ j with wide := wide }] }.sqAdvance).postFree (25000 + 125 * n / 2) (.launchCheckDone pid))

/-! ### Loading an accepted launch (R97, R271, R272, R276, R288, R325, R375) -/

/-- A task resumes from image 1 when that holds KIND 2 with the launch's PID (R375). -/
def State.loadTask (s : State) (pid : Nat) (t : Task) : Task :=
  let d := fun i => s.mem.readNat (t.ctx + imageSize + 8 * i) 8
  if field (d 0) 30 2 ≠ 2 || field (d 0) 0 16 ≠ pid then t
  else
    let mask := BitVec.ofNat 8 (field (d 2) 16 8)
    { t with
      ran := true
      fromCut := true
      epoch := BitVec.ofNat 64 (d 1)
      saved := some (⟨field (d 2) 0 8, field (d 2) 8 8, ((List.range 8).filter mask.getLsbD).length⟩, mask)
      phase := if bit (d 0) 36 then .settled else .idle }

/-- A preloaded end-of-stream closes the producer's side (R276, R279). -/
def State.loadChan (s : State) (c : Channel) : Channel :=
  if c.cdev ≠ s.device then { c with count := 0, tail := 0 }
  else { c with closedP := (s.preloaded c).any fun t => bit t 63 }

/-- The barriers homed here, at their first phase (R288). -/
def State.loadBarriers (s : State) (t : Tables) : List Barrier :=
  (t.groups.filter fun g => g.kind == groupBarrier && g.homeDev == s.device).map fun g =>
    { group := g.index, ph := 0, e := g.nmemb, n := 0, d := 0, arr := [], drop := [], waiters := [] }

/-- The sequencers homed here (R326). -/
def State.loadSeqs (s : State) (t : Tables) : List Sequencer :=
  (t.groups.filter fun g => g.kind == groupOrdered && g.homeDev == s.device).map fun g =>
    { group := g.index, n := 0, acked := List.replicate g.nmemb 0, frozen := false, failed := 0, stable := 0, stores := [], queue := []
      told := false }

/-- The ordered groups with a member here (R327). -/
def State.loadMembers (s : State) (t : Tables) : List GroupMember :=
  (t.groups.filter fun g => g.kind == groupOrdered && !(s.membersOn g s.device).isEmpty).map fun g =>
    { group := g.index, applied := 0, early := [] }

/-- SEQ and STATUS of every member region on this device become 0 (R325). -/
def State.zeroRegions (s : State) (t : Tables) : State :=
  (t.groups.filter fun g => g.kind == groupOrdered).foldl (fun (s : State) g =>
    (s.membersOn g s.device).foldl (fun (s : State) i => s.hubStore (s.orderedMember g i).1 (List.replicate 16 0)) s) s

/-- A task that is not ready at launch waits as a pooled one, registered with its inputs (R272, R283). -/
def State.startTask (s : State) (pid : Nat) (t : Task) : State :=
  if t.phase = .settled then s
  else if t.start || t.ran then s.makeReady pid t.index (t.index % 4)
  else
    let s := s.modJob pid fun j => j.modTask t.index fun t => { t with phase := .parkedPooled }
    let s := t.inputs.foldl (fun (s : State) n => s.modChan pid n fun c => { c with parked := true }) s
    match t.inputs.filterMap (s.chan? pid) |>.find? fun c => c.count ≠ 0 with
    | some c => s.wakeTask pid t.index c.homeDie
    | none => s

/-- LAUNCH_CHECK_DONE (R266, R325, R372, R375, R385). -/
def execLaunchCheckDone (pid : Nat) (s : State) : Host.Outcome State Fault Refusal :=
  guardPhysical (
    match s.job? pid with
    | none => s
    | some j =>
      if j.live then s
      else
        let t := s.tables j
        match s.verdict j t with
        | (some (st, i), s) => ({ s with jobs := s.jobs.filter fun x => x.pid != pid }.applyDebug.complete ⟨j.tag, st, pid, i⟩)
        | (none, s) =>
          let tasks := t.tasks.map (s.loadTask pid)
          let s := s.modJob pid fun j =>
            { j with
              live := true
              tasks := tasks
              chans := t.chans.map s.loadChan
              groups := t.groups
              barriers := s.loadBarriers t
              seqs := s.loadSeqs t
              members := s.loadMembers t }
          let s := (s.modBar fun b => { b with launched := true }).zeroRegions t
          let s := tasks.foldl (fun (s : State) x => s.startTask pid x) s
          (s.complete ⟨j.tag, 0, pid, 0⟩).checkJob pid)

end Sys2Proof.Machine
end

