-- ==== Sys2Proof/Machine/Host.lean ====
section
/-! DEFINITION. The host interface beyond the rings: jobs' ends, attestation, unlocking, firmware, debug commands, power, the
registers, reset and the host's memory accesses (spec 23 R380, R381, R384, R387-R398; 07 R142). -/

namespace Sys2Proof.Machine

/-! ### How jobs end (R267, R384) -/

/-- KILL (R357, R384, R396). -/
def execKill (e : SubEntry) (s : State) : Host.Outcome State Fault Refusal :=
  guardPhysical (
    let s := s.modBar fun b => { b with pwrPend := false }
    if s.bar.sec ≠ 1 then s.answer e 14 e.pid 0
    else if e.bad then s.answer e 11 e.pid 0
    else if (s.job? e.pid).isNone then s.answer e 15 e.pid 0
    else ((s.killJob e.pid .killed).answer e 0 e.pid 0).endJob e.pid 0x81 0)

/-- Effects of a job that are still on their way: accesses that are neither held nor parked on a waiting list, and multicast
stores that some member has yet to apply. -/
def State.jobDrains (s : State) (j : Job) : Bool :=
  (s.reqs.any fun r => r.pid == j.pid && r.elems.any fun e => e.phase == .walk || e.phase == .home) ||
  (j.seqs.any fun q => !q.frozen && !(q.stores.isEmpty && q.queue.isEmpty)) ||
  s.awaits fun e => match e with
    | .mcstSequence op => op.pid == j.pid
    | .multicastApply pid _ _ _ _ => pid == j.pid
    | _ => false

/-- JOB_COMPLETE (R267, R384): what its settled tasks have stored and what is still on its way is done first (DEDUCED, log 1); a job of several devices ends when the others have finished too, at a time that nothing here
fixes (log 7). -/
def execJobComplete (pid : Nat) (s : State) : Host.Outcome State Fault Refusal :=
  .next (match s.job? pid with
    | none => s
    | some j =>
      if !s.jobOver { j with done := false } then s.modJob pid fun j => { j with done := false }
      else if s.jobDrains j then s.post 1 (.jobComplete pid)
      else if j.wide && !j.done then
        let (n, s) := s.fresh
        (s.modJob pid fun j => { j with done := n % 2 == 0 }).postFree 1250000 (.jobComplete pid)
      else s.endJob pid 0x80 0)

/-! ### The root of trust (R387-R391) -/

/-- The first `n` bytes, filled up with zeros. -/
def fitBytes (n : Nat) (l : List Byte) : List Byte := (l ++ List.replicate n 0).take n

/-- ROLLBACK (R388). -/
def Trust.counter (t : Trust) : Nat := max Config.rollbackFuse t.rollback

/-- STATE (R381). -/
def Bar.stateWord (b : Bar) : Word := BitVec.ofNat 64 (b.pwr.toNat * 16 + b.dbg.toNat * 4 + b.sec.toNat)

/-- The signed part of a report (R389). -/
def State.reportBody (s : State) (nonce : List Byte) : List Byte :=
  fitBytes 512 (bytesOfNat 8 1 ++ fitBytes 32 nonce ++ fitBytes 64 Config.publicKey ++ bytesOfNat 8 s.bar.stateWord.toNat ++
    bytesOfNat 8 (s.bar.drvLo &&& 0x7FF).toNat ++ bytesOfNat 8 0 ++ bytesOfNat 8 s.trust.counter ++ s.trust.meas.flatMap (bytesOfNat 64))

/-- ATTEST (R382, R389, R397). -/
def execAttest (e : SubEntry) (s : State) : Host.Outcome State Fault Refusal :=
  guardPhysical (
    if e.bad || e.addr % 4096 ≠ 0 then s.answer e 11 0 0
    else if s.bar.dbg = 2 then s.answer e 13 0 0
    else
      let body := s.reportBody e.nonce
      (s.hubStore e.addr (body ++ fitBytes 29792 (Config.slhSign body))).answer e 0 0 0)

/-- A token opens this device (R391). -/
def State.tokenOk (s : State) (tok : List Byte) : Bool :=
  natOfBytes (tok.take 32) == Config.shake256 256 Config.publicKey && natOfBytes ((tok.drop 32).take 8) == s.bar.nonce.toNat &&
    tok.getD 40 0 == 2 && ((tok.drop 41).take 23).all (· == 0) && Config.slhVerify (tok.take 64) (tok.drop 64)

/-- Every job ends by KILL or UNLOCK (R384, R391). -/
def State.killAll (s : State) : State :=
  s.jobs.foldl (fun (s : State) j => (s.killJob j.pid .killed).endJob j.pid 0x81 0) s

/-- A core after an unlock: slot store, register space and accumulator slots are zero, and what the killed jobs' entries had still to
move is dropped with their crews (R391). -/
def Core.erase (c : Core) : Core :=
  let hasp : Crew := { c.hasp with window := [] }
  let ended := c.ended.map fun (w : Crew) => { w with window := [] }
  let free (g : Engine) : Engine := if g.entry.any fun e => e.owner != .hasp then {} else g
  { c with slots := [], acs := Vector.replicate 8 {}, crews := [], ended := ended, hasp := hasp, engines := c.engines.map free }

/-- The killed jobs' requests that had been translated, and would still complete (R357), are dropped before memory is zeroed
(R391). -/
def State.dropRequests (s : State) (pids : List Nat) : State :=
  { s with reqs := s.reqs.filter fun r => !pids.contains r.pid }

/-- UNLOCK (R391, R397): the nonce is redrawn after each. -/
def execUnlock (e : SubEntry) (s : State) : Host.Outcome State Fault Refusal :=
  guardPhysical (
    let draw := fun (s : State) =>
      let (n, s) := s.fresh
      s.modBar fun b => { b with nonce := BitVec.ofNat 64 n }
    if s.bar.sec ≠ 1 then (draw s).answer e 14 0 0
    else if e.bad then (draw s).answer e 11 0 0
    else
      let (tok, s) := s.physRead e.addr 29856
      if !s.tokenOk tok then (draw s).answer e 16 0 0
      else
        let s := s.killAll.dropRequests (s.jobs.map (·.pid))
        let trust : Trust := { s.trust with identity := false, keyNo := s.trust.keyNo + 1 }
        let s : State := { s with trust := trust, mem := [], memErrors := [], cores := s.cores.map Core.erase }
        ((draw s).modBar fun b => { b with dbg := 2 }).tellState.answer e 0 0 0)

/-- What a cold reset leaves: the reset state, the fuses and the firmware store, a fresh context key, and the host's memory, which
is no part of the device (R371, R387, R388); the state register changes unless it read 0 (R380). -/
def State.coldReset (s : State) : State :=
  let t : State := { State.reset with
    freeCtr := s.freeCtr
    serial := s.serial
    host := s.host
    trust := { rollback := s.trust.rollback, keyNo := s.trust.keyNo + 1, store := s.trust.store } }
  if s.bar.stateWord = 0 then t else t.tellState

/-- The bytes of the image that FWLOAD names in host memory; its header tells its size (log 5). -/
def State.imageAt (s : State) (a : Nat) : List Byte := s.host.readBytes a (Config.fwSize (s.host.readBytes a 4096))

/-- An image is accepted: its signature, the last 29,792 bytes, verifies, and its version is not below ROLLBACK (R388). -/
def State.imageAccepted (s : State) (b : List Byte) : Bool :=
  Config.slhVerify (b.take (b.length - 29792)) (b.drop (b.length - 29792)) && s.trust.counter ≤ Config.fwVersion b

/-- FWLOAD (R388, R397): only without an active job. -/
def execFwload (e : SubEntry) (s : State) : Host.Outcome State Fault Refusal :=
  .next (
    if e.bad then s.answer e 11 0 0
    else if !s.jobs.isEmpty then s.answer e 14 0 0
    else
      let b := s.imageAt e.addr
      if !s.imageAccepted b then s.answer e 16 0 0
      else
        let trust : Trust := { s.trust with store := putAt s.trust.store (Config.fwKind b % 4) b, rollback := Config.fwVersion b }
        ({ s with trust := trust } : State).coldReset)

/-- DEVICE_RESET (R6, R142). -/
def execDeviceReset (s : State) : Host.Outcome State Fault Refusal := .next s.coldReset

/-- A supervisor core with its strand started at an address (R13, R398). -/
def Core.startService (c : Core) (entry : Word) : Core :=
  let c := c.setStrand 0 { c.strand 0 with pc := entry, priv := true }
  { c with haspOn := true }

/-- Firmware starts the supervisor strands (R398). -/
def State.startServices (s : State) : State :=
  [0, 1, 2, 3].foldl (fun (s : State) d => s.modCore (256 + d) fun c => c.startService (Config.serviceEntry d)) s

/-- Step 6 of the power-on: the services start once the device is active and the driver has made its writes (R398; log 10). -/
def State.afterDriver (s : State) : State :=
  if s.bar.sec = 1 && s.bar.driver = BitVec.allOnes 10 then s.startServices else s

/-- The number among the driver's writes of the power-on that a register offset has (R398). -/
def driverStep (off : Nat) : Option Nat :=
  match off with
  | 0x11810 => some 0
  | 0x10 => some 1
  | 0x20 => some 2
  | 0x28 => some 3
  | 0x30 => some 4
  | 0x11088 => some 5
  | 0x18000 => some 6
  | 0x18040 => some 7
  | 0x18080 => some 8
  | 0x180C0 => some 9
  | _ => none

/-- A write of the driver that the power-on waits for has been made (R398). -/
def State.noteDriver (s : State) (off : Nat) : State :=
  match driverStep off with
  | none => s
  | some i =>
    if s.bar.driver.getLsbD i then s
    else (s.modBar fun b => { b with driver := b.driver ||| (1#10 <<< i) }).afterDriver

/-- Firmware image `i` in the firmware store (R388). -/
def State.image (s : State) (i : Nat) : List Byte := lookupD s.trust.store i (Config.factoryImage i)

/-- The measurement that an accepted image extends from 64 zero bytes (R388). -/
def measured (b : List Byte) : Nat := Config.shake256 512 (bytesOfNat 64 0 ++ bytesOfNat 64 (Config.shake256 512 b))

/-- POWER_ON (R388, R390, R397, R398): the images are verified, device memory reads zero, the ports are trained; the device is
active or in recovery. -/
def execPowerOn (s : State) : Host.Outcome State Fault Refusal :=
  .next (
    let s := if s.bar.sec = 0 && s.bar.pwr = 0 then s else { s.coldReset with pending := [] }
    let ok := fun i => s.imageAccepted (s.image i)
    let good := [0, 1, 2, 3].all ok
    let trust : Trust := { s.trust with meas := [0, 1, 2, 3].map fun i => if ok i then measured (s.image i) else 0 }
    let (nonce, s) := s.fresh
    let s : State := { s with trust := trust, mem := [], memErrors := [], syncEmpty := [] }
    let s := (s.modBar fun b => { b with sec := if good then 1 else 2, dbg := 0, nonce := BitVec.ofNat 64 nonce }).tellState
    let s : State := if good then { s with service := some ⟨Config.serviceRoot, Config.serviceLayout, Config.serviceMaps⟩ } else s
    let s := if good && !s.awaits (fun e => match e with | .patrolScrub _ => true | _ => false) then s.post 3 (.patrolScrub 0) else s
    s.afterDriver.sqNext)

/-! ### Debug (R390, R392, R393) -/

/-- DBG_REQ_WRITE (R393): ignored in vendor-debug, and in recovery, from which owner-debug is not reachable (R397; log 25). -/
def execDbgReqWrite (v : Word) (s : State) : Host.Outcome State Fault Refusal :=
  .next (if s.bar.dbg = 2 || s.bar.sec = 2 || s.unreachable then s
    else (s.modBar fun b => { b with owner := v.getLsbD 0, dbgPend := true }).lookIdle)

/-- DBG_REQ_APPLY (R391, R393): at the first moment without a job; vendor-debug stays. -/
def execDbgReqApply (s : State) : Host.Outcome State Fault Refusal :=
  .next (if !s.bar.dbgPend || !s.jobs.isEmpty then s else s.applyDebug.lookIdle)

/-- The fields of DBG_CMD (R381). -/
def Bar.withDbgCmd (b : Bar) (v : Word) : Bar :=
  { b with dbgWr := v.getLsbD 62, dbgNum := v.extractLsb' 32 12, dbgPos := v.extractLsb' 16 5, dbgSup := v.getLsbD 8,
           dbgCore := v.extractLsb' 0 8 }

/-- The strand that a debug command names, if there is one at the position (R392). -/
def State.dbgStrand (s : State) : Option SId :=
  let b := s.bar
  if b.dbgSup then some ⟨256 + b.dbgCore.toNat % 4, 0⟩
  else if b.dbgPos = 16 || (b.dbgPos.toNat < 16 && ((s.core b.dbgCore.toNat).crewAt b.dbgPos.toNat).isSome) then
    some ⟨b.dbgCore.toNat, b.dbgPos.toNat⟩
  else none

/-- The strand runs a job launched with DBG. -/
def State.inDbgJob (s : State) (t : SId) : Bool := t.core < 256 && (s.job? (s.pidOf t)).any (·.dbg)

/-- The strand of a debug command that is not refused (R392). -/
def State.dbgTarget (s : State) : Option SId :=
  match s.dbgStrand with
  | some t => if s.bar.dbg = 2 || (s.bar.dbg = 1 && s.inDbgJob t) then some t else none
  | none => none

/-- DBG_CMD_READ (R381, R392): as a privileged CRRD through CR_TARGET. -/
def execDbgCmdRead (v : Word) (s : State) : Host.Outcome State Fault Refusal :=
  .next (
    if s.bar.pwr = 3 then s
    else
      let s := s.modBar fun b => b.withDbgCmd v
      match s.dbgTarget with
      | none => s.modBar fun b => { b with dbgRefused := true }
      | some t =>
        let n := s.bar.dbgNum.toNat
        let s := s.modBar fun b => { b with dbgRefused := false }
        if (crHome n).isNone then s
        else
          let x := s.crRead t (dieOf t.core) n
          (if n = 0x300 then s.clearFabCount else s).modBar fun b => { b with dbgData := x })

/-- DBG_CMD_WRITE (R381, R392): as a privileged CRWR through CR_TARGET. -/
def execDbgCmdWrite (v : Word) (s : State) : Host.Outcome State Fault Refusal :=
  guardPhysical (
    if s.bar.pwr = 3 then s
    else
      let s := s.modBar fun b => b.withDbgCmd v
      match s.dbgTarget with
      | none => s.modBar fun b => { b with dbgRefused := true }
      | some t =>
        let n := s.bar.dbgNum.toNat
        let s := s.modBar fun b => { b with dbgRefused := false }
        if (crHome n).isNone then s else s.crWrite t (dieOf t.core) n s.bar.dbgData)

/-! ### Power (R394-R396) -/

/-- PWR_REQ_ACTIVE (R396): REQ 0 clears any request and ends retention. -/
def execPwrReqActive (s : State) : Host.Outcome State Fault Refusal :=
  .next (let s := s.modBar fun b => { b with pwrReq := 0, pwrPend := false }
    if s.bar.pwr = 2 then s.wake else s)

/-- PWR_REQ_RETENTION (R396); retention is not reachable from recovery (R397; log 25). -/
def execPwrReqRetention (s : State) : Host.Outcome State Fault Refusal :=
  .next (if s.unreachable || s.bar.sec = 2 then s else (s.modBar fun b => { b with pwrReq := 2, pwrPend := true }).lookIdle)

/-- PWR_REQ_OFF (R396). -/
def execPwrReqOff (s : State) : Host.Outcome State Fault Refusal :=
  .next (if s.unreachable then s else (s.modBar fun b => { b with pwrReq := 3, pwrPend := true }).lookIdle)

/-- The scalar registers of a strand become undefined: free values (log 7). -/
def Strand.scramble (st : Strand) (base : Nat) : Strand :=
  { st with s := Vector.ofFn fun i => BitVec.ofNat 64 (Config.free (base + i.val)) }

/-- A core in retention keeps slots, key maps, register space and accumulators (R394); the registers of its strands are not kept,
nor its cached records and instruction words. -/
def Core.retain (c : Core) (base : Nat) : Core :=
  { c with strands := c.strands.mapFinIdx fun i st _ => st.scramble (base + 32 * i), lcache := [], icache := [] }

/-- The device in retention (R394): translations are not kept. -/
def State.retain (s : State) : State :=
  let cores := s.cores.zipIdx.map fun p => p.1.retain (s.freeCtr + 1024 * p.2)
  let dies := s.dies.map fun (d : Die) => { d with tlb := [] }
  { s with cores := cores, dies := dies, freeCtr := s.freeCtr + 1024 * s.cores.length }

/-- POWER_STATE_ENTER (R394, R396): at the first moment without a job and with empty rings; off keeps nothing. -/
def execPowerStateEnter (s : State) : Host.Outcome State Fault Refusal :=
  .next (
    if !s.bar.pwrPend || !s.hubIdle then s
    else if s.bar.pwrReq = 3 then ({ s.coldReset with pending := [] }.modBar fun b => { b with pwr := 3 })
    else ((s.modBar fun b => { b with pwrPend := false, pwr := 2 }).withdraw (· == .powerWake)).retain.tellState)

/-- IDLE_ENTER (R394). -/
def execIdleEnter (s : State) : Host.Outcome State Fault Refusal :=
  .next (
    if !s.hubIdle || s.bar.pwr ≠ 0 || s.bar.sec ≠ 1 then s
    else (s.modBar fun b => { b with pwr := 1 }).tellState)

/-- POWER_WAKE (R394). -/
def execPowerWake (s : State) : Host.Outcome State Fault Refusal :=
  .next (
    if s.bar.pwr ≠ 1 && s.bar.pwr ≠ 2 then s
    else ((s.modBar fun b => { b with pwr := 0 }).tellState).sqNext)

/-- The package limit that PWR_LIMIT stands for: above 1,900 it acts as 1,900, below 600 as 600 (R381). -/
def Bar.limit (b : Bar) : Nat := max 600 (min 1900 b.pwrLimit.toNat)

/-- POWER_THROTTLE (R381, R395): the package power over a window, an input that nothing here fixes (log 7), is held against the limit;
above it arithmetic cycles are skipped, at most one in two. -/
def execPowerThrottle (s : State) : Host.Outcome State Fault Refusal :=
  .next (let (p, s) := s.fresh
    if s.bar.limit < p then { s with throttled := true } else s)
/-- POWER_THROTTLE_END (R395). -/
def execPowerThrottleEnd (s : State) : Host.Outcome State Fault Refusal := .next { s with throttled := false }

/-! ### Registers (R381, R385) -/

/-- A write of a BAR0 register without a row of its own; read-only registers and reserved bits stay. -/
def State.barWrite (s : State) (off : Nat) (v : Word) : State :=
  match off with
  | 0x10 => if s.bar.launched then s else s.modBar fun b => { b with drvLo := v }
  | 0x18 => if s.bar.launched then s else s.modBar fun b => { b with drvHi := v }
  | 0x20 => s.modBar fun b => { b with sqBase := v &&& 0xFFFFFFFFFF000 }
  | 0x28 => s.modBar fun b => { b with cqBase := v &&& 0xFFFFFFFFFF000 }
  | 0x30 => s.modBar fun b => { b with cqLog := v.extractLsb' 8 4, sqLog := v.extractLsb' 0 4 }
  | 0x48 =>
    let s := s.modBar fun b => { b with cqHead := v.setWidth 12 }
    if s.bar.cqWait.isEmpty then s.lookIdle else s.postOnce .completionWrite
  | 0x70 => s.modBar fun b => { b with pwrLimit := v.setWidth 16 }
  | 0x78 => if v.getLsbD 63 then s else s.modBar fun b => b.withDbgCmd v
  | 0x80 => s.modBar fun b => { b with dbgData := v }
  | 0x90 => s.modBar fun b => { b with winCore := v.setWidth 8 }
  | _ => s

/-- A BAR0 register as the host reads it; every offset without a register reads 0 (R381). -/
def State.barRead (s : State) (off : Nat) : Word :=
  let b := s.bar
  match off with
  | 0x00 => 0x7FF
  | 0x10 => b.drvLo
  | 0x18 => b.drvHi
  | 0x20 => b.sqBase
  | 0x28 => b.cqBase
  | 0x30 => BitVec.ofNat 64 (b.cqLog.toNat * 2 ^ 8 + b.sqLog.toNat)
  | 0x38 => b.sqTail.setWidth 64
  | 0x40 => b.sqHead.setWidth 64
  | 0x48 => b.cqHead.setWidth 64
  | 0x50 => b.stateWord
  | 0x58 => BitVec.ofNat 64 (boolNat b.dbgPend * 2 ^ 63 + boolNat b.owner)
  | 0x60 => b.nonce
  | 0x68 => BitVec.ofNat 64 (boolNat b.pwrPend * 2 ^ 63 + b.pwrReq.toNat)
  | 0x70 => b.pwrLimit.setWidth 64
  | 0x78 => BitVec.ofNat 64 (boolNat b.dbgBusy * 2 ^ 63 + boolNat b.dbgWr * 2 ^ 62 + boolNat b.dbgRefused * 2 ^ 61 + b.dbgNum.toNat * 2 ^ 32 +
      b.dbgPos.toNat * 2 ^ 16 + boolNat b.dbgSup * 2 ^ 8 + b.dbgCore.toNat)
  | 0x80 => b.dbgData
  | 0x90 => b.winCore.setWidth 64
  | _ => 0

/-- The privileged register that an offset of the window reaches: its number, and the die or core it is of (R381). -/
def State.windowReg (s : State) (off : Nat) : Option (SId × Nat × Nat) :=
  let n := (off - 0x10000) / 8
  let m := 0x140 + (off - 0x18000) / 8 % 8
  let on : SId := ⟨s.bar.winCore.toNat, 0⟩
  if off % 8 ≠ 0 then none
  else if 0x10000 ≤ off && 0x200 ≤ n && n ≤ 0x302 then some (on, 0, n)
  else if 0x18000 ≤ off && off < 0x18100 && m ≤ 0x142 then some (on, (off - 0x18000) / 64, m)
  else none

/-- A write through the privileged window (R381). -/
def State.windowWrite (s : State) (off : Nat) (v : Word) : State :=
  match s.windowReg off with
  | some (t, d, n) => s.crWrite t d n v
  | none => s

/-- A host's read of a register: its value, and what the read clears (R5, R319, R381). -/
def State.hostRead (s : State) (off : Nat) : Word × State :=
  if off < 0x10000 then (s.barRead off, s)
  else match s.windowReg off with
    | some (t, d, n) => (s.crRead t d n, if n = 0x300 then s.clearFabCount else s)
    | none => (0, s)

/-- REGISTER_WRITE (R381): a register without a row of its own. -/
def execRegisterWrite (off : Nat) (v : Word) (s : State) : Host.Outcome State Fault Refusal :=
  guardPhysical (
    if s.bar.pwr = 3 then s else (if off < 0x10000 then s.barWrite off v else s.windowWrite off v).noteDriver off)

/-! ### Memory (R341, R380) -/

/-- HOST_MEMORY_ACCESS (R341, R380, R394): a store or a load at scope .host, applied at the home; a load changes nothing. -/
def execHostMemoryAccess (write : Bool) (addr : Nat) (data : List Byte) (s : State) : Host.Outcome State Fault Refusal :=
  guardPhysical (
    if s.bar.pwr = 3 then s
    else if s.bar.pwr ≠ 0 || s.bar.sec = 0 then (s.post 0 (.hostMemoryAccess write addr data)).wake
    else if write then s.hubStore addr data
    else (s.physRead addr data.length).2)

/-- CXL_CACHE_SNOOP (R380): the hub gives up its copy of a 64-byte line of host memory, or takes the host's new bytes. -/
def execCxlCacheSnoop (line : Nat) (data : Option (List Byte)) (s : State) : Host.Outcome State Fault Refusal :=
  .next (match data with
    | none => s
    | some bs => ({ s with host := s.host.write (64 * line) (fitBytes 64 bs) } : State).wrote 1 (64 * line) 64)

end Sys2Proof.Machine
end

