-- ==== Sys2Proof/Machine/Scalar.lean ====
section
/-! DEFINITION. The scalar integer, move, compare and mix instructions (spec 05_issue R99-R103). -/

namespace Sys2Proof.Machine

/-! ### Results (R99) -/

/-- The signed or unsigned integer of a pattern: QF 1 is .n64 (R47). -/
def asInt (q : BitVec 2) (x : Word) : Int := if q = 1 then x.toNat else x.toInt

/-- MULH (R99): bits [127:64] of the exact product. -/
def mulhOf (q : BitVec 2) (x y : Word) : Word := word (asInt q x * asInt q y / 2 ^ 64)

/-- DIV (R99): rounded toward zero; all ones for y = 0. -/
def divOf (q : BitVec 2) (x y : Word) : Word := if y = 0 then all1 else word ((asInt q x).tdiv (asInt q y))

/-- REM (R99): x - y * DIV(x, y); x for y = 0. -/
def remOf (q : BitVec 2) (x y : Word) : Word := if y = 0 then x else word ((asInt q x).tmod (asInt q y))

/-- Shifts use y[5:0] (R99). -/
def shlOf (x y : Word) : Word := x <<< (y.toNat % 64)
def shrOf (x y : Word) : Word := x >>> (y.toNat % 64)
def shaOf (x y : Word) : Word := x.sshiftRight (y.toNat % 64)

/-- MIN and MAX (R99). -/
def minOf (q : BitVec 2) (x y : Word) : Word := if asInt q x ≤ asInt q y then x else y
def maxOf (q : BitVec 2) (x y : Word) : Word := if asInt q x ≤ asInt q y then y else x

/-- CLZ (R99). -/
def clzOf (x : Word) : Word := if x = 0 then 64 else BitVec.ofNat 64 (63 - Nat.log2 x.toNat)

/-- POPC (R99). -/
def popcOf {w : Nat} (x : BitVec w) : Nat := ((List.range w).filter x.getLsbD).length

/-- SEXT (R99). -/
def sextOf (q : BitVec 2) (x : Word) : Word := word (sext x.toNat (8 * 2 ^ q.toNat))

/-- MIX (R102). -/
def mixOf (x y : Word) : Word :=
  let h := (x * 0x9D3A61F5C28B0E47#64) ^^^ y
  let h := h ^^^ (h >>> 31)
  let h := h * 0x6B1ED4A937F28C53#64
  h ^^^ (h >>> 29)

/-- BFX (R101). -/
def bfxOf (pos len : Nat) (x : Word) : Word := BitVec.ofNat 64 (field x.toNat pos len)

/-- BFI (R101): bits [pos + len - 1 : pos] of `old` replaced by x[len - 1 : 0]. -/
def bfiOf (pos len : Nat) (old x : Word) : Word :=
  let m := BitVec.ofNat 64 ((2 ^ len - 1) * 2 ^ pos)
  (old &&& ~~~m) ||| ((x <<< pos) &&& m)

/-! ### The shared course of the forms -/

/-- d := F(a, b) of two registers, one word. -/
def regReg (g : Word → Word → Word) (f : RF) (s : State) : State :=
  s.issue 0 [.s f.a f.ta, .s f.b f.tb] [.s f.d false] noTrap fun o s =>
    (s.putS f.d (g (o.sval f.a) (o.sval f.b))).retire 1

/-- d := F(a, y) of a register and a value that the instruction holds. -/
def regVal (n : Nat) (g : Word → Word → Word) (d a : Reg) (ta : Bool) (y : Word) (s : State) : State :=
  s.issue 0 [.s a ta] [.s d false] noTrap fun o s => (s.putS d (g (o.sval a) y)).retire n

/-- d := F(a) of one register, `n` words. -/
def regOne (n : Nat) (g : Word → Word) (d a : Reg) (ta : Bool) (s : State) : State :=
  s.issue 0 [.s a ta] [.s d false] noTrap fun o s => (s.putS d (g (o.sval a))).retire n

/-- DIV and REM of two registers: the result lands after 24 cycles (R96). -/
def slowReg (g : Word → Word → Word) (f : RF) (s : State) : State :=
  s.issue 0 [.s f.a f.ta, .s f.b f.tb] [.s f.d false] noTrap fun o s =>
    (s.laterS 24 f.d (g (o.sval f.a) (o.sval f.b))).retire 1

/-- DIV and REM with a literal. -/
def slowLit (g : Word → Word → Word) (f : RF) (y : Word) (s : State) : State :=
  s.issue 0 [.s f.a f.ta] [.s f.d false] noTrap fun o s => (s.laterS 24 f.d (g (o.sval f.a) y)).retire 3

/-- imm9 read signed (R35). -/
def signedImm (f : IForm) : Word := f.imm.signExtend 64

/-- imm9 read unsigned (R35). -/
def unsignedImm (f : IForm) : Word := f.imm.setWidth 64

/-- The CI form's imm10: signed, or unsigned under U = 1 (R34). -/
def ciValue (f : CIForm) : Word := if f.op.getLsbD 4 then f.imm.setWidth 64 else f.imm.signExtend 64

/-! ### Major 0x01 (R99) -/

/-- ADD d, a, b (R99). -/
def execAdd (f : RF) (s : State) : Host.Outcome State Fault Refusal :=
  .next (regReg (· + ·) f s)

/-- SUB d, a, b (R99). -/
def execSub (f : RF) (s : State) : Host.Outcome State Fault Refusal :=
  .next (regReg (· - ·) f s)

/-- MUL d, a, b (R99). -/
def execMul (f : RF) (s : State) : Host.Outcome State Fault Refusal :=
  .next (regReg (· * ·) f s)

/-- MULH d, a, b (R99). -/
def execMulh (f : RF) (s : State) : Host.Outcome State Fault Refusal :=
  .next (regReg (mulhOf f.qf) f s)

/-- AND d, a, b (R99). -/
def execAnd (f : RF) (s : State) : Host.Outcome State Fault Refusal :=
  .next (regReg (· &&& ·) f s)

/-- OR d, a, b (R99). -/
def execOr (f : RF) (s : State) : Host.Outcome State Fault Refusal :=
  .next (regReg (· ||| ·) f s)

/-- XOR d, a, b (R99). -/
def execXor (f : RF) (s : State) : Host.Outcome State Fault Refusal :=
  .next (regReg (· ^^^ ·) f s)

/-- SHL d, a, b (R99). -/
def execShl (f : RF) (s : State) : Host.Outcome State Fault Refusal :=
  .next (regReg shlOf f s)

/-- SHR d, a, b (R99). -/
def execShr (f : RF) (s : State) : Host.Outcome State Fault Refusal :=
  .next (regReg shrOf f s)

/-- SHA d, a, b (R99). -/
def execSha (f : RF) (s : State) : Host.Outcome State Fault Refusal :=
  .next (regReg shaOf f s)

/-- MIN d, a, b (R99). -/
def execMin (f : RF) (s : State) : Host.Outcome State Fault Refusal :=
  .next (regReg (minOf f.qf) f s)

/-- MAX d, a, b (R99). -/
def execMax (f : RF) (s : State) : Host.Outcome State Fault Refusal :=
  .next (regReg (maxOf f.qf) f s)

/-- DIV d, a, b (R99). -/
def execDiv (f : RF) (s : State) : Host.Outcome State Fault Refusal :=
  .next (slowReg (divOf f.qf) f s)

/-- REM d, a, b (R99). -/
def execRem (f : RF) (s : State) : Host.Outcome State Fault Refusal :=
  .next (slowReg (remOf f.qf) f s)

/-- CLZ (R99). -/
def execClz (f : RF) (s : State) : Host.Outcome State Fault Refusal :=
  .next (regOne 1 clzOf f.d f.a f.ta s)

/-- POPC (R99). -/
def execPopc (f : RF) (s : State) : Host.Outcome State Fault Refusal :=
  .next (regOne 1 (fun x => BitVec.ofNat 64 (popcOf x)) f.d f.a f.ta s)

/-- SEXT (R99). -/
def execSext (f : RF) (s : State) : Host.Outcome State Fault Refusal :=
  .next (regOne 1 (sextOf f.qf) f.d f.a f.ta s)

/-- ADD d, a, #literal (R99). -/
def execAddLiteral (f : RF) (lit : Word) (s : State) : Host.Outcome State Fault Refusal :=
  .next (regVal 3 (· + ·) f.d f.a f.ta lit s)

/-- SUB d, a, #literal (R99). -/
def execSubLiteral (f : RF) (lit : Word) (s : State) : Host.Outcome State Fault Refusal :=
  .next (regVal 3 (· - ·) f.d f.a f.ta lit s)

/-- MUL d, a, #literal (R99). -/
def execMulLiteral (f : RF) (lit : Word) (s : State) : Host.Outcome State Fault Refusal :=
  .next (regVal 3 (· * ·) f.d f.a f.ta lit s)

/-- MULH d, a, #literal (R99). -/
def execMulhLiteral (f : RF) (lit : Word) (s : State) : Host.Outcome State Fault Refusal :=
  .next (regVal 3 (mulhOf f.qf) f.d f.a f.ta lit s)

/-- AND d, a, #literal (R99). -/
def execAndLiteral (f : RF) (lit : Word) (s : State) : Host.Outcome State Fault Refusal :=
  .next (regVal 3 (· &&& ·) f.d f.a f.ta lit s)

/-- OR d, a, #literal (R99). -/
def execOrLiteral (f : RF) (lit : Word) (s : State) : Host.Outcome State Fault Refusal :=
  .next (regVal 3 (· ||| ·) f.d f.a f.ta lit s)

/-- XOR d, a, #literal (R99). -/
def execXorLiteral (f : RF) (lit : Word) (s : State) : Host.Outcome State Fault Refusal :=
  .next (regVal 3 (· ^^^ ·) f.d f.a f.ta lit s)

/-- SHL d, a, #literal (R99). -/
def execShlLiteral (f : RF) (lit : Word) (s : State) : Host.Outcome State Fault Refusal :=
  .next (regVal 3 shlOf f.d f.a f.ta lit s)

/-- SHR d, a, #literal (R99). -/
def execShrLiteral (f : RF) (lit : Word) (s : State) : Host.Outcome State Fault Refusal :=
  .next (regVal 3 shrOf f.d f.a f.ta lit s)

/-- SHA d, a, #literal (R99). -/
def execShaLiteral (f : RF) (lit : Word) (s : State) : Host.Outcome State Fault Refusal :=
  .next (regVal 3 shaOf f.d f.a f.ta lit s)

/-- MIN d, a, #literal (R99). -/
def execMinLiteral (f : RF) (lit : Word) (s : State) : Host.Outcome State Fault Refusal :=
  .next (regVal 3 (minOf f.qf) f.d f.a f.ta lit s)

/-- MAX d, a, #literal (R99). -/
def execMaxLiteral (f : RF) (lit : Word) (s : State) : Host.Outcome State Fault Refusal :=
  .next (regVal 3 (maxOf f.qf) f.d f.a f.ta lit s)

/-- DIV d, a, #literal (R99). -/
def execDivLiteral (f : RF) (lit : Word) (s : State) : Host.Outcome State Fault Refusal :=
  .next (slowLit (divOf f.qf) f lit s)

/-- REM d, a, #literal (R99). -/
def execRemLiteral (f : RF) (lit : Word) (s : State) : Host.Outcome State Fault Refusal :=
  .next (slowLit (remOf f.qf) f lit s)

/-! ### Major 0x02 (R100) -/

/-- ADD d, a, #imm9 (R35, R100). -/
def execAddImmediate (f : IForm) (s : State) : Host.Outcome State Fault Refusal :=
  .next (regVal 1 (· + ·) f.d f.a f.ta (signedImm f) s)

/-- SUB d, a, #imm9 (R35, R100). -/
def execSubImmediate (f : IForm) (s : State) : Host.Outcome State Fault Refusal :=
  .next (regVal 1 (· - ·) f.d f.a f.ta (signedImm f) s)

/-- MUL d, a, #imm9 (R35, R100). -/
def execMulImmediate (f : IForm) (s : State) : Host.Outcome State Fault Refusal :=
  .next (regVal 1 (· * ·) f.d f.a f.ta (signedImm f) s)

/-- AND d, a, #imm9 (R35, R100). -/
def execAndImmediate (f : IForm) (s : State) : Host.Outcome State Fault Refusal :=
  .next (regVal 1 (· &&& ·) f.d f.a f.ta (unsignedImm f) s)

/-- OR d, a, #imm9 (R35, R100). -/
def execOrImmediate (f : IForm) (s : State) : Host.Outcome State Fault Refusal :=
  .next (regVal 1 (· ||| ·) f.d f.a f.ta (unsignedImm f) s)

/-- XOR d, a, #imm9 (R35, R100). -/
def execXorImmediate (f : IForm) (s : State) : Host.Outcome State Fault Refusal :=
  .next (regVal 1 (· ^^^ ·) f.d f.a f.ta (unsignedImm f) s)

/-- SHL d, a, #imm9 (R35, R100). -/
def execShlImmediate (f : IForm) (s : State) : Host.Outcome State Fault Refusal :=
  .next (regVal 1 shlOf f.d f.a f.ta (unsignedImm f) s)

/-- SHR d, a, #imm9 (R35, R100). -/
def execShrImmediate (f : IForm) (s : State) : Host.Outcome State Fault Refusal :=
  .next (regVal 1 shrOf f.d f.a f.ta (unsignedImm f) s)

/-- SHA d, a, #imm9 (R35, R100). -/
def execShaImmediate (f : IForm) (s : State) : Host.Outcome State Fault Refusal :=
  .next (regVal 1 shaOf f.d f.a f.ta (unsignedImm f) s)

/-! ### Majors 0x03 and 0x04 (R101, R102) -/

/-- MOV (R101). -/
def execMov (f : RF) (s : State) : Host.Outcome State Fault Refusal :=
  .next (regOne 1 id f.d f.a f.ta s)

/-- LI (R101). -/
def execLi (f : RF) (lit : Word) (s : State) : Host.Outcome State Fault Refusal :=
  .next (s.issue 0 [] [.s f.d false] noTrap fun _ s => (s.putS f.d lit).retire 3)

/-- BFX (R101). -/
def execBfx (f : RF) (x : Ext) (s : State) : Host.Outcome State Fault Refusal :=
  .next (regOne 3 (bfxOf x.immA x.immB) f.d f.a f.ta s)

/-- BFI (R101): d is waited for and keeps its other bits. -/
def execBfi (f : RF) (x : Ext) (s : State) : Host.Outcome State Fault Refusal :=
  .next (s.issue 0 [.s f.a f.ta, .s f.d false] [.s f.d false] noTrap fun o s =>
    (s.putS f.d (bfiOf x.immA x.immB (o.sval f.d) (o.sval f.a))).retire 3)

/-- MIX (R102). -/
def execMix (f : RF) (s : State) : Host.Outcome State Fault Refusal :=
  .next (regReg mixOf f s)

/-! ### Majors 0x08 and 0x09 (R103) -/

/-- CMP a, b (R103): the skip count stands in QF. -/
def execCmp (f : RF) (op : BitVec 5) (s : State) : Host.Outcome State Fault Refusal :=
  .next (s.issue 0 [.s f.a f.ta, .s f.b f.tb] [] noTrap fun o s =>
    (s.skipUnless (condInt op (o.sval f.a) (o.sval f.b)) f.qf).retire 1)

/-- CMP a, #literal (R103). -/
def execCmpLiteral (f : RF) (op : BitVec 5) (lit : Word) (s : State) : Host.Outcome State Fault Refusal :=
  .next (s.issue 0 [.s f.a f.ta] [] noTrap fun o s => (s.skipUnless (condInt op (o.sval f.a) lit) f.qf).retire 3)

/-- CMP a, #imm10 (R34, R103). -/
def execCmpImmediate (f : CIForm) (s : State) : Host.Outcome State Fault Refusal :=
  .next (s.issue 0 [.s f.a f.ta] [] noTrap fun o s => (s.skipUnless (condInt f.op (o.sval f.a) (ciValue f)) f.sk).retire 1)

end Sys2Proof.Machine
end

