-- ==== Sys2Proof/Machine/KeyMap.lean ====
section
/-! DEFINITION. The local key map and the shared maps (spec 07 R154-R166; 02 R18-R20). -/

namespace Sys2Proof.Machine

/-! ### Results and status codes (R18) -/

def stOk : Nat := 0
def stMiss : Nat := 1
def stCollide : Nat := 2
def stBound : Nat := 3
def stBusy : Nat := 4
def stPinned : Nat := 5
def stNoAllow : Nat := 6

/-- The result of a map instruction: status in [63:56], the map's value below (R18, R161). -/
def mapResult (status value : Nat) : Word := BitVec.ofNat 64 (status % 256 * 2 ^ 56 + value % 2 ^ 56)

/-- The check word of a source (R157). -/
def checkOf (x : Word) : BitVec 32 := x.setWidth 32

/-! ### The local map (R154-R161) -/

/-- The entry of a key. -/
def Core.lookup (c : Core) (key : Word) : Option KeyEntry := c.keys.find? fun e => e.key == key

/-- Changes the entry of a key. -/
def Core.modKey (c : Core) (key : Word) (f : KeyEntry → KeyEntry) : Core :=
  { c with keys := updateFirst (fun e => e.key == key) f c.keys }

/-- Removes the entry of a key. -/
def Core.dropKey (c : Core) (key : Word) : Core := { c with keys := c.keys.filter fun e => e.key != key }

/-- A local map form traps in a supervisor strand, and in a Hasp strand of another job (R159, R400). -/
def State.mapForbidden (s : State) : Bool := s.isSup || s.haspForeign

/-- Allowance of the running strand's crew: its slot holding; the Hasp strand's is 0 (R159). -/
def State.allowance (s : State) : Nat := if s.isHasp then 0 else s.myCrew.hold.sl

/-- What a map action does to the core, with the result it delivers. -/
abbrev MapAct := State → Word × State

/-- A lookup that pins (R157 KLOOK.p, KPIN) or not. -/
def mapLook (pin : Bool) (key : Word) (check : BitVec 32) : MapAct := fun s =>
  match s.myCore.lookup key with
  | none => (mapResult stMiss 0, s)
  | some e =>
    if e.check ≠ check then (mapResult stCollide 0, s)
    else (mapResult stOk e.slot, if pin then s.modMyCore fun c => c.modKey key fun e => { e with pin := e.pin + 1 } else s)

/-- The trap conditions of a pinning form (R158). -/
def pinTrap (key : Word) (check : BitVec 32) (s : State) : Option Nat :=
  if s.mapForbidden then some causeSlotReserved
  else match s.myCore.lookup key with
    | some e => if e.check == check && 65535 ≤ e.pin then some causePinOverflow else none
    | none => none

/-- The trap condition that every local form shares. -/
def mapTrap (s : State) : Option Nat := if s.mapForbidden then some causeSlotReserved else none

/-- KUNPIN's trap conditions (R158). -/
def unpinTrap (key : Word) (check : BitVec 32) (s : State) : Option Nat :=
  if s.mapForbidden then some causeSlotReserved
  else match s.myCore.lookup key with
    | some e => if e.check == check && e.pin == 0 then some causePinUnderflow else none
    | none => none

/-- KUNPIN (R157): an orphaned entry whose pin count reaches 0 is unbound in the same action (R130, R155). -/
def mapUnpin (key : Word) (check : BitVec 32) : MapAct := fun s =>
  match s.myCore.lookup key with
  | none => (mapResult stMiss 0, s)
  | some e =>
    if e.check ≠ check then (mapResult stCollide 0, s)
    else
      (mapResult stOk e.slot,
        if e.pin == 1 && e.binder.isNone then (s.modMyCore fun c => c.dropKey key).tumble s.cur.core
        else s.modMyCore fun c => c.modKey key fun e => { e with pin := e.pin - 1 })

/-- KUNBIND (R157). -/
def mapUnbind (key : Word) (check : BitVec 32) : MapAct := fun s =>
  match s.myCore.lookup key with
  | none => (mapResult stMiss 0, s)
  | some e =>
    if e.check ≠ check then (mapResult stCollide 0, s)
    else if e.pin ≠ 0 then (mapResult stPinned 0, s)
    else (mapResult stOk e.slot, s.modMyCore fun c => c.dropKey key)

/-- KBIND (R157): `p` pins, `emp` empties the slot's granules (R19). -/
def mapBind (p emp : Bool) (key : Word) (check : BitVec 32) (slot : Nat) : MapAct := fun s =>
  match s.myCore.lookup key with
  | some e =>
    if e.check ≠ check then (mapResult stCollide 0, s)
    else (mapResult stBound e.slot, if p then s.modMyCore fun c => c.modKey key fun e => { e with pin := e.pin + 1 } else s)
  | none =>
    if s.myCore.slotBusy slot then (mapResult stBusy 0, s)
    else if s.allowance < s.myCharge + 1 then (mapResult stNoAllow 0, s)
    else
      (mapResult stOk slot, s.modMyCore fun c =>
        { c with
          keys := c.keys ++ [{ key := key, check := check, slot := slot, pin := boolNat p, binder := some s.myCrew.task }]
          empty := if emp then addRange (1024 * slot) 1024 c.empty else c.empty })

/-- KBIND's slot operand: bits above [7:0] are ignored (R157). -/
def mapSlot (x : Word) : Nat := field x.toNat 0 8

/-- KBIND's trap conditions (R157, R158). -/
def bindTrap (p : Bool) (key : Word) (check : BitVec 32) (slot : Nat) (s : State) : Option Nat :=
  if s.mapForbidden || 247 < slot then some causeSlotReserved else if p then pinTrap key check s else none

/-- KVICT (R160): a hint that reserves nothing. -/
def mapVict : MapAct := fun s =>
  let c := s.myCore
  let search := (List.range 248).map fun i => (c.lastKvict + 1 + i) % 248
  if s.myCharge < s.allowance then
    match search.find? fun x => !c.slotBusy x with
    | some x => (mapResult stOk x, s.modMyCore fun c => { c with lastKvict := x })
    | none => (mapResult stMiss 0, s)
  else
    match c.keys.find? fun e => !s.isHasp && e.binder == some s.myCrew.task && e.pin == 0 with
    | some e => (mapResult stNoAllow e.slot, s)
    | none => (mapResult stMiss 0, s)

/-- The state word of an entry (R161). -/
def stateWord (c : Core) (e : KeyEntry) : Nat :=
  let owner := e.binder.bind fun t => c.crews.find? fun w => w.task == t
  let pos := (owner.bind fun w => w.pos.head?).getD 0x1F
  boolNat e.binder.isNone * 2 ^ 46 + (e.binder.getD 0) % 2 ^ 14 * 2 ^ 32 + e.pin % 2 ^ 16 * 2 ^ 16 + pos % 32 * 2 ^ 8 + e.slot % 256

/-- KSTAT (R161). -/
def mapStat (key : Word) : MapAct := fun s =>
  match s.myCore.lookup key with
  | none => (mapResult stMiss 0, s)
  | some e => (mapResult stOk (stateWord s.myCore e), s)

/-- A local map action at issue: the destination is reserved, the result lands 6 cycles later (R155). -/
def State.mapAct (n : Nat) (d : Reg) (act : MapAct) (popped : State) : State :=
  let (x, s) := act popped
  (s.laterS 6 d x).retire n

/-- A local map form: acq_rel at core scope, so it acts once the strand's earlier accesses have taken effect (R155, R301). -/
def mapReg (n : Nat) (f : RF) (check : State → Option Nat) (act : State → MapAct) (srcs : List Opnd) (s : State) : State :=
  s.issue 0 srcs [.s f.d false] check fun o s => if !o.quiet o.cur then o.lend .poll else s.tellCore.mapAct n f.d (act o)

/-- KLOOK d, a, b (R157). -/
def execKlook (f : RF) (s : State) : Host.Outcome State Fault Refusal :=
  let p := f.qf.getLsbD 0
  .next (mapReg 1 f (fun s => if p then pinTrap (s.sval f.a) (checkOf (s.sval f.b)) s else mapTrap s)
    (fun o => mapLook p (o.sval f.a) (checkOf (o.sval f.b))) [.s f.a f.ta, .s f.b f.tb] s)

/-- KLOOK d, #key, b (R157). -/
def execKlookLiteral (f : RF) (lit : Word) (s : State) : Host.Outcome State Fault Refusal :=
  let p := f.qf.getLsbD 0
  .next (mapReg 3 f (fun s => if p then pinTrap lit (checkOf (s.sval f.b)) s else mapTrap s)
    (fun o => mapLook p lit (checkOf (o.sval f.b))) [.s f.b f.tb] s)

/-- KBIND d, a, b, c (R157). -/
def execKbind (f : RF) (x : Ext) (s : State) : Host.Outcome State Fault Refusal :=
  let p := f.qf.getLsbD 0
  .next (mapReg 3 f (fun s => bindTrap p (s.sval f.a) (checkOf (s.sval f.b)) (mapSlot (s.sval x.c0)) s)
    (fun o => mapBind p (f.qf.getLsbD 1) (o.sval f.a) (checkOf (o.sval f.b)) (mapSlot (o.sval x.c0)))
    [.s f.a f.ta, .s f.b f.tb, .s x.c0 false] s)

/-- KBIND d, #key, b, c (R157). -/
def execKbindLiteral (f : RF) (x : Ext) (lit : Word) (s : State) : Host.Outcome State Fault Refusal :=
  let p := f.qf.getLsbD 0
  .next (mapReg 5 f (fun s => bindTrap p lit (checkOf (s.sval f.b)) (mapSlot (s.sval x.c0)) s)
    (fun o => mapBind p (f.qf.getLsbD 1) lit (checkOf (o.sval f.b)) (mapSlot (o.sval x.c0)))
    [.s f.b f.tb, .s x.c0 false] s)

/-- KPIN d, a, b: as KLOOK.p (R157). -/
def execKpin (f : RF) (s : State) : Host.Outcome State Fault Refusal :=
  .next (mapReg 1 f (fun s => pinTrap (s.sval f.a) (checkOf (s.sval f.b)) s)
    (fun o => mapLook true (o.sval f.a) (checkOf (o.sval f.b))) [.s f.a f.ta, .s f.b f.tb] s)

/-- KPIN d, #key, b (R157). -/
def execKpinLiteral (f : RF) (lit : Word) (s : State) : Host.Outcome State Fault Refusal :=
  .next (mapReg 3 f (fun s => pinTrap lit (checkOf (s.sval f.b)) s)
    (fun o => mapLook true lit (checkOf (o.sval f.b))) [.s f.b f.tb] s)

/-- KUNPIN d, a, b (R157, R158). -/
def execKunpin (f : RF) (s : State) : Host.Outcome State Fault Refusal :=
  .next (mapReg 1 f (fun s => unpinTrap (s.sval f.a) (checkOf (s.sval f.b)) s)
    (fun o => mapUnpin (o.sval f.a) (checkOf (o.sval f.b))) [.s f.a f.ta, .s f.b f.tb] s)

/-- KUNPIN d, #key, b (R157, R158). -/
def execKunpinLiteral (f : RF) (lit : Word) (s : State) : Host.Outcome State Fault Refusal :=
  .next (mapReg 3 f (fun s => unpinTrap lit (checkOf (s.sval f.b)) s)
    (fun o => mapUnpin lit (checkOf (o.sval f.b))) [.s f.b f.tb] s)

/-- KUNBIND d, a, b (R157). -/
def execKunbind (f : RF) (s : State) : Host.Outcome State Fault Refusal :=
  .next (mapReg 1 f mapTrap (fun o => mapUnbind (o.sval f.a) (checkOf (o.sval f.b))) [.s f.a f.ta, .s f.b f.tb] s)

/-- KUNBIND d, #key, b (R157). -/
def execKunbindLiteral (f : RF) (lit : Word) (s : State) : Host.Outcome State Fault Refusal :=
  .next (mapReg 3 f mapTrap (fun o => mapUnbind lit (checkOf (o.sval f.b))) [.s f.b f.tb] s)

/-- KVICT d (R160). -/
def execKvict (f : RF) (s : State) : Host.Outcome State Fault Refusal :=
  .next (mapReg 1 f mapTrap (fun _ => mapVict) [] s)

/-- KSTAT d, a (R161). -/
def execKstat (f : RF) (s : State) : Host.Outcome State Fault Refusal :=
  .next (mapReg 1 f mapTrap (fun o => mapStat (o.sval f.a)) [.s f.a f.ta] s)

/-- KSTAT d, #key (R161). -/
def execKstatLiteral (f : RF) (lit : Word) (s : State) : Host.Outcome State Fault Refusal :=
  .next (mapReg 3 f mapTrap (fun _ => mapStat lit) [] s)

/-! ### Shared maps (R162-R166) -/

/-- A directory entry (R162): capacity exponent and storage address, if it is valid and in range. -/
def smapEntry (e : Nat) : Option (Nat × Nat) :=
  let log := field e 52 5
  if bit e 63 && 6 ≤ log && log ≤ 16 && field e 46 6 < 48 then some (log, 64 * field e 0 46) else none

/-- The map of a number in the directory of a PID (R162); one without a mapping has none. -/
def State.smap (s : State) (pid map : Nat) : Option (Nat × Nat) :=
  (s.service? pid).bind fun j => smapEntry (s.mem.readNat (j.maps + 8 * map) 8)

/-- Address of a key-table entry and of a value-index entry (R164). -/
def keyAt (base i : Nat) : Nat := base + 32 * i
def valAt (log base i : Nat) : Nat := base + 32 * 2 ^ log + 8 * i

/-- Probes from a home: the first place that satisfies `p`, none if an unused one comes first (R164).
`used` and `p` look at a place. -/
def probe (n : Nat) (used p : Nat → Bool) : Nat → Nat → Option Nat
  | 0, _ => none
  | fuel + 1, i => if !used i then none else if p i then some i else probe n used p fuel ((i + 1) % n)

/-- The first unused place on a probe (R164). -/
def probeFree (n : Nat) (used : Nat → Bool) : Nat → Nat → Option Nat
  | 0, _ => none
  | fuel + 1, i => if !used i then some i else probeFree n used fuel ((i + 1) % n)

/-- Home of a key and of a value (R164). -/
def keyHome (log : Nat) (key : Word) : Nat := (mixOf key 0).toNat % 2 ^ log
def valHome (log value : Nat) : Nat := (mixOf (BitVec.ofNat 64 value) 1).toNat % 2 ^ log

def keyUsed (m : Memory) (base i : Nat) : Bool := bit (m.readNat (keyAt base i) 32) 191
def valUsed (m : Memory) (log base i : Nat) : Bool := bit (m.readNat (valAt log base i) 8) 63

/-- Place of a key. -/
def findKey (m : Memory) (log base : Nat) (key : Word) : Option Nat :=
  probe (2 ^ log) (keyUsed m base) (fun i => field (m.readNat (keyAt base i) 32) 0 64 == key.toNat) (2 ^ log) (keyHome log key)

/-- Place of a value in the index. -/
def findVal (m : Memory) (log base value : Nat) : Option Nat :=
  probe (2 ^ log) (valUsed m log base) (fun i => field (m.readNat (valAt log base i) 8) 0 32 == value) (2 ^ log)
    (valHome log value)

/-- Place `h` lies cyclically in i + 1, ..., j of n (R164). -/
def cyclicIn (n i j h : Nat) : Bool := (h + n - (i + 1)) % n < (j + n - i) % n

/-- Closes the gap at `i` of the value index by backward shifting (R164). -/
def shiftVals (log base : Nat) : Nat → Nat → Nat → Memory → Memory
  | 0, _, _, m => m
  | fuel + 1, i, j, m =>
    let n := 2 ^ log
    if !valUsed m log base j then m
    else
      let e := m.readNat (valAt log base j) 8
      if cyclicIn n i j (valHome log (field e 0 32)) then shiftVals log base fuel i ((j + 1) % n) m
      else shiftVals log base fuel j ((j + 1) % n)
        ((m.writeNat (valAt log base i) 8 e).writeNat (valAt log base j) 8 0)

/-- Closes the gap at `i` of the key table; a moved entry's index entry follows (R164). -/
def shiftKeys (log base : Nat) : Nat → Nat → Nat → Memory → Memory
  | 0, _, _, m => m
  | fuel + 1, i, j, m =>
    let n := 2 ^ log
    if !keyUsed m base j then m
    else
      let e := m.readNat (keyAt base j) 32
      if cyclicIn n i j (keyHome log (BitVec.ofNat 64 (field e 0 64))) then shiftKeys log base fuel i ((j + 1) % n) m
      else
        let m := (m.writeNat (keyAt base i) 32 e).writeNat (keyAt base j) 32 0
        let m := match findVal m log base (field e 96 32) with
          | some v => m.writeNat (valAt log base v + 4) 2 i
          | none => m
        shiftKeys log base fuel j ((j + 1) % n) m

/-- Removes the binding at a place (R164 Unbind). -/
def unbindAt (m : Memory) (log base i value : Nat) : Memory :=
  let n := 2 ^ log
  let m := match findVal m log base value with
    | some v => shiftVals log base n v ((v + 1) % n) (m.writeNat (valAt log base v) 8 0)
    | none => m
  shiftKeys log base n i ((i + 1) % n) (m.writeNat (keyAt base i) 32 0)

/-- Used entries of a key table. -/
def usedCount (m : Memory) (log base : Nat) : Nat := ((List.range (2 ^ log)).filter (keyUsed m base)).length

/-- The state word of a shared entry (R165). -/
def smapState (e : Nat) : Nat := field e 128 16 * 2 ^ 16 + field e 160 14

/-- What a shared map's home finds: a result, or a late fault (R165). -/
inductive SMapOut where
  | done (x : Word) (m : Memory)
  | fault (code : Nat)
deriving DecidableEq, Repr

/-- Kinds of shared-map operation: the minors of major 0x22 (R165). A bind that finds a free entry in the key table but none in the value index,
which storage that breaks the layout can bring about, answers NOALLOW: the rules give no result for it (R164; DESIGN CHOICE, log 26). -/
def smapAct (op : SMapOp) (log base : Nat) (m : Memory) : SMapOut :=
  let n := 2 ^ log
  let check := op.check.toNat
  match findKey m log base op.key with
  | some i =>
    let e := m.readNat (keyAt base i) 32
    let pin := field e 128 16
    let bump := fun (d : Nat) => m.writeNat (keyAt base i + 16) 2 d
    if op.kind = 5 then .done (mapResult stOk (smapState e)) m
    else if field e 64 32 ≠ check then .done (mapResult stCollide 0) m
    else if op.kind = 3 then (if pin = 0 then .fault causePinUnderflow else .done (mapResult stOk (field e 96 32)) (bump (pin - 1)))
    else if op.kind = 4 then
      (if pin ≠ 0 then .done (mapResult stPinned 0) m
       else .done (mapResult stOk (field e 96 32)) (unbindAt m log base i (field e 96 32)))
    else if op.pin then
      (if 65535 ≤ pin then .fault causePinOverflow
       else .done (mapResult (if op.kind = 1 then stBound else stOk) (field e 96 32)) (bump (pin + 1)))
    else .done (mapResult (if op.kind = 1 then stBound else stOk) (field e 96 32)) m
  | none =>
    if op.kind ≠ 1 then .done (mapResult stMiss 0) m
    else if (findVal m log base op.value.toNat).isSome then .done (mapResult stBusy 0) m
    else if n ≤ usedCount m log base then .done (mapResult stNoAllow 0) m
    else
      match probeFree n (keyUsed m base) n (keyHome log op.key), probeFree n (valUsed m log base) n (valHome log op.value.toNat) with
      | some i, some v =>
        let e := op.key.toNat + check * 2 ^ 64 + op.value.toNat * 2 ^ 96 + boolNat op.pin * 2 ^ 128 + op.task % 2 ^ 14 * 2 ^ 160 +
          2 ^ 191
        .done (mapResult stOk op.value.toNat)
          ((m.writeNat (keyAt base i) 32 e).writeNat (valAt log base v) 8 (op.value.toNat + i * 2 ^ 32 + 2 ^ 63))
      | _, _ => .done (mapResult stNoAllow 0) m

/-- SHARED_MAP_HOME_ACTION (R163-R165): one operation at the home NMU; its reply delivers the result.
Of an operation from another device, PC holds the number that its reply carries (log 12). -/
def execSharedMapHomeAction (op : SMapOp) (s : State) : Host.Outcome State Fault Refusal :=
  guardPhysical (match s.smap op.pid op.map with
    | none => s
    | some (log, base) =>
      match smapAct op log base s.mem with
      | .done x m =>
        let changed := m != s.mem
        let s := if base + 40 * 2 ^ log ≤ memSize then { s with mem := m } else { s with oob := true }
        let s := if changed then s.wrote 0 base (40 * 2 ^ log) else s
        match peerOf op.sid.pos with
        | some dev => s.answerPeer dev op.pid op.sid op.pc.toNat 6 x 0 0 0
        | none => if let some a := op.app then s.fillAppend a (bytesOfNat 8 x.toNat) else s.postFree 1024
          (.deliver { sid := op.sid, owner := s.ownerOf op.sid, sregs := [(op.d, x)], bytes := [], lines := [], win := [] })
      | .fault c => match peerOf op.sid.pos with
        | some dev => s.answerPeer dev op.pid op.sid op.pc.toNat 6 0 0 0 c
        | none =>
          let s := match op.app with
            | some a => s.dropReq a
            | none => s.modStrand op.sid fun st => st.lose op.d
          s.lateFault op.sid ⟨c, op.pc, op.d.toNat, false, false, 0, 0⟩)

/-- A shared form at issue (R163, R165): an absent map traps, the destination is reserved, and the operation goes to the
map's home.
Its release side holds because it waits for the strand's earlier accesses; its acquire side, because later ones wait for it (R163,
R301; `holdsLater`, `mayAct`). The entry of a shared map names an NMU and no device; a strand's own device is its home (R162, R163; DESIGN CHOICE,
log 26). A binder that runs no task, the Hasp strand or a supervisor strand, is written as task 0 (DESIGN CHOICE,
log 26). -/
def smapForm (n : Nat) (f : RF) (x : Ext) (kind : Nat) (pin : Bool) (srcs : List Opnd) (key : State → Word)
    (value : State → BitVec 32) (s : State) : State :=
  s.gated 3 fun s =>
    s.issue 0 srcs [.s f.d false]
      (fun s => if (s.smap (s.pidOf s.cur) x.handle.toNat).isNone then some causeMapAbsent else none)
      fun o s =>
        if !s.quiet s.cur then o.lend .poll
        else
          let op : SMapOp :=
            { sid := s.cur, pid := s.pidOf s.cur, map := x.handle.toNat, kind := kind, pin := pin, key := key o,
              check := checkOf (o.sval f.b), value := value o, task := if s.isHasp || s.isSup then 0 else s.myCrew.task, d := f.d,
              pc := s.me.pc }
          let (app, s) := s.book (.s f.d false)
          ((s.reserve (.s f.d false)).postFree 1024 (.sharedMapHomeAction { op with app := app })).retire n

/-- KMLOOK d, #map, a, b (R165). -/
def execKmlook (f : RF) (x : Ext) (s : State) : Host.Outcome State Fault Refusal :=
  .next (smapForm 3 f x 0 (f.qf.getLsbD 0) [.s f.a f.ta, .s f.b f.tb] (fun o => o.sval f.a) (fun _ => 0) s)

/-- KMLOOK d, #map, #key, b (R165). -/
def execKmlookLiteral (f : RF) (x : Ext) (lit : Word) (s : State) : Host.Outcome State Fault Refusal :=
  .next (smapForm 5 f x 0 (f.qf.getLsbD 0) [.s f.b f.tb] (fun _ => lit) (fun _ => 0) s)

/-- KMBIND d, #map, a, b, c (R165). -/
def execKmbind (f : RF) (x : Ext) (s : State) : Host.Outcome State Fault Refusal :=
  .next (smapForm 3 f x 1 (f.qf.getLsbD 0) [.s f.a f.ta, .s f.b f.tb, .s x.c0 false] (fun o => o.sval f.a)
    (fun o => checkOf (o.sval x.c0)) s)

/-- KMBIND d, #map, #key, b, c (R165). -/
def execKmbindLiteral (f : RF) (x : Ext) (lit : Word) (s : State) : Host.Outcome State Fault Refusal :=
  .next (smapForm 5 f x 1 (f.qf.getLsbD 0) [.s f.b f.tb, .s x.c0 false] (fun _ => lit) (fun o => checkOf (o.sval x.c0)) s)

/-- KMPIN d, #map, a, b (R165). -/
def execKmpin (f : RF) (x : Ext) (s : State) : Host.Outcome State Fault Refusal :=
  .next (smapForm 3 f x 2 true [.s f.a f.ta, .s f.b f.tb] (fun o => o.sval f.a) (fun _ => 0) s)

/-- KMPIN d, #map, #key, b (R165). -/
def execKmpinLiteral (f : RF) (x : Ext) (lit : Word) (s : State) : Host.Outcome State Fault Refusal :=
  .next (smapForm 5 f x 2 true [.s f.b f.tb] (fun _ => lit) (fun _ => 0) s)

/-- KMUNPIN d, #map, a, b (R165). -/
def execKmunpin (f : RF) (x : Ext) (s : State) : Host.Outcome State Fault Refusal :=
  .next (smapForm 3 f x 3 false [.s f.a f.ta, .s f.b f.tb] (fun o => o.sval f.a) (fun _ => 0) s)

/-- KMUNPIN d, #map, #key, b (R165). -/
def execKmunpinLiteral (f : RF) (x : Ext) (lit : Word) (s : State) : Host.Outcome State Fault Refusal :=
  .next (smapForm 5 f x 3 false [.s f.b f.tb] (fun _ => lit) (fun _ => 0) s)

/-- KMUNBIND d, #map, a, b (R165). -/
def execKmunbind (f : RF) (x : Ext) (s : State) : Host.Outcome State Fault Refusal :=
  .next (smapForm 3 f x 4 false [.s f.a f.ta, .s f.b f.tb] (fun o => o.sval f.a) (fun _ => 0) s)

/-- KMUNBIND d, #map, #key, b (R165). -/
def execKmunbindLiteral (f : RF) (x : Ext) (lit : Word) (s : State) : Host.Outcome State Fault Refusal :=
  .next (smapForm 5 f x 4 false [.s f.b f.tb] (fun _ => lit) (fun _ => 0) s)

/-- KMSTAT d, #map, a (R165). -/
def execKmstat (f : RF) (x : Ext) (s : State) : Host.Outcome State Fault Refusal :=
  .next (smapForm 3 f x 5 false [.s f.a f.ta] (fun o => o.sval f.a) (fun _ => 0) s)

/-- KMSTAT d, #map, #key (R165). -/
def execKmstatLiteral (f : RF) (x : Ext) (lit : Word) (s : State) : Host.Outcome State Fault Refusal :=
  .next (smapForm 5 f x 5 false [] (fun _ => lit) (fun _ => 0) s)

end Sys2Proof.Machine
end

