-- ==== Sys2Proof/Machine/Slots.lean ====
section
/-! DEFINITION. Slot loads and stores and the granule forms (spec 07 R147-R150). -/

namespace Sys2Proof.Machine

/-- Slot and offset of a slot address (R143). -/
def slotOf (x : Word) : Nat := field x.toNat 0 8
def offOf (x : Word) (imm : Nat) : Nat := field x.toNat 8 14 + imm

/-- An access of the running strand through a remote-slot record to some of these bytes is outstanding: a later access of the strand to them
waits (R296, R297). -/
def State.ownAccessTo (s : State) (core a n : Nat) : Bool :=
  s.reqs.any fun r => r.ofStrand s.cur && r.space == 3 && r.peer == s.device && r.rcore == core &&
    r.elems.any fun e => e.phase != .done && meets e.va e.size a n

/-- A slot load (R147): `n` bytes at the address in `a`, offset `imm`, granules emptied under `clr`; with a status register
an empty granule ends it, otherwise it waits.
`d` is the destination, `put` what it does with the bytes. -/
def slotLoad (words : Nat) (a : Reg) (ta : Bool) (imm n align : Nat) (clr : Bool) (status : Option Reg) (d : Opnd)
    (put : List Byte → State → State) (s : State) : State :=
  s.withSources 0 [.s a ta] [d] <| State.afterAcquires fun s =>
    let x := s.sval a
    let at_ := 16384 * slotOf x + offOf x imm
    let (g, k) := granulesOf at_ n
    let done := fun (s : State) => s.popAll [.s a ta]
    match s.checkSlot (slotOf x) (offOf x imm) n align with
    | some c => s.trap c 0
    | none =>
      if s.ownAccessTo s.cur.core at_ n then s.lend .poll
      else if s.myCore.someEmpty at_ n then
        match status with
        | some c0 => s.withDests 0 [.s c0 false] (fun s => ((done s).putS c0 1).retire words)
        | none => s.lend (.granules 0 g k)
      else if s.myCore.slotBad at_ n then (s.reportUncorrected s.cur.core at_).trap causeSlotUncorrectable 0
      else s.withDests 0 (d :: (status.map fun c => Opnd.s c false).toList) fun s =>
        let (bytes, s) := s.slotBytes s.cur.core at_ n
        let s := (done s).reportCorrected s.cur.core at_ n
        let s := if clr then s.modMyCore fun c => { c with empty := addRange g k c.empty } else s
        let s := put bytes s
        let s := match status with | some c0 => s.putS c0 0 | none => s
        s.retire words

/-- The 64-bit value of a loaded element of a type (R147); no type is .n64. -/
def slotValue (t : Nat) (bs : List Byte) : Word := BitVec.ofNat 64 (natOfBytes (extendBytes (typeSigned t) 8 bs))

/-- Size of a slot LD or ST (R147): 8 bytes without a type. -/
def slotSize (t : Nat) : Nat := if t = 0 then 8 else typeSize t

/-- LD d, a of a slot, LEN 00 (R147). -/
def execLdSlot (f : RF) (s : State) : Host.Outcome State Fault Refusal :=
  .next (slotLoad 1 f.a f.ta 0 8 8 (f.qf.getLsbD 0) none (.s f.d false) (fun bs s => s.putS f.d (slotValue 0 bs)) s)

/-- LD d, a of a slot with a type, an offset or a status register (R147). -/
def execLdSlotExt (f : RF) (x : Ext) (s : State) : Host.Outcome State Fault Refusal :=
  let t := x.type.toNat
  let nb := f.qf.getLsbD 1
  .next (slotLoad 3 f.a f.ta (if nb then 0 else x.immA) (slotSize t) (slotSize t) (f.qf.getLsbD 0)
    (if nb then some x.c0 else none) (.s f.d false) (fun bs s => s.putS f.d (slotValue t bs)) s)

/-- VLD d, a of a slot, LEN 00 (R147). -/
def execVldSlot (f : RF) (s : State) : Host.Outcome State Fault Refusal :=
  .next (slotLoad 1 f.a f.ta 0 512 64 (f.qf.getLsbD 0) none (.v f.d false)
    (fun bs s => s.putV f.d bs (List.replicate 512 true)) s)

/-- VLD d, a of a slot with a mask, an offset or a status register (R147). -/
def execVldSlotExt (f : RF) (x : Ext) (s : State) : Host.Outcome State Fault Refusal :=
  let nb := f.qf.getLsbD 1
  .next (slotLoad 3 f.a f.ta (if nb then 0 else x.immA) 512 64 (f.qf.getLsbD 0) (if nb then some x.c0 else none)
    (.v f.d false) (fun bs s => s.putV f.d bs (bytesOn (lanesOn (s.me.mask x.mask.toNat)))) s)

/-- A slot ST of the low `n` bytes of a (R148): the address stands in b. -/
def slotSt (words : Nat) (f : RF) (imm n : Nat) (s : State) : State :=
  s.issue 0 [.s f.b f.tb, .s f.a f.ta] []
    (fun s => s.checkSlot (slotOf (s.sval f.b)) (offOf (s.sval f.b) imm) n n)
    fun o s =>
      let x := o.sval f.b
      let at_ := 16384 * slotOf x + offOf x imm
      if o.holdsLater o.cur || o.ownAccessTo o.cur.core at_ n then o.lend .poll
      else (s.tellCore.slotStore s.cur.core at_ (bytesOfNat n (o.sval f.a).toNat)).retire words

/-- ST of a slot, LEN 00 (R148). -/
def execStSlot (f : RF) (s : State) : Host.Outcome State Fault Refusal := .next (slotSt 1 f 0 8 s)

/-- ST of a slot with a type or an offset (R148). -/
def execStSlotExt (f : RF) (x : Ext) (s : State) : Host.Outcome State Fault Refusal :=
  .next (slotSt 3 f x.immA (slotSize x.type.toNat) s)

/-- A slot VST (R148): granules that hold an enabled lane turn full. -/
def slotVst (words : Nat) (f : RF) (imm mask : Nat) (s : State) : State :=
  s.issue 0 [.s f.b f.tb, .v f.a f.ta] []
    (fun s => s.checkSlot (slotOf (s.sval f.b)) (offOf (s.sval f.b) imm) 512 64)
    fun o s =>
      let x := o.sval f.b
      let at_ := 16384 * slotOf x + offOf x imm
      let on := lanesOn (o.me.mask mask)
      let full := (List.range 32).filter fun g => ((on.drop (4 * g)).take 4).any id
      if o.ownAccessTo o.cur.core at_ 512 then o.lend .poll
      else (s.tellCore.slotWrite s.cur.core at_ (o.vbytes f.a) (bytesOn on) (full.map fun g => at_ / 16 + g)).retire words

/-- VST of a slot, LEN 00 (R148). -/
def execVstSlot (f : RF) (s : State) : Host.Outcome State Fault Refusal := .next (slotVst 1 f 0 0 s)

/-- VST of a slot with a mask or an offset (R148). -/
def execVstSlotExt (f : RF) (x : Ext) (s : State) : Host.Outcome State Fault Refusal :=
  .next (slotVst 3 f x.immA x.mask.toNat s)

/-- SETFE (R149): sets granules of a slot empty or full, bytes unchanged. -/
def setGranules (f : RF) (x : Ext) (change : Nat → Nat → List Nat → List Nat) (s : State) : State :=
  s.issue 0 [.s f.a f.ta] []
    (fun s => if s.slotReserved (slotOf (s.sval f.a)) then some causeSlotReserved else none)
    fun o s =>
      let g := 1024 * slotOf (o.sval f.a) + x.immA
      if o.holdsLater o.cur || o.ownAccessTo o.cur.core (16 * g) (16 * x.immB) then o.lend .poll
      else (s.tellCore.modMyCore fun c =>
        { c with empty := change g x.immB c.empty }).retire 3

/-- SETFE.e (R149). -/
def execSetfeE (f : RF) (x : Ext) (s : State) : Host.Outcome State Fault Refusal := .next (setGranules f x addRange s)

/-- SETFE.f (R149). -/
def execSetfeF (f : RF) (x : Ext) (s : State) : Host.Outcome State Fault Refusal := .next (setGranules f x delRange s)

/-- TSTFE (R150). -/
def execTstfe (f : RF) (x : Ext) (s : State) : Host.Outcome State Fault Refusal :=
  .next (s.issue 0 [.s f.a f.ta] [.s f.d false]
    (fun s => if s.slotReserved (slotOf (s.sval f.a)) then some causeSlotReserved else none)
    fun o s =>
      let g := 1024 * slotOf (o.sval f.a) + x.immA
      if o.holdsLater o.cur || o.ownAccessTo o.cur.core (16 * g) (16 * x.immB) then o.lend .poll else
      let bits := (List.range x.immB).map fun i => if o.myCore.empty.contains (g + i) then 0 else 2 ^ i
      (s.putS f.d (BitVec.ofNat 64 bits.sum)).retire 3)

end Sys2Proof.Machine
end

