-- ==== Sys2Proof/Machine/Dispatch.lean ====
section
/-! DEFINITION. One arm for each constructor of `Instr`: one direct call of its meaning. -/

namespace Sys2Proof.Machine

/-- What an instruction or an event does (spec 03_encoding R46; 95_what_each_step_holds). -/
def exec (i : Instr) (s : State) : Host.Outcome State Fault Refusal :=
  match i with
  | .streamElementLand sid q => Sys2Proof.Machine.execStreamElementLand sid q s
  | .sharedMapHomeAction op => Sys2Proof.Machine.execSharedMapHomeAction op s
  | .atomicHomeApply req => Sys2Proof.Machine.execAtomicHomeApply req s
  | .lockAttempt req => Sys2Proof.Machine.execLockAttempt req s
  | .lockRetry req => Sys2Proof.Machine.execLockRetry req s
  | .syncAttempt req => Sys2Proof.Machine.execSyncAttempt req s
  | .waitneWake req => Sys2Proof.Machine.execWaitneWake req s
  | .waitneTimeout req serial => Sys2Proof.Machine.execWaitneTimeout req serial s
  | .chainEntryStart core engine => Sys2Proof.Machine.execChainEntryStart core engine s
  | .chain7StorageGrant core => Sys2Proof.Machine.execChain7StorageGrant core s
  | .copyTransfer core => Sys2Proof.Machine.execCopyTransfer core s
  | .engineGranuleLand core granule data e => Sys2Proof.Machine.execEngineGranuleLand core granule data e s
  | .entryComplete e => Sys2Proof.Machine.execEntryComplete e s
  | .markerComplete e => Sys2Proof.Machine.execMarkerComplete e s
  | .lateFault e code => Sys2Proof.Machine.execLateFault e code s
  | .gatherRowLand e row => Sys2Proof.Machine.execGatherRowLand e row s
  | .tileRecordStart core => Sys2Proof.Machine.execTileRecordStart core s
  | .kGroupApply core engine => Sys2Proof.Machine.execKGroupApply core engine s
  | .drainStart core engine => Sys2Proof.Machine.execDrainStart core engine s
  | .drainRow core engine => Sys2Proof.Machine.execDrainRow core engine s
  | .sideDrain core engine => Sys2Proof.Machine.execSideDrain core engine s
  | .bulkReduceVector e => Sys2Proof.Machine.execBulkReduceVector e s
  | .sendAtHome op => Sys2Proof.Machine.execSendAtHome op s
  | .eosAtHome op => Sys2Proof.Machine.execEosAtHome op s
  | .recvAtHome op => Sys2Proof.Machine.execRecvAtHome op s
  | .recvnbAtHome op => Sys2Proof.Machine.execRecvnbAtHome op s
  | .channelReply r => Sys2Proof.Machine.execChannelReply r s
  | .channelCycle pid chan => Sys2Proof.Machine.execChannelCycle pid chan s
  | .sendStall op => Sys2Proof.Machine.execSendStall op s
  | .parkRegister core task chan => Sys2Proof.Machine.execParkRegister core task chan s
  | .parkTakeEffect core task => Sys2Proof.Machine.execParkTakeEffect core task s
  | .barrierArriveAtHome op => Sys2Proof.Machine.execBarrierArriveAtHome op s
  | .implicitDrop pid task memb => Sys2Proof.Machine.execImplicitDrop pid task memb s
  | .barrierReply r => Sys2Proof.Machine.execBarrierReply r s
  | .lostEosEnqueue pid chan => Sys2Proof.Machine.execLostEosEnqueue pid chan s
  | .mcstSequence op => Sys2Proof.Machine.execMcstSequence op s
  | .multicastApply pid group n word val => Sys2Proof.Machine.execMulticastApply pid group n word val s
  | .multicastAckTimeout pid group member => Sys2Proof.Machine.execMulticastAckTimeout pid group member s
  | .reduceCombine op => Sys2Proof.Machine.execReduceCombine op s
  | .reduceRoundTimeout pid group round => Sys2Proof.Machine.execReduceRoundTimeout pid group round s
  | .reduceResultDeliver r => Sys2Proof.Machine.execReduceResultDeliver r s
  | .issueTurn core => Sys2Proof.Machine.execIssueTurn core s
  | .deliver p => Sys2Proof.Machine.execDeliver p s
  | .yieldEnd sid => Sys2Proof.Machine.execYieldEnd sid s
  | .spinWake sid => Sys2Proof.Machine.execSpinWake sid s
  | .spinTimeout sid serial => Sys2Proof.Machine.execSpinTimeout sid serial s
  | .layoutCacheFill core pid handle => Sys2Proof.Machine.execLayoutCacheFill core pid handle s
  | .translationWalk req elem => Sys2Proof.Machine.execTranslationWalk req elem s
  | .faultBufferRecord die pid page kind => Sys2Proof.Machine.execFaultBufferRecord die pid page kind s
  | .homeApply req elem => Sys2Proof.Machine.execHomeApply req elem s
  | .redirect req elem => Sys2Proof.Machine.execRedirect req elem s
  | .remoteSlotAccess req elem => Sys2Proof.Machine.execRemoteSlotAccess req elem s
  | .hostSpaceAccess req elem => Sys2Proof.Machine.execHostSpaceAccess req elem s
  | .hostMemoryAccess write addr data => Sys2Proof.Machine.execHostMemoryAccess write addr data s
  | .migSrcWrite v => Sys2Proof.Machine.execMigSrcWrite v s
  | .migrationDone => Sys2Proof.Machine.execMigrationDone s
  | .migFreeWrite v => Sys2Proof.Machine.execMigFreeWrite v s
  | .migrationMarkClear frame => Sys2Proof.Machine.execMigrationMarkClear frame s
  | .dispatchPlace die => Sys2Proof.Machine.execDispatchPlace die s
  | .jobChangeClearDone core => Sys2Proof.Machine.execJobChangeClearDone core s
  | .poolEntryHold die pid task => Sys2Proof.Machine.execPoolEntryHold die pid task s
  | .jobComplete pid => Sys2Proof.Machine.execJobComplete pid s
  | .handlerEntry sid => Sys2Proof.Machine.execHandlerEntry sid s
  | .chainCtlRetry core owner chain => Sys2Proof.Machine.execChainCtlRetry core owner chain s
  | .chainCtlSkip core owner chain => Sys2Proof.Machine.execChainCtlSkip core owner chain s
  | .chainCtlCancel core owner chain => Sys2Proof.Machine.execChainCtlCancel core owner chain s
  | .crewCtlPreempt core pos => Sys2Proof.Machine.execCrewCtlPreempt core pos s
  | .crewCtlKill core pos => Sys2Proof.Machine.execCrewCtlKill core pos s
  | .crewCtlResume core pos => Sys2Proof.Machine.execCrewCtlResume core pos s
  | .mailboxPost die m => Sys2Proof.Machine.execMailboxPost die m s
  | .niCtlReset core => Sys2Proof.Machine.execNiCtlReset core s
  | .niSelfReset core => Sys2Proof.Machine.execNiSelfReset core s
  | .niResetDone core => Sys2Proof.Machine.execNiResetDone core s
  | .preemptDeferExpire core task => Sys2Proof.Machine.execPreemptDeferExpire core task s
  | .preemptTakeEffect core task => Sys2Proof.Machine.execPreemptTakeEffect core task s
  | .contextSaveDone core task => Sys2Proof.Machine.execContextSaveDone core task s
  | .contextRestore core pid task => Sys2Proof.Machine.execContextRestore core pid task s
  | .haspCtlGo core v => Sys2Proof.Machine.execHaspCtlGo core v s
  | .haspCtlStop core => Sys2Proof.Machine.execHaspCtlStop core s
  | .haspRunnable core => Sys2Proof.Machine.execHaspRunnable core s
  | .crTargetWrite sid v => Sys2Proof.Machine.execCrTargetWrite sid v s
  | .slotErasedWrite core v => Sys2Proof.Machine.execSlotErasedWrite core v s
  | .slotErasedPassDone core => Sys2Proof.Machine.execSlotErasedPassDone core s
  | .patrolScrub core => Sys2Proof.Machine.execPatrolScrub core s
  | .linkStateDown port => Sys2Proof.Machine.execLinkStateDown port s
  | .linkStateRetrain port => Sys2Proof.Machine.execLinkStateRetrain port s
  | .linkRetrainDone port => Sys2Proof.Machine.execLinkRetrainDone port s
  | .fabCountRead => Sys2Proof.Machine.execFabCountRead s
  | .messageInject core => Sys2Proof.Machine.execMessageInject core s
  | .switchForward => Sys2Proof.Machine.execSwitchForward s
  | .linkReplay port good => Sys2Proof.Machine.execLinkReplay port good s
  | .endToEndResend core dst pseq => Sys2Proof.Machine.execEndToEndResend core dst pseq s
  | .messageArrive m => Sys2Proof.Machine.execMessageArrive m s
  | .acknowledgeArrive core dst pseq => Sys2Proof.Machine.execAcknowledgeArrive core dst pseq s
  | .sleetBudgetExpire index flit => Sys2Proof.Machine.execSleetBudgetExpire index flit s
  | .sleetWriteLand m => Sys2Proof.Machine.execSleetWriteLand m s
  | .cutCtlStart v => Sys2Proof.Machine.execCutCtlStart v s
  | .cutCtlRelease => Sys2Proof.Machine.execCutCtlRelease s
  | .cutCtlAbort => Sys2Proof.Machine.execCutCtlAbort s
  | .cutTaskRecord pid task => Sys2Proof.Machine.execCutTaskRecord pid task s
  | .cutPortMarker port epoch => Sys2Proof.Machine.execCutPortMarker port epoch s
  | .sqTailDoorbell v => Sys2Proof.Machine.execSqTailDoorbell v s
  | .nop e => Sys2Proof.Machine.execNop e s
  | .launch e => Sys2Proof.Machine.execLaunch e s
  | .launchCheckDone pid => Sys2Proof.Machine.execLaunchCheckDone pid s
  | .kill e => Sys2Proof.Machine.execKill e s
  | .attest e => Sys2Proof.Machine.execAttest e s
  | .unlock e => Sys2Proof.Machine.execUnlock e s
  | .fwload e => Sys2Proof.Machine.execFwload e s
  | .completionWrite => Sys2Proof.Machine.execCompletionWrite s
  | .dbgReqWrite v => Sys2Proof.Machine.execDbgReqWrite v s
  | .dbgReqApply => Sys2Proof.Machine.execDbgReqApply s
  | .dbgCmdRead v => Sys2Proof.Machine.execDbgCmdRead v s
  | .dbgCmdWrite v => Sys2Proof.Machine.execDbgCmdWrite v s
  | .hostReplay => Sys2Proof.Machine.execHostReplay s
  | .pwrReqActive => Sys2Proof.Machine.execPwrReqActive s
  | .pwrReqRetention => Sys2Proof.Machine.execPwrReqRetention s
  | .pwrReqOff => Sys2Proof.Machine.execPwrReqOff s
  | .powerStateEnter => Sys2Proof.Machine.execPowerStateEnter s
  | .idleEnter => Sys2Proof.Machine.execIdleEnter s
  | .powerWake => Sys2Proof.Machine.execPowerWake s
  | .powerThrottle => Sys2Proof.Machine.execPowerThrottle s
  | .registerWrite off v => Sys2Proof.Machine.execRegisterWrite off v s
  | .powerOn => Sys2Proof.Machine.execPowerOn s
  | .deviceReset => Sys2Proof.Machine.execDeviceReset s
  | .powerThrottleEnd => Sys2Proof.Machine.execPowerThrottleEnd s
  | .sleetPartialForward pid group round => Sys2Proof.Machine.execSleetPartialForward pid group round s
  | .cxlCacheSnoop line data => Sys2Proof.Machine.execCxlCacheSnoop line data s
  | .zeroWord => Sys2Proof.Machine.execZeroWord s
  | .breakWord => Sys2Proof.Machine.execBreakWord s
  | .add f => Sys2Proof.Machine.execAdd f s
  | .sub f => Sys2Proof.Machine.execSub f s
  | .mul f => Sys2Proof.Machine.execMul f s
  | .mulh f => Sys2Proof.Machine.execMulh f s
  | .div f => Sys2Proof.Machine.execDiv f s
  | .rem f => Sys2Proof.Machine.execRem f s
  | .and f => Sys2Proof.Machine.execAnd f s
  | .or f => Sys2Proof.Machine.execOr f s
  | .xor f => Sys2Proof.Machine.execXor f s
  | .shl f => Sys2Proof.Machine.execShl f s
  | .shr f => Sys2Proof.Machine.execShr f s
  | .sha f => Sys2Proof.Machine.execSha f s
  | .min f => Sys2Proof.Machine.execMin f s
  | .max f => Sys2Proof.Machine.execMax f s
  | .clz f => Sys2Proof.Machine.execClz f s
  | .popc f => Sys2Proof.Machine.execPopc f s
  | .sext f => Sys2Proof.Machine.execSext f s
  | .addLiteral f lit => Sys2Proof.Machine.execAddLiteral f lit s
  | .subLiteral f lit => Sys2Proof.Machine.execSubLiteral f lit s
  | .mulLiteral f lit => Sys2Proof.Machine.execMulLiteral f lit s
  | .mulhLiteral f lit => Sys2Proof.Machine.execMulhLiteral f lit s
  | .divLiteral f lit => Sys2Proof.Machine.execDivLiteral f lit s
  | .remLiteral f lit => Sys2Proof.Machine.execRemLiteral f lit s
  | .andLiteral f lit => Sys2Proof.Machine.execAndLiteral f lit s
  | .orLiteral f lit => Sys2Proof.Machine.execOrLiteral f lit s
  | .xorLiteral f lit => Sys2Proof.Machine.execXorLiteral f lit s
  | .shlLiteral f lit => Sys2Proof.Machine.execShlLiteral f lit s
  | .shrLiteral f lit => Sys2Proof.Machine.execShrLiteral f lit s
  | .shaLiteral f lit => Sys2Proof.Machine.execShaLiteral f lit s
  | .minLiteral f lit => Sys2Proof.Machine.execMinLiteral f lit s
  | .maxLiteral f lit => Sys2Proof.Machine.execMaxLiteral f lit s
  | .addImmediate f => Sys2Proof.Machine.execAddImmediate f s
  | .subImmediate f => Sys2Proof.Machine.execSubImmediate f s
  | .mulImmediate f => Sys2Proof.Machine.execMulImmediate f s
  | .andImmediate f => Sys2Proof.Machine.execAndImmediate f s
  | .orImmediate f => Sys2Proof.Machine.execOrImmediate f s
  | .xorImmediate f => Sys2Proof.Machine.execXorImmediate f s
  | .shlImmediate f => Sys2Proof.Machine.execShlImmediate f s
  | .shrImmediate f => Sys2Proof.Machine.execShrImmediate f s
  | .shaImmediate f => Sys2Proof.Machine.execShaImmediate f s
  | .mov f => Sys2Proof.Machine.execMov f s
  | .li f lit => Sys2Proof.Machine.execLi f lit s
  | .bfx f x => Sys2Proof.Machine.execBfx f x s
  | .bfi f x => Sys2Proof.Machine.execBfi f x s
  | .mix f => Sys2Proof.Machine.execMix f s
  | .cmp f op => Sys2Proof.Machine.execCmp f op s
  | .cmpLiteral f op lit => Sys2Proof.Machine.execCmpLiteral f op lit s
  | .cmpImmediate f => Sys2Proof.Machine.execCmpImmediate f s
  | .b off => Sys2Proof.Machine.execB off s
  | .bl off => Sys2Proof.Machine.execBl off s
  | .br f => Sys2Proof.Machine.execBr f s
  | .blr f => Sys2Proof.Machine.execBlr f s
  | .ret => Sys2Proof.Machine.execRet s
  | .loop f x => Sys2Proof.Machine.execLoop f x s
  | .lbrk => Sys2Proof.Machine.execLbrk s
  | .fadd f => Sys2Proof.Machine.execFadd f s
  | .fsub f => Sys2Proof.Machine.execFsub f s
  | .fmul f => Sys2Proof.Machine.execFmul f s
  | .fdiv f => Sys2Proof.Machine.execFdiv f s
  | .fmin f => Sys2Proof.Machine.execFmin f s
  | .fmax f => Sys2Proof.Machine.execFmax f s
  | .fsqrt f => Sys2Proof.Machine.execFsqrt f s
  | .fma f => Sys2Proof.Machine.execFma f s
  | .cvtfi f => Sys2Proof.Machine.execCvtfi f s
  | .cvtfn f => Sys2Proof.Machine.execCvtfn f s
  | .cvtif f => Sys2Proof.Machine.execCvtif f s
  | .cvtnf f => Sys2Proof.Machine.execCvtnf f s
  | .fclass f => Sys2Proof.Machine.execFclass f s
  | .fexp2 f => Sys2Proof.Machine.execFexp2 f s
  | .flog2 f => Sys2Proof.Machine.execFlog2 f s
  | .frcp f => Sys2Proof.Machine.execFrcp f s
  | .frsq f => Sys2Proof.Machine.execFrsq f s
  | .fcmp f op => Sys2Proof.Machine.execFcmp f op s
  | .vadd f => Sys2Proof.Machine.execVadd f s
  | .vsub f => Sys2Proof.Machine.execVsub f s
  | .vmul f => Sys2Proof.Machine.execVmul f s
  | .vmin f => Sys2Proof.Machine.execVmin f s
  | .vmax f => Sys2Proof.Machine.execVmax f s
  | .vand f => Sys2Proof.Machine.execVand f s
  | .vor f => Sys2Proof.Machine.execVor f s
  | .vxor f => Sys2Proof.Machine.execVxor f s
  | .vshl f => Sys2Proof.Machine.execVshl f s
  | .vshr f => Sys2Proof.Machine.execVshr f s
  | .vsha f => Sys2Proof.Machine.execVsha f s
  | .vdiv f => Sys2Proof.Machine.execVdiv f s
  | .vaddExt f x => Sys2Proof.Machine.execVaddExt f x s
  | .vsubExt f x => Sys2Proof.Machine.execVsubExt f x s
  | .vmulExt f x => Sys2Proof.Machine.execVmulExt f x s
  | .vminExt f x => Sys2Proof.Machine.execVminExt f x s
  | .vmaxExt f x => Sys2Proof.Machine.execVmaxExt f x s
  | .vandExt f x => Sys2Proof.Machine.execVandExt f x s
  | .vorExt f x => Sys2Proof.Machine.execVorExt f x s
  | .vxorExt f x => Sys2Proof.Machine.execVxorExt f x s
  | .vshlExt f x => Sys2Proof.Machine.execVshlExt f x s
  | .vshrExt f x => Sys2Proof.Machine.execVshrExt f x s
  | .vshaExt f x => Sys2Proof.Machine.execVshaExt f x s
  | .vdivExt f x => Sys2Proof.Machine.execVdivExt f x s
  | .vfma f => Sys2Proof.Machine.execVfma f s
  | .vfms f => Sys2Proof.Machine.execVfms f s
  | .vabs f => Sys2Proof.Machine.execVabs f s
  | .vneg f => Sys2Proof.Machine.execVneg f s
  | .vsqrt f => Sys2Proof.Machine.execVsqrt f s
  | .vsel f => Sys2Proof.Machine.execVsel f s
  | .vfmaExt f x => Sys2Proof.Machine.execVfmaExt f x s
  | .vfmsExt f x => Sys2Proof.Machine.execVfmsExt f x s
  | .vabsExt f x => Sys2Proof.Machine.execVabsExt f x s
  | .vnegExt f x => Sys2Proof.Machine.execVnegExt f x s
  | .vsqrtExt f x => Sys2Proof.Machine.execVsqrtExt f x s
  | .vselExt f x => Sys2Proof.Machine.execVselExt f x s
  | .vcmp f op => Sys2Proof.Machine.execVcmp f op s
  | .vcmpExt f op x => Sys2Proof.Machine.execVcmpExt f op x s
  | .mand f => Sys2Proof.Machine.execMand f s
  | .mor f => Sys2Proof.Machine.execMor f s
  | .mxor f => Sys2Proof.Machine.execMxor f s
  | .mnot f => Sys2Proof.Machine.execMnot f s
  | .mpopc f => Sys2Proof.Machine.execMpopc f s
  | .vcvt f op => Sys2Proof.Machine.execVcvt f op s
  | .vcvtExt f op x => Sys2Proof.Machine.execVcvtExt f op x s
  | .vexp2 f => Sys2Proof.Machine.execVexp2 f s
  | .vlog2 f => Sys2Proof.Machine.execVlog2 f s
  | .vrcp f => Sys2Proof.Machine.execVrcp f s
  | .vrsq f => Sys2Proof.Machine.execVrsq f s
  | .vexp f => Sys2Proof.Machine.execVexp f s
  | .vexp2Ext f x => Sys2Proof.Machine.execVexp2Ext f x s
  | .vlog2Ext f x => Sys2Proof.Machine.execVlog2Ext f x s
  | .vrcpExt f x => Sys2Proof.Machine.execVrcpExt f x s
  | .vrsqExt f x => Sys2Proof.Machine.execVrsqExt f x s
  | .vexpExt f x => Sys2Proof.Machine.execVexpExt f x s
  | .vrsum f => Sys2Proof.Machine.execVrsum f s
  | .vrmax f => Sys2Proof.Machine.execVrmax f s
  | .vrmin f => Sys2Proof.Machine.execVrmin f s
  | .vscan f => Sys2Proof.Machine.execVscan f s
  | .vscanX f => Sys2Proof.Machine.execVscanX f s
  | .vrsumExt f x => Sys2Proof.Machine.execVrsumExt f x s
  | .vrmaxExt f x => Sys2Proof.Machine.execVrmaxExt f x s
  | .vrminExt f x => Sys2Proof.Machine.execVrminExt f x s
  | .vscanExt f x => Sys2Proof.Machine.execVscanExt f x s
  | .vscanXExt f x => Sys2Proof.Machine.execVscanXExt f x s
  | .vperm f => Sys2Proof.Machine.execVperm f s
  | .vpermRotate f x => Sys2Proof.Machine.execVpermRotate f x s
  | .vbcast f => Sys2Proof.Machine.execVbcast f s
  | .vbcastExt f x => Sys2Proof.Machine.execVbcastExt f x s
  | .vins f => Sys2Proof.Machine.execVins f s
  | .vinsImmediate f x => Sys2Proof.Machine.execVinsImmediate f x s
  | .vext f => Sys2Proof.Machine.execVext f s
  | .vextImmediate f x => Sys2Proof.Machine.execVextImmediate f x s
  | .vtrans f => Sys2Proof.Machine.execVtrans f s
  | .viota f => Sys2Proof.Machine.execViota f s
  | .viotaExt f x => Sys2Proof.Machine.execViotaExt f x s
  | .vtopkAdd f => Sys2Proof.Machine.execVtopkAdd f s
  | .vtopkAddExt f x => Sys2Proof.Machine.execVtopkAddExt f x s
  | .vtopkDrain f => Sys2Proof.Machine.execVtopkDrain f s
  | .vtopkClr f => Sys2Proof.Machine.execVtopkClr f s
  | .wadd f => Sys2Proof.Machine.execWadd f s
  | .waddExt f x => Sys2Proof.Machine.execWaddExt f x s
  | .waddm f => Sys2Proof.Machine.execWaddm f s
  | .waddmExt f x => Sys2Proof.Machine.execWaddmExt f x s
  | .wrnd f => Sys2Proof.Machine.execWrnd f s
  | .wrndExt f x => Sys2Proof.Machine.execWrndExt f x s
  | .wmean f => Sys2Proof.Machine.execWmean f s
  | .wmeanExt f x => Sys2Proof.Machine.execWmeanExt f x s
  | .wscale f => Sys2Proof.Machine.execWscale f s
  | .wscaleExt f x => Sys2Proof.Machine.execWscaleExt f x s
  | .setview f => Sys2Proof.Machine.execSetview f s
  | .vmov f => Sys2Proof.Machine.execVmov f s
  | .spld f => Sys2Proof.Machine.execSpld f s
  | .spldOffset f x => Sys2Proof.Machine.execSpldOffset f x s
  | .spst f => Sys2Proof.Machine.execSpst f s
  | .spstOffset f x => Sys2Proof.Machine.execSpstOffset f x s
  | .sopen f x => Sys2Proof.Machine.execSopen f x s
  | .stend f => Sys2Proof.Machine.execStend f s
  | .sclose f => Sys2Proof.Machine.execSclose f s
  | .fopen f x => Sys2Proof.Machine.execFopen f x s
  | .fadv f => Sys2Proof.Machine.execFadv f s
  | .ftend f => Sys2Proof.Machine.execFtend f s
  | .fclose f => Sys2Proof.Machine.execFclose f s
  | .fisect f => Sys2Proof.Machine.execFisect f s
  | .ldSlot f => Sys2Proof.Machine.execLdSlot f s
  | .ldSlotExt f x => Sys2Proof.Machine.execLdSlotExt f x s
  | .vldSlot f => Sys2Proof.Machine.execVldSlot f s
  | .vldSlotExt f x => Sys2Proof.Machine.execVldSlotExt f x s
  | .stSlot f => Sys2Proof.Machine.execStSlot f s
  | .stSlotExt f x => Sys2Proof.Machine.execStSlotExt f x s
  | .vstSlot f => Sys2Proof.Machine.execVstSlot f s
  | .vstSlotExt f x => Sys2Proof.Machine.execVstSlotExt f x s
  | .setfeE f x => Sys2Proof.Machine.execSetfeE f x s
  | .setfeF f x => Sys2Proof.Machine.execSetfeF f x s
  | .tstfe f x => Sys2Proof.Machine.execTstfe f x s
  | .klook f => Sys2Proof.Machine.execKlook f s
  | .klookLiteral f lit => Sys2Proof.Machine.execKlookLiteral f lit s
  | .kbind f x => Sys2Proof.Machine.execKbind f x s
  | .kbindLiteral f x lit => Sys2Proof.Machine.execKbindLiteral f x lit s
  | .kpin f => Sys2Proof.Machine.execKpin f s
  | .kpinLiteral f lit => Sys2Proof.Machine.execKpinLiteral f lit s
  | .kunpin f => Sys2Proof.Machine.execKunpin f s
  | .kunpinLiteral f lit => Sys2Proof.Machine.execKunpinLiteral f lit s
  | .kunbind f => Sys2Proof.Machine.execKunbind f s
  | .kunbindLiteral f lit => Sys2Proof.Machine.execKunbindLiteral f lit s
  | .kvict f => Sys2Proof.Machine.execKvict f s
  | .kstat f => Sys2Proof.Machine.execKstat f s
  | .kstatLiteral f lit => Sys2Proof.Machine.execKstatLiteral f lit s
  | .kmlook f x => Sys2Proof.Machine.execKmlook f x s
  | .kmlookLiteral f x lit => Sys2Proof.Machine.execKmlookLiteral f x lit s
  | .kmbind f x => Sys2Proof.Machine.execKmbind f x s
  | .kmbindLiteral f x lit => Sys2Proof.Machine.execKmbindLiteral f x lit s
  | .kmpin f x => Sys2Proof.Machine.execKmpin f x s
  | .kmpinLiteral f x lit => Sys2Proof.Machine.execKmpinLiteral f x lit s
  | .kmunpin f x => Sys2Proof.Machine.execKmunpin f x s
  | .kmunpinLiteral f x lit => Sys2Proof.Machine.execKmunpinLiteral f x lit s
  | .kmunbind f x => Sys2Proof.Machine.execKmunbind f x s
  | .kmunbindLiteral f x lit => Sys2Proof.Machine.execKmunbindLiteral f x lit s
  | .kmstat f x => Sys2Proof.Machine.execKmstat f x s
  | .kmstatLiteral f x lit => Sys2Proof.Machine.execKmstatLiteral f x lit s
  | .lnarrow f x => Sys2Proof.Machine.execLnarrow f x s
  | .lread f x => Sys2Proof.Machine.execLread f x s
  | .lwrite f x => Sys2Proof.Machine.execLwrite f x s
  | .ldDevice f x => Sys2Proof.Machine.execLdDevice f x s
  | .stDevice f x => Sys2Proof.Machine.execStDevice f x s
  | .vldDevice f x => Sys2Proof.Machine.execVldDevice f x s
  | .vstDevice f x => Sys2Proof.Machine.execVstDevice f x s
  | .gather f x => Sys2Proof.Machine.execGather f x s
  | .scatter f x => Sys2Proof.Machine.execScatter f x s
  | .aadd f x => Sys2Proof.Machine.execAadd f x s
  | .amin f x => Sys2Proof.Machine.execAmin f x s
  | .amax f x => Sys2Proof.Machine.execAmax f x s
  | .aand f x => Sys2Proof.Machine.execAand f x s
  | .aor f x => Sys2Proof.Machine.execAor f x s
  | .axor f x => Sys2Proof.Machine.execAxor f x s
  | .aswap f x => Sys2Proof.Machine.execAswap f x s
  | .acas f x => Sys2Proof.Machine.execAcas f x s
  | .acas4 f x => Sys2Proof.Machine.execAcas4 f x s
  | .aenq f x => Sys2Proof.Machine.execAenq f x s
  | .achase f x => Sys2Proof.Machine.execAchase f x s
  | .rwrd f x => Sys2Proof.Machine.execRwrd f x s
  | .rwwr f x => Sys2Proof.Machine.execRwwr f x s
  | .rwrdx f x => Sys2Proof.Machine.execRwrdx f x s
  | .rwwrx f x => Sys2Proof.Machine.execRwwrx f x s
  | .rwtry f x => Sys2Proof.Machine.execRwtry f x s
  | .ldsync f x => Sys2Proof.Machine.execLdsync f x s
  | .stsync f x => Sys2Proof.Machine.execStsync f x s
  | .waitne f x => Sys2Proof.Machine.execWaitne f x s
  | .chapp f => Sys2Proof.Machine.execChapp f s
  | .chwait f => Sys2Proof.Machine.execChwait f s
  | .chseq f => Sys2Proof.Machine.execChseq f s
  | .btset f => Sys2Proof.Machine.execBtset f s
  | .bten f => Sys2Proof.Machine.execBten f s
  | .rbset f => Sys2Proof.Machine.execRbset f s
  | .msave f => Sys2Proof.Machine.execMsave f s
  | .mload f => Sys2Proof.Machine.execMload f s
  | .mzero f => Sys2Proof.Machine.execMzero f s
  | .send f => Sys2Proof.Machine.execSend f s
  | .recv f => Sys2Proof.Machine.execRecv f s
  | .recvnb f => Sys2Proof.Machine.execRecvnb f s
  | .eos f => Sys2Proof.Machine.execEos f s
  | .parkRes => Sys2Proof.Machine.execParkRes s
  | .parkPool => Sys2Proof.Machine.execParkPool s
  | .barrive f => Sys2Proof.Machine.execBarrive f s
  | .bwait f => Sys2Proof.Machine.execBwait f s
  | .bsync f => Sys2Proof.Machine.execBsync f s
  | .bdrop f => Sys2Proof.Machine.execBdrop f s
  | .devnum f => Sys2Proof.Machine.execDevnum f s
  | .mcst f x => Sys2Proof.Machine.execMcst f x s
  | .slsend f x => Sys2Proof.Machine.execSlsend f x s
  | .reduce f x => Sys2Proof.Machine.execReduce f x s
  | .claim f => Sys2Proof.Machine.execClaim f s
  | .claimImmediate f x => Sys2Proof.Machine.execClaimImmediate f x s
  | .acq f => Sys2Proof.Machine.execAcq f s
  | .acqImmediate f x => Sys2Proof.Machine.execAcqImmediate f x s
  | .acqNb f => Sys2Proof.Machine.execAcqNb f s
  | .acqNbImmediate f x => Sys2Proof.Machine.execAcqNbImmediate f x s
  | .rel f => Sys2Proof.Machine.execRel f s
  | .relImmediate f x => Sys2Proof.Machine.execRelImmediate f x s
  | .trap f x => Sys2Proof.Machine.execTrap f x s
  | .returnOp => Sys2Proof.Machine.execReturnOp s
  | .crrd f x => Sys2Proof.Machine.execCrrd f x s
  | .crwr f x => Sys2Proof.Machine.execCrwr f x s
  | .fence f => Sys2Proof.Machine.execFence f s
  | .fenceExt f x => Sys2Proof.Machine.execFenceExt f x s
  | .ppoint f => Sys2Proof.Machine.execPpoint f s
  | .yield => Sys2Proof.Machine.execYield s
  | .halt => Sys2Proof.Machine.execHalt s
  | .tlbinv f => Sys2Proof.Machine.execTlbinv f s
  | .replay => Sys2Proof.Machine.execReplay s

end Sys2Proof.Machine
end

