-- ==== Sys2Proof/Machine/Run.lean ====
section
/-! DEFINITION. Fetch's last part: decode the words and run the instruction.
`Instr` has more constructors than compiled code can build, so the decoder is a definition for the kernel and for proofs;
`fetchRun` is the same function without the instruction in between, proved equal, and the compiler uses it. -/

namespace Sys2Proof.Machine

/-- Decodes the words of one instruction and runs it; what is no instruction raises Illegal Instruction (R49). -/
noncomputable def fetchExec (ws : List W32) (s : State) : Host.Outcome State Fault Refusal :=
  match decodeWords ws with
  | .ok i => exec i s
  | .error _ => .next (s.trap causeIllegal 0)

/-- What running needs of an instruction: `distinct`, the view and the meaning. -/
structure Packed where
  distinct : Bool
  view : View
  run : State → Host.Outcome State Fault Refusal

/-- The packed form of an instruction. -/
def pack (i : Instr) : Packed := ⟨i.distinct, i.view, exec i⟩

/-- Major opcode 0x01. -/
def run1 (len : Nat) (op : BitVec 5) (f : RF) (_x : Ext) (lit : Word) : Option Packed :=
  match len, op.toNat with
  | 0, 0 => some ⟨true, .r ⟨1, .s, .s, .s, true, true, [0], .none, .fixed⟩ f 0 none none, fun s => Sys2Proof.Machine.execAdd f s⟩
  | 0, 1 => some ⟨true, .r ⟨1, .s, .s, .s, true, true, [0], .none, .fixed⟩ f 1 none none, fun s => Sys2Proof.Machine.execSub f s⟩
  | 0, 2 => some ⟨true, .r ⟨1, .s, .s, .s, true, true, [0], .none, .fixed⟩ f 2 none none, fun s => Sys2Proof.Machine.execMul f s⟩
  | 0, 3 => some ⟨true, .r ⟨1, .s, .s, .s, true, true, [0, 1], .none, .fixed⟩ f 3 none none, fun s => Sys2Proof.Machine.execMulh f s⟩
  | 0, 4 => some ⟨true, .r ⟨1, .s, .s, .s, true, true, [0, 1], .none, .fixed⟩ f 4 none none, fun s => Sys2Proof.Machine.execDiv f s⟩
  | 0, 5 => some ⟨true, .r ⟨1, .s, .s, .s, true, true, [0, 1], .none, .fixed⟩ f 5 none none, fun s => Sys2Proof.Machine.execRem f s⟩
  | 0, 6 => some ⟨true, .r ⟨1, .s, .s, .s, true, true, [0], .none, .fixed⟩ f 6 none none, fun s => Sys2Proof.Machine.execAnd f s⟩
  | 0, 7 => some ⟨true, .r ⟨1, .s, .s, .s, true, true, [0], .none, .fixed⟩ f 7 none none, fun s => Sys2Proof.Machine.execOr f s⟩
  | 0, 8 => some ⟨true, .r ⟨1, .s, .s, .s, true, true, [0], .none, .fixed⟩ f 8 none none, fun s => Sys2Proof.Machine.execXor f s⟩
  | 0, 9 => some ⟨true, .r ⟨1, .s, .s, .s, true, true, [0], .none, .fixed⟩ f 9 none none, fun s => Sys2Proof.Machine.execShl f s⟩
  | 0, 10 => some ⟨true, .r ⟨1, .s, .s, .s, true, true, [0], .none, .fixed⟩ f 10 none none, fun s => Sys2Proof.Machine.execShr f s⟩
  | 0, 11 => some ⟨true, .r ⟨1, .s, .s, .s, true, true, [0], .none, .fixed⟩ f 11 none none, fun s => Sys2Proof.Machine.execSha f s⟩
  | 0, 12 => some ⟨true, .r ⟨1, .s, .s, .s, true, true, [0, 1], .none, .fixed⟩ f 12 none none, fun s => Sys2Proof.Machine.execMin f s⟩
  | 0, 13 => some ⟨true, .r ⟨1, .s, .s, .s, true, true, [0, 1], .none, .fixed⟩ f 13 none none, fun s => Sys2Proof.Machine.execMax f s⟩
  | 0, 14 => some ⟨true, .r ⟨1, .s, .s, .none, true, false, [0], .none, .fixed⟩ f 14 none none, fun s => Sys2Proof.Machine.execClz f s⟩
  | 0, 15 => some ⟨true, .r ⟨1, .s, .s, .none, true, false, [0], .none, .fixed⟩ f 15 none none, fun s => Sys2Proof.Machine.execPopc f s⟩
  | 0, 16 => some ⟨true, .r ⟨1, .s, .s, .none, true, false, [0, 1, 2], .none, .fixed⟩ f 16 none none, fun s => Sys2Proof.Machine.execSext f s⟩
  | 2, 0 => some ⟨true, .r ⟨1, .s, .s, .none, true, false, [0], .none, .fixed⟩ f 0 none (some lit), fun s => Sys2Proof.Machine.execAddLiteral f lit s⟩
  | 2, 1 => some ⟨true, .r ⟨1, .s, .s, .none, true, false, [0], .none, .fixed⟩ f 1 none (some lit), fun s => Sys2Proof.Machine.execSubLiteral f lit s⟩
  | 2, 2 => some ⟨true, .r ⟨1, .s, .s, .none, true, false, [0], .none, .fixed⟩ f 2 none (some lit), fun s => Sys2Proof.Machine.execMulLiteral f lit s⟩
  | 2, 3 => some ⟨true, .r ⟨1, .s, .s, .none, true, false, [0, 1], .none, .fixed⟩ f 3 none (some lit), fun s => Sys2Proof.Machine.execMulhLiteral f lit s⟩
  | 2, 4 => some ⟨true, .r ⟨1, .s, .s, .none, true, false, [0, 1], .none, .fixed⟩ f 4 none (some lit), fun s => Sys2Proof.Machine.execDivLiteral f lit s⟩
  | 2, 5 => some ⟨true, .r ⟨1, .s, .s, .none, true, false, [0, 1], .none, .fixed⟩ f 5 none (some lit), fun s => Sys2Proof.Machine.execRemLiteral f lit s⟩
  | 2, 6 => some ⟨true, .r ⟨1, .s, .s, .none, true, false, [0], .none, .fixed⟩ f 6 none (some lit), fun s => Sys2Proof.Machine.execAndLiteral f lit s⟩
  | 2, 7 => some ⟨true, .r ⟨1, .s, .s, .none, true, false, [0], .none, .fixed⟩ f 7 none (some lit), fun s => Sys2Proof.Machine.execOrLiteral f lit s⟩
  | 2, 8 => some ⟨true, .r ⟨1, .s, .s, .none, true, false, [0], .none, .fixed⟩ f 8 none (some lit), fun s => Sys2Proof.Machine.execXorLiteral f lit s⟩
  | 2, 9 => some ⟨true, .r ⟨1, .s, .s, .none, true, false, [0], .none, .fixed⟩ f 9 none (some lit), fun s => Sys2Proof.Machine.execShlLiteral f lit s⟩
  | 2, 10 => some ⟨true, .r ⟨1, .s, .s, .none, true, false, [0], .none, .fixed⟩ f 10 none (some lit), fun s => Sys2Proof.Machine.execShrLiteral f lit s⟩
  | 2, 11 => some ⟨true, .r ⟨1, .s, .s, .none, true, false, [0], .none, .fixed⟩ f 11 none (some lit), fun s => Sys2Proof.Machine.execShaLiteral f lit s⟩
  | 2, 12 => some ⟨true, .r ⟨1, .s, .s, .none, true, false, [0, 1], .none, .fixed⟩ f 12 none (some lit), fun s => Sys2Proof.Machine.execMinLiteral f lit s⟩
  | 2, 13 => some ⟨true, .r ⟨1, .s, .s, .none, true, false, [0, 1], .none, .fixed⟩ f 13 none (some lit), fun s => Sys2Proof.Machine.execMaxLiteral f lit s⟩
  | _, _ => none

theorem run1_eq (len : Nat) (op : BitVec 5) (f : RF) (x : Ext) (lit : Word) :
    run1 len op f x lit = (major1 len op f x lit).map pack := by
  unfold run1 major1
  generalize op.toNat = m
  rcases len with _ | _ | _ | len <;> rcases m with _ | _ | _ | _ | _ | _ | _ | _ | _ | _ | _ | _ | _ | _ | _ | _ | _ | m <;> rfl

/-- Major opcode 0x03. -/
def run3 (len : Nat) (op : BitVec 5) (f : RF) (x : Ext) (lit : Word) : Option Packed :=
  match len, op.toNat with
  | 0, 0 => some ⟨true, .r ⟨3, .s, .s, .none, true, false, [0], .none, .fixed⟩ f 0 none none, fun s => Sys2Proof.Machine.execMov f s⟩
  | 2, 1 => some ⟨true, .r ⟨3, .s, .none, .none, false, false, [0], .none, .fixed⟩ f 1 none (some lit), fun s => Sys2Proof.Machine.execLi f lit s⟩
  | 1, 2 => some ⟨true, .r ⟨3, .s, .s, .none, true, false, [0], .bitField, .fixed⟩ f 2 (some x) none, fun s => Sys2Proof.Machine.execBfx f x s⟩
  | 1, 3 => some ⟨true, .r ⟨3, .s, .s, .none, true, false, [0], .bitField, .fixed⟩ f 3 (some x) none, fun s => Sys2Proof.Machine.execBfi f x s⟩
  | _, _ => none

theorem run3_eq (len : Nat) (op : BitVec 5) (f : RF) (x : Ext) (lit : Word) :
    run3 len op f x lit = (major3 len op f x lit).map pack := by
  unfold run3 major3
  generalize op.toNat = m
  rcases len with _ | _ | _ | len <;> rcases m with _ | _ | _ | _ | m <;> rfl

/-- Major opcode 0x04. -/
def run4 (len : Nat) (op : BitVec 5) (f : RF) (_x : Ext) (_lit : Word) : Option Packed :=
  match len, op.toNat with
  | 0, 0 => some ⟨true, .r ⟨4, .s, .s, .s, true, true, [0], .none, .fixed⟩ f 0 none none, fun s => Sys2Proof.Machine.execMix f s⟩
  | _, _ => none

theorem run4_eq (len : Nat) (op : BitVec 5) (f : RF) (x : Ext) (lit : Word) :
    run4 len op f x lit = (major4 len op f x lit).map pack := by
  unfold run4 major4
  generalize op.toNat = m
  rcases len with _ | len <;> rcases m with _ | m <;> rfl

/-- Major opcode 0x08. -/
def run8 (len : Nat) (op : BitVec 5) (f : RF) (_x : Ext) (lit : Word) : Option Packed :=
  match len with
  | 0 => some ⟨true, .r ⟨8, .none, .s, .s, true, true, [0, 1, 2, 3], .none, .int⟩ f op none none, fun s => Sys2Proof.Machine.execCmp f op s⟩
  | 2 => some ⟨true, .r ⟨8, .none, .s, .none, true, false, [0, 1, 2, 3], .none, .int⟩ f op none (some lit), fun s => Sys2Proof.Machine.execCmpLiteral f op lit s⟩
  | _ => none

theorem run8_eq (len : Nat) (op : BitVec 5) (f : RF) (x : Ext) (lit : Word) :
    run8 len op f x lit = (major8 len op f x lit).map pack := by
  unfold run8 major8
  rcases len with _ | _ | _ | len <;> rfl

/-- Major opcode 0x0b. -/
def run11 (len : Nat) (op : BitVec 5) (f : RF) (x : Ext) (_lit : Word) : Option Packed :=
  match len, op.toNat with
  | 0, 0 => some ⟨true, .r ⟨11, .none, .s, .none, true, false, [0], .none, .fixed⟩ f 0 none none, fun s => Sys2Proof.Machine.execBr f s⟩
  | 0, 1 => some ⟨true, .r ⟨11, .none, .s, .none, true, false, [0], .none, .fixed⟩ f 1 none none, fun s => Sys2Proof.Machine.execBlr f s⟩
  | 0, 2 => some ⟨true, .word 0x0B000002#32, fun s => Sys2Proof.Machine.execRet s⟩
  | 1, 3 => some ⟨true, .r ⟨11, .none, .s, .none, true, false, [0], (.imm 1 65535 false), .fixed⟩ f 3 (some x) none, fun s => Sys2Proof.Machine.execLoop f x s⟩
  | 0, 4 => some ⟨true, .word 0x0B000004#32, fun s => Sys2Proof.Machine.execLbrk s⟩
  | _, _ => none

theorem run11_eq (len : Nat) (op : BitVec 5) (f : RF) (x : Ext) (lit : Word) :
    run11 len op f x lit = (major11 len op f x lit).map pack := by
  unfold run11 major11
  generalize op.toNat = m
  rcases len with _ | _ | len <;> rcases m with _ | _ | _ | _ | _ | m <;> rfl

/-- Major opcode 0x0c. -/
def run12 (len : Nat) (op : BitVec 5) (f : RF) (_x : Ext) (_lit : Word) : Option Packed :=
  match len, op.toNat with
  | 0, 0 => some ⟨true, .r ⟨12, .s, .s, .s, true, true, [0, 1, 2, 3], .none, .fixed⟩ f 0 none none, fun s => Sys2Proof.Machine.execFadd f s⟩
  | 0, 1 => some ⟨true, .r ⟨12, .s, .s, .s, true, true, [0, 1, 2, 3], .none, .fixed⟩ f 1 none none, fun s => Sys2Proof.Machine.execFsub f s⟩
  | 0, 2 => some ⟨true, .r ⟨12, .s, .s, .s, true, true, [0, 1, 2, 3], .none, .fixed⟩ f 2 none none, fun s => Sys2Proof.Machine.execFmul f s⟩
  | 0, 3 => some ⟨true, .r ⟨12, .s, .s, .s, true, true, [0, 1, 2, 3], .none, .fixed⟩ f 3 none none, fun s => Sys2Proof.Machine.execFdiv f s⟩
  | 0, 4 => some ⟨true, .r ⟨12, .s, .s, .s, true, true, [0], .none, .fixed⟩ f 4 none none, fun s => Sys2Proof.Machine.execFmin f s⟩
  | 0, 5 => some ⟨true, .r ⟨12, .s, .s, .s, true, true, [0], .none, .fixed⟩ f 5 none none, fun s => Sys2Proof.Machine.execFmax f s⟩
  | 0, 6 => some ⟨true, .r ⟨12, .s, .s, .none, true, false, [0, 1, 2, 3], .none, .fixed⟩ f 6 none none, fun s => Sys2Proof.Machine.execFsqrt f s⟩
  | 0, 7 => some ⟨true, .r ⟨12, .s, .s, .s, true, true, [0, 1, 2, 3], .none, .fixed⟩ f 7 none none, fun s => Sys2Proof.Machine.execFma f s⟩
  | _, _ => none

theorem run12_eq (len : Nat) (op : BitVec 5) (f : RF) (x : Ext) (lit : Word) :
    run12 len op f x lit = (major12 len op f x lit).map pack := by
  unfold run12 major12
  generalize op.toNat = m
  rcases len with _ | len <;> rcases m with _ | _ | _ | _ | _ | _ | _ | _ | m <;> rfl

/-- Major opcode 0x0d. -/
def run13 (len : Nat) (op : BitVec 5) (f : RF) (_x : Ext) (_lit : Word) : Option Packed :=
  match len, op.toNat with
  | 0, 0 => some ⟨true, .r ⟨13, .s, .s, .none, true, false, [0, 1, 2, 3], .none, .fixed⟩ f 0 none none, fun s => Sys2Proof.Machine.execCvtfi f s⟩
  | 0, 1 => some ⟨true, .r ⟨13, .s, .s, .none, true, false, [0, 1, 2, 3], .none, .fixed⟩ f 1 none none, fun s => Sys2Proof.Machine.execCvtfn f s⟩
  | 0, 2 => some ⟨true, .r ⟨13, .s, .s, .none, true, false, [0, 1, 2, 3], .none, .fixed⟩ f 2 none none, fun s => Sys2Proof.Machine.execCvtif f s⟩
  | 0, 3 => some ⟨true, .r ⟨13, .s, .s, .none, true, false, [0, 1, 2, 3], .none, .fixed⟩ f 3 none none, fun s => Sys2Proof.Machine.execCvtnf f s⟩
  | 0, 4 => some ⟨true, .r ⟨13, .s, .s, .none, true, false, [0], .none, .fixed⟩ f 4 none none, fun s => Sys2Proof.Machine.execFclass f s⟩
  | _, _ => none

theorem run13_eq (len : Nat) (op : BitVec 5) (f : RF) (x : Ext) (lit : Word) :
    run13 len op f x lit = (major13 len op f x lit).map pack := by
  unfold run13 major13
  generalize op.toNat = m
  rcases len with _ | len <;> rcases m with _ | _ | _ | _ | _ | m <;> rfl

/-- Major opcode 0x0e. -/
def run14 (len : Nat) (op : BitVec 5) (f : RF) (_x : Ext) (_lit : Word) : Option Packed :=
  match len, op.toNat with
  | 0, 0 => some ⟨true, .r ⟨14, .s, .s, .none, true, false, [0], .none, .fixed⟩ f 0 none none, fun s => Sys2Proof.Machine.execFexp2 f s⟩
  | 0, 1 => some ⟨true, .r ⟨14, .s, .s, .none, true, false, [0], .none, .fixed⟩ f 1 none none, fun s => Sys2Proof.Machine.execFlog2 f s⟩
  | 0, 2 => some ⟨true, .r ⟨14, .s, .s, .none, true, false, [0], .none, .fixed⟩ f 2 none none, fun s => Sys2Proof.Machine.execFrcp f s⟩
  | 0, 3 => some ⟨true, .r ⟨14, .s, .s, .none, true, false, [0], .none, .fixed⟩ f 3 none none, fun s => Sys2Proof.Machine.execFrsq f s⟩
  | _, _ => none

theorem run14_eq (len : Nat) (op : BitVec 5) (f : RF) (x : Ext) (lit : Word) :
    run14 len op f x lit = (major14 len op f x lit).map pack := by
  unfold run14 major14
  generalize op.toNat = m
  rcases len with _ | len <;> rcases m with _ | _ | _ | _ | m <;> rfl

/-- Major opcode 0x0f. -/
def run15 (len : Nat) (op : BitVec 5) (f : RF) (_x : Ext) (_lit : Word) : Option Packed :=
  match len with
  | 0 => some ⟨true, .r ⟨15, .none, .s, .s, true, true, [0, 1, 2, 3], .none, .flt⟩ f op none none, fun s => Sys2Proof.Machine.execFcmp f op s⟩
  | _ => none

theorem run15_eq (len : Nat) (op : BitVec 5) (f : RF) (x : Ext) (lit : Word) :
    run15 len op f x lit = (major15 len op f x lit).map pack := by
  unfold run15 major15
  rcases len with _ | len <;> rfl

/-- Major opcode 0x10. -/
def run16 (len : Nat) (op : BitVec 5) (f : RF) (x : Ext) (_lit : Word) : Option Packed :=
  match len, op.toNat with
  | 0, 0 => some ⟨true, .r ⟨16, .v, .v, .v, true, true, [0, 1, 2, 3], .none, .fixed⟩ f 0 none none, fun s => Sys2Proof.Machine.execVadd f s⟩
  | 0, 1 => some ⟨true, .r ⟨16, .v, .v, .v, true, true, [0, 1, 2, 3], .none, .fixed⟩ f 1 none none, fun s => Sys2Proof.Machine.execVsub f s⟩
  | 0, 2 => some ⟨true, .r ⟨16, .v, .v, .v, true, true, [0, 1, 2, 3], .none, .fixed⟩ f 2 none none, fun s => Sys2Proof.Machine.execVmul f s⟩
  | 0, 3 => some ⟨true, .r ⟨16, .v, .v, .v, true, true, [0, 1, 2, 3], .none, .fixed⟩ f 3 none none, fun s => Sys2Proof.Machine.execVmin f s⟩
  | 0, 4 => some ⟨true, .r ⟨16, .v, .v, .v, true, true, [0, 1, 2, 3], .none, .fixed⟩ f 4 none none, fun s => Sys2Proof.Machine.execVmax f s⟩
  | 0, 5 => some ⟨true, .r ⟨16, .v, .v, .v, true, true, [0, 1, 2, 3], .none, .fixed⟩ f 5 none none, fun s => Sys2Proof.Machine.execVand f s⟩
  | 0, 6 => some ⟨true, .r ⟨16, .v, .v, .v, true, true, [0, 1, 2, 3], .none, .fixed⟩ f 6 none none, fun s => Sys2Proof.Machine.execVor f s⟩
  | 0, 7 => some ⟨true, .r ⟨16, .v, .v, .v, true, true, [0, 1, 2, 3], .none, .fixed⟩ f 7 none none, fun s => Sys2Proof.Machine.execVxor f s⟩
  | 0, 8 => some ⟨true, .r ⟨16, .v, .v, .v, true, true, [2, 3], .none, .fixed⟩ f 8 none none, fun s => Sys2Proof.Machine.execVshl f s⟩
  | 0, 9 => some ⟨true, .r ⟨16, .v, .v, .v, true, true, [2, 3], .none, .fixed⟩ f 9 none none, fun s => Sys2Proof.Machine.execVshr f s⟩
  | 0, 10 => some ⟨true, .r ⟨16, .v, .v, .v, true, true, [2, 3], .none, .fixed⟩ f 10 none none, fun s => Sys2Proof.Machine.execVsha f s⟩
  | 0, 11 => some ⟨true, .r ⟨16, .v, .v, .v, true, true, [0, 1], .none, .fixed⟩ f 11 none none, fun s => Sys2Proof.Machine.execVdiv f s⟩
  | 1, 0 => some ⟨true, .r ⟨16, .v, .v, .vx, true, true, [0, 1, 2, 3], (.vbin [12, 11, 3, 7, 2, 6, 1, 5]), .fixed⟩ f 0 (some x) none, fun s => Sys2Proof.Machine.execVaddExt f x s⟩
  | 1, 1 => some ⟨true, .r ⟨16, .v, .v, .vx, true, true, [0, 1, 2, 3], (.vbin [12, 11, 3, 7, 2, 6, 1, 5]), .fixed⟩ f 1 (some x) none, fun s => Sys2Proof.Machine.execVsubExt f x s⟩
  | 1, 2 => some ⟨true, .r ⟨16, .v, .v, .vx, true, true, [0, 1, 2, 3], (.vbin [12, 11, 3, 7, 2, 6, 1, 5]), .fixed⟩ f 2 (some x) none, fun s => Sys2Proof.Machine.execVmulExt f x s⟩
  | 1, 3 => some ⟨true, .r ⟨16, .v, .v, .vx, true, true, [0, 1, 2, 3], (.vbin [12, 11, 3, 7, 2, 6, 1, 5]), .fixed⟩ f 3 (some x) none, fun s => Sys2Proof.Machine.execVminExt f x s⟩
  | 1, 4 => some ⟨true, .r ⟨16, .v, .v, .vx, true, true, [0, 1, 2, 3], (.vbin [12, 11, 3, 7, 2, 6, 1, 5]), .fixed⟩ f 4 (some x) none, fun s => Sys2Proof.Machine.execVmaxExt f x s⟩
  | 1, 5 => some ⟨true, .r ⟨16, .v, .v, .vx, true, true, [0, 1, 2, 3], (.vbin [1, 2, 3, 4, 5, 6, 7, 8, 9, 10, 11, 12]), .fixed⟩ f 5 (some x) none, fun s => Sys2Proof.Machine.execVandExt f x s⟩
  | 1, 6 => some ⟨true, .r ⟨16, .v, .v, .vx, true, true, [0, 1, 2, 3], (.vbin [1, 2, 3, 4, 5, 6, 7, 8, 9, 10, 11, 12]), .fixed⟩ f 6 (some x) none, fun s => Sys2Proof.Machine.execVorExt f x s⟩
  | 1, 7 => some ⟨true, .r ⟨16, .v, .v, .vx, true, true, [0, 1, 2, 3], (.vbin [1, 2, 3, 4, 5, 6, 7, 8, 9, 10, 11, 12]), .fixed⟩ f 7 (some x) none, fun s => Sys2Proof.Machine.execVxorExt f x s⟩
  | 1, 8 => some ⟨true, .r ⟨16, .v, .v, .vx, true, true, [0, 1, 2, 3], (.vbin [1, 2, 3, 5, 6, 7]), .fixed⟩ f 8 (some x) none, fun s => Sys2Proof.Machine.execVshlExt f x s⟩
  | 1, 9 => some ⟨true, .r ⟨16, .v, .v, .vx, true, true, [0, 1, 2, 3], (.vbin [1, 2, 3, 5, 6, 7]), .fixed⟩ f 9 (some x) none, fun s => Sys2Proof.Machine.execVshrExt f x s⟩
  | 1, 10 => some ⟨true, .r ⟨16, .v, .v, .vx, true, true, [0, 1, 2, 3], (.vbin [1, 2, 3, 5, 6, 7]), .fixed⟩ f 10 (some x) none, fun s => Sys2Proof.Machine.execVshaExt f x s⟩
  | 1, 11 => some ⟨true, .r ⟨16, .v, .v, .vx, true, true, [0, 1, 2, 3], (.vbin [12, 11]), .fixed⟩ f 11 (some x) none, fun s => Sys2Proof.Machine.execVdivExt f x s⟩
  | _, _ => none

theorem run16_eq (len : Nat) (op : BitVec 5) (f : RF) (x : Ext) (lit : Word) :
    run16 len op f x lit = (major16 len op f x lit).map pack := by
  unfold run16 major16
  generalize op.toNat = m
  rcases len with _ | _ | len <;> rcases m with _ | _ | _ | _ | _ | _ | _ | _ | _ | _ | _ | _ | m <;> rfl

/-- Major opcode 0x11. -/
def run17 (len : Nat) (op : BitVec 5) (f : RF) (x : Ext) (_lit : Word) : Option Packed :=
  match len, op.toNat with
  | 0, 0 => some ⟨true, .r ⟨17, .v, .v, .v, true, true, [0, 1], .none, .fixed⟩ f 0 none none, fun s => Sys2Proof.Machine.execVfma f s⟩
  | 0, 1 => some ⟨true, .r ⟨17, .v, .v, .v, true, true, [0, 1], .none, .fixed⟩ f 1 none none, fun s => Sys2Proof.Machine.execVfms f s⟩
  | 0, 2 => some ⟨true, .r ⟨17, .v, .v, .none, true, false, [0, 1, 2], .none, .fixed⟩ f 2 none none, fun s => Sys2Proof.Machine.execVabs f s⟩
  | 0, 3 => some ⟨true, .r ⟨17, .v, .v, .none, true, false, [0, 1, 2], .none, .fixed⟩ f 3 none none, fun s => Sys2Proof.Machine.execVneg f s⟩
  | 0, 4 => some ⟨true, .r ⟨17, .v, .v, .none, true, false, [0, 1], .none, .fixed⟩ f 4 none none, fun s => Sys2Proof.Machine.execVsqrt f s⟩
  | 0, 5 => some ⟨true, .r ⟨17, .v, .v, .v, true, true, [0, 1, 2, 3], .none, .fixed⟩ f 5 none none, fun s => Sys2Proof.Machine.execVsel f s⟩
  | 1, 0 => some ⟨true, .r ⟨17, .v, .v, .vx, true, true, [0, 1, 2, 3], (.vbin [12, 11]), .fixed⟩ f 0 (some x) none, fun s => Sys2Proof.Machine.execVfmaExt f x s⟩
  | 1, 1 => some ⟨true, .r ⟨17, .v, .v, .vx, true, true, [0, 1, 2, 3], (.vbin [12, 11]), .fixed⟩ f 1 (some x) none, fun s => Sys2Proof.Machine.execVfmsExt f x s⟩
  | 1, 2 => some ⟨true, .r ⟨17, .v, .v, .none, true, false, [0, 1, 2, 3], (.vun [12, 11, 3, 2, 1]), .fixed⟩ f 2 (some x) none, fun s => Sys2Proof.Machine.execVabsExt f x s⟩
  | 1, 3 => some ⟨true, .r ⟨17, .v, .v, .none, true, false, [0, 1, 2, 3], (.vun [12, 11, 3, 2, 1]), .fixed⟩ f 3 (some x) none, fun s => Sys2Proof.Machine.execVnegExt f x s⟩
  | 1, 4 => some ⟨true, .r ⟨17, .v, .v, .none, true, false, [0, 1, 2, 3], (.vun [12, 11]), .fixed⟩ f 4 (some x) none, fun s => Sys2Proof.Machine.execVsqrtExt f x s⟩
  | 1, 5 => some ⟨true, .r ⟨17, .v, .v, .vx, true, true, [0, 1, 2, 3], (.vbin [1, 2, 3, 4, 5, 6, 7, 8, 9, 10, 11, 12]), .fixed⟩ f 5 (some x) none, fun s => Sys2Proof.Machine.execVselExt f x s⟩
  | _, _ => none

theorem run17_eq (len : Nat) (op : BitVec 5) (f : RF) (x : Ext) (lit : Word) :
    run17 len op f x lit = (major17 len op f x lit).map pack := by
  unfold run17 major17
  generalize op.toNat = m
  rcases len with _ | _ | len <;> rcases m with _ | _ | _ | _ | _ | _ | m <;> rfl

/-- Major opcode 0x12. -/
def run18 (len : Nat) (op : BitVec 5) (f : RF) (x : Ext) (_lit : Word) : Option Packed :=
  match len with
  | 0 => some ⟨true, .r ⟨18, .m, .v, .v, true, true, [0, 1, 2, 3], .none, .flt⟩ f op none none, fun s => Sys2Proof.Machine.execVcmp f op s⟩
  | 1 => some ⟨true, .r ⟨18, .m, .v, .vx, true, true, [0, 1, 2, 3], (.vbin [12, 11, 3, 7, 2, 6, 1, 5]), .flt⟩ f op (some x) none, fun s => Sys2Proof.Machine.execVcmpExt f op x s⟩
  | _ => none

theorem run18_eq (len : Nat) (op : BitVec 5) (f : RF) (x : Ext) (lit : Word) :
    run18 len op f x lit = (major18 len op f x lit).map pack := by
  unfold run18 major18
  rcases len with _ | _ | len <;> rfl

/-- Major opcode 0x13. -/
def run19 (len : Nat) (op : BitVec 5) (f : RF) (_x : Ext) (_lit : Word) : Option Packed :=
  match len, op.toNat with
  | 0, 0 => some ⟨true, .r ⟨19, .m, .m, .m, true, true, [0], .none, .fixed⟩ f 0 none none, fun s => Sys2Proof.Machine.execMand f s⟩
  | 0, 1 => some ⟨true, .r ⟨19, .m, .m, .m, true, true, [0], .none, .fixed⟩ f 1 none none, fun s => Sys2Proof.Machine.execMor f s⟩
  | 0, 2 => some ⟨true, .r ⟨19, .m, .m, .m, true, true, [0], .none, .fixed⟩ f 2 none none, fun s => Sys2Proof.Machine.execMxor f s⟩
  | 0, 3 => some ⟨true, .r ⟨19, .m, .m, .none, true, false, [0], .none, .fixed⟩ f 3 none none, fun s => Sys2Proof.Machine.execMnot f s⟩
  | 0, 4 => some ⟨true, .r ⟨19, .s, .m, .none, true, false, [0], .none, .fixed⟩ f 4 none none, fun s => Sys2Proof.Machine.execMpopc f s⟩
  | _, _ => none

theorem run19_eq (len : Nat) (op : BitVec 5) (f : RF) (x : Ext) (lit : Word) :
    run19 len op f x lit = (major19 len op f x lit).map pack := by
  unfold run19 major19
  generalize op.toNat = m
  rcases len with _ | len <;> rcases m with _ | _ | _ | _ | _ | m <;> rfl

/-- Major opcode 0x14. -/
def run20 (len : Nat) (op : BitVec 5) (f : RF) (x : Ext) (_lit : Word) : Option Packed :=
  match len with
  | 0 => some ⟨true, .r ⟨20, .v, .v, .none, true, false, [0, 1, 2, 3], .none, .cvt⟩ f op none none, fun s => Sys2Proof.Machine.execVcvt f op s⟩
  | 1 => some ⟨true, .r ⟨20, .v, .v, .none, true, false, [0, 1, 2, 3], .cvt, .cvt⟩ f op (some x) none, fun s => Sys2Proof.Machine.execVcvtExt f op x s⟩
  | _ => none

theorem run20_eq (len : Nat) (op : BitVec 5) (f : RF) (x : Ext) (lit : Word) :
    run20 len op f x lit = (major20 len op f x lit).map pack := by
  unfold run20 major20
  rcases len with _ | _ | len <;> rfl

/-- Major opcode 0x15. -/
def run21 (len : Nat) (op : BitVec 5) (f : RF) (x : Ext) (_lit : Word) : Option Packed :=
  match len, op.toNat with
  | 0, 0 => some ⟨true, .r ⟨21, .v, .v, .none, true, false, [0], .none, .fixed⟩ f 0 none none, fun s => Sys2Proof.Machine.execVexp2 f s⟩
  | 0, 1 => some ⟨true, .r ⟨21, .v, .v, .none, true, false, [0], .none, .fixed⟩ f 1 none none, fun s => Sys2Proof.Machine.execVlog2 f s⟩
  | 0, 2 => some ⟨true, .r ⟨21, .v, .v, .none, true, false, [0], .none, .fixed⟩ f 2 none none, fun s => Sys2Proof.Machine.execVrcp f s⟩
  | 0, 3 => some ⟨true, .r ⟨21, .v, .v, .none, true, false, [0], .none, .fixed⟩ f 3 none none, fun s => Sys2Proof.Machine.execVrsq f s⟩
  | 0, 4 => some ⟨true, .r ⟨21, .v, .v, .none, true, false, [0], .none, .fixed⟩ f 4 none none, fun s => Sys2Proof.Machine.execVexp f s⟩
  | 1, 0 => some ⟨true, .r ⟨21, .v, .v, .none, true, false, [0], (.vt [0, 11, 12]), .fixed⟩ f 0 (some x) none, fun s => Sys2Proof.Machine.execVexp2Ext f x s⟩
  | 1, 1 => some ⟨true, .r ⟨21, .v, .v, .none, true, false, [0], (.vt [0, 11, 12]), .fixed⟩ f 1 (some x) none, fun s => Sys2Proof.Machine.execVlog2Ext f x s⟩
  | 1, 2 => some ⟨true, .r ⟨21, .v, .v, .none, true, false, [0], (.vt [0, 11, 12]), .fixed⟩ f 2 (some x) none, fun s => Sys2Proof.Machine.execVrcpExt f x s⟩
  | 1, 3 => some ⟨true, .r ⟨21, .v, .v, .none, true, false, [0], (.vt [0, 11, 12]), .fixed⟩ f 3 (some x) none, fun s => Sys2Proof.Machine.execVrsqExt f x s⟩
  | 1, 4 => some ⟨true, .r ⟨21, .v, .v, .none, true, false, [0], (.vt [0, 11, 12]), .fixed⟩ f 4 (some x) none, fun s => Sys2Proof.Machine.execVexpExt f x s⟩
  | _, _ => none

theorem run21_eq (len : Nat) (op : BitVec 5) (f : RF) (x : Ext) (lit : Word) :
    run21 len op f x lit = (major21 len op f x lit).map pack := by
  unfold run21 major21
  generalize op.toNat = m
  rcases len with _ | _ | len <;> rcases m with _ | _ | _ | _ | _ | m <;> rfl

/-- Major opcode 0x18. -/
def run24 (len : Nat) (op : BitVec 5) (f : RF) (x : Ext) (_lit : Word) : Option Packed :=
  match len, op.toNat with
  | 0, 0 => some ⟨true, .r ⟨24, .s, .v, .none, true, false, [0, 1, 2, 3], .none, .fixed⟩ f 0 none none, fun s => Sys2Proof.Machine.execVrsum f s⟩
  | 0, 1 => some ⟨true, .r ⟨24, .s, .v, .none, true, false, [0, 1, 2, 3], .none, .fixed⟩ f 1 none none, fun s => Sys2Proof.Machine.execVrmax f s⟩
  | 0, 2 => some ⟨true, .r ⟨24, .s, .v, .none, true, false, [0, 1, 2, 3], .none, .fixed⟩ f 2 none none, fun s => Sys2Proof.Machine.execVrmin f s⟩
  | 0, 3 => some ⟨true, .r ⟨24, .v, .v, .none, true, false, [0, 1, 2, 3], .none, .fixed⟩ f 3 none none, fun s => Sys2Proof.Machine.execVscan f s⟩
  | 0, 4 => some ⟨true, .r ⟨24, .v, .v, .none, true, false, [0, 1, 2, 3], .none, .fixed⟩ f 4 none none, fun s => Sys2Proof.Machine.execVscanX f s⟩
  | 1, 0 => some ⟨true, .r ⟨24, .s, .v, .none, true, false, [0, 1, 2, 3], (.vun [12, 11, 3, 7]), .fixed⟩ f 0 (some x) none, fun s => Sys2Proof.Machine.execVrsumExt f x s⟩
  | 1, 1 => some ⟨true, .r ⟨24, .s, .v, .none, true, false, [0, 1, 2, 3], (.vun [12, 11, 3, 7]), .fixed⟩ f 1 (some x) none, fun s => Sys2Proof.Machine.execVrmaxExt f x s⟩
  | 1, 2 => some ⟨true, .r ⟨24, .s, .v, .none, true, false, [0, 1, 2, 3], (.vun [12, 11, 3, 7]), .fixed⟩ f 2 (some x) none, fun s => Sys2Proof.Machine.execVrminExt f x s⟩
  | 1, 3 => some ⟨true, .r ⟨24, .v, .v, .none, true, false, [0, 1, 2, 3], (.vun [12, 11, 3, 7]), .fixed⟩ f 3 (some x) none, fun s => Sys2Proof.Machine.execVscanExt f x s⟩
  | 1, 4 => some ⟨true, .r ⟨24, .v, .v, .none, true, false, [0, 1, 2, 3], (.vun [12, 11, 3, 7]), .fixed⟩ f 4 (some x) none, fun s => Sys2Proof.Machine.execVscanXExt f x s⟩
  | _, _ => none

theorem run24_eq (len : Nat) (op : BitVec 5) (f : RF) (x : Ext) (lit : Word) :
    run24 len op f x lit = (major24 len op f x lit).map pack := by
  unfold run24 major24
  generalize op.toNat = m
  rcases len with _ | _ | len <;> rcases m with _ | _ | _ | _ | _ | m <;> rfl

/-- Major opcode 0x19. -/
def run25 (len : Nat) (op : BitVec 5) (f : RF) (x : Ext) (_lit : Word) : Option Packed :=
  match len, op.toNat with
  | 0, 0 => some ⟨true, .r ⟨25, .v, .v, .v, true, true, [0], .none, .fixed⟩ f 0 none none, fun s => Sys2Proof.Machine.execVperm f s⟩
  | 1, 0 => some ⟨true, .r ⟨25, .v, .v, .none, true, false, [0], (.imm 0 127 true), .fixed⟩ f 0 (some x) none, fun s => Sys2Proof.Machine.execVpermRotate f x s⟩
  | 0, 1 => some ⟨true, .r ⟨25, .v, .s, .none, true, false, [0], .none, .fixed⟩ f 1 none none, fun s => Sys2Proof.Machine.execVbcast f s⟩
  | 1, 1 => some ⟨true, .r ⟨25, .v, .s, .none, true, false, [0], (.imm 0 0 true), .fixed⟩ f 1 (some x) none, fun s => Sys2Proof.Machine.execVbcastExt f x s⟩
  | 0, 2 => some ⟨true, .r ⟨25, .v, .s, .s, true, true, [0], .none, .fixed⟩ f 2 none none, fun s => Sys2Proof.Machine.execVins f s⟩
  | 1, 2 => some ⟨true, .r ⟨25, .v, .s, .none, true, false, [0], (.imm 0 127 false), .fixed⟩ f 2 (some x) none, fun s => Sys2Proof.Machine.execVinsImmediate f x s⟩
  | 0, 3 => some ⟨true, .r ⟨25, .s, .s, .v, false, true, [0], .none, .fixed⟩ f 3 none none, fun s => Sys2Proof.Machine.execVext f s⟩
  | 1, 3 => some ⟨true, .r ⟨25, .s, .s, .v, false, true, [0], (.imm 0 127 true), .fixed⟩ f 3 (some x) none, fun s => Sys2Proof.Machine.execVextImmediate f x s⟩
  | 0, 4 => some ⟨true, .r ⟨25, .t, .t, .none, true, false, [0], .none, .fixed⟩ f 4 none none, fun s => Sys2Proof.Machine.execVtrans f s⟩
  | 0, 5 => some ⟨true, .r ⟨25, .v, .s, .none, true, false, [0], .none, .fixed⟩ f 5 none none, fun s => Sys2Proof.Machine.execViota f s⟩
  | 1, 5 => some ⟨true, .r ⟨25, .v, .s, .none, true, false, [0], (.imm 0 0 true), .fixed⟩ f 5 (some x) none, fun s => Sys2Proof.Machine.execViotaExt f x s⟩
  | _, _ => none

theorem run25_eq (len : Nat) (op : BitVec 5) (f : RF) (x : Ext) (lit : Word) :
    run25 len op f x lit = (major25 len op f x lit).map pack := by
  unfold run25 major25
  generalize op.toNat = m
  rcases len with _ | _ | len <;> rcases m with _ | _ | _ | _ | _ | _ | m <;> rfl

/-- Major opcode 0x1a. -/
def run26 (len : Nat) (op : BitVec 5) (f : RF) (x : Ext) (_lit : Word) : Option Packed :=
  match len, op.toNat with
  | 0, 0 => some ⟨true, .r ⟨26, .none, .v, .s, true, true, [0], .none, .fixed⟩ f 0 none none, fun s => Sys2Proof.Machine.execVtopkAdd f s⟩
  | 1, 0 => some ⟨true, .r ⟨26, .none, .v, .s, true, true, [0], (.vt [0, 12]), .fixed⟩ f 0 (some x) none, fun s => Sys2Proof.Machine.execVtopkAddExt f x s⟩
  | 0, 1 => some ⟨(f.d != f.a), .r ⟨26, .v, .v, .none, false, false, [0], .none, .fixed⟩ f 1 none none, fun s => Sys2Proof.Machine.execVtopkDrain f s⟩
  | 0, 2 => some ⟨true, .r ⟨26, .none, .s, .none, true, false, [0], .none, .fixed⟩ f 2 none none, fun s => Sys2Proof.Machine.execVtopkClr f s⟩
  | _, _ => none

theorem run26_eq (len : Nat) (op : BitVec 5) (f : RF) (x : Ext) (lit : Word) :
    run26 len op f x lit = (major26 len op f x lit).map pack := by
  unfold run26 major26
  generalize op.toNat = m
  rcases len with _ | _ | len <;> rcases m with _ | _ | _ | m <;> rfl

/-- Major opcode 0x1b. -/
def run27 (len : Nat) (op : BitVec 5) (f : RF) (x : Ext) (_lit : Word) : Option Packed :=
  match len, op.toNat with
  | 0, 0 => some ⟨true, .r ⟨27, .w, .v, .none, true, false, [0], .none, .fixed⟩ f 0 none none, fun s => Sys2Proof.Machine.execWadd f s⟩
  | 1, 0 => some ⟨true, .r ⟨27, .w, .v, .none, true, false, [0], (.vt [0, 11, 12]), .fixed⟩ f 0 (some x) none, fun s => Sys2Proof.Machine.execWaddExt f x s⟩
  | 0, 1 => some ⟨true, .r ⟨27, .w, .v, .m, true, true, [0], .none, .fixed⟩ f 1 none none, fun s => Sys2Proof.Machine.execWaddm f s⟩
  | 1, 1 => some ⟨true, .r ⟨27, .w, .v, .m, true, true, [0], (.vt [0, 12]), .fixed⟩ f 1 (some x) none, fun s => Sys2Proof.Machine.execWaddmExt f x s⟩
  | 0, 2 => some ⟨true, .r ⟨27, .v, .w, .none, true, false, [0, 1], .none, .fixed⟩ f 2 none none, fun s => Sys2Proof.Machine.execWrnd f s⟩
  | 1, 2 => some ⟨true, .r ⟨27, .v, .w, .none, true, false, [0, 1], (.vt [0, 12]), .fixed⟩ f 2 (some x) none, fun s => Sys2Proof.Machine.execWrndExt f x s⟩
  | 0, 3 => some ⟨true, .r ⟨27, .v, .w, .none, true, false, [0, 1], .none, .fixed⟩ f 3 none none, fun s => Sys2Proof.Machine.execWmean f s⟩
  | 1, 3 => some ⟨true, .r ⟨27, .v, .w, .none, true, false, [0, 1], (.vt [0, 12]), .fixed⟩ f 3 (some x) none, fun s => Sys2Proof.Machine.execWmeanExt f x s⟩
  | 0, 4 => some ⟨true, .r ⟨27, .v, .w, .s, true, true, [0, 1], .none, .fixed⟩ f 4 none none, fun s => Sys2Proof.Machine.execWscale f s⟩
  | 1, 4 => some ⟨true, .r ⟨27, .v, .w, .s, true, true, [0, 1], (.vt [0, 12]), .fixed⟩ f 4 (some x) none, fun s => Sys2Proof.Machine.execWscaleExt f x s⟩
  | _, _ => none

theorem run27_eq (len : Nat) (op : BitVec 5) (f : RF) (x : Ext) (lit : Word) :
    run27 len op f x lit = (major27 len op f x lit).map pack := by
  unfold run27 major27
  generalize op.toNat = m
  rcases len with _ | _ | len <;> rcases m with _ | _ | _ | _ | _ | m <;> rfl

/-- Major opcode 0x1c. -/
def run28 (len : Nat) (op : BitVec 5) (f : RF) (x : Ext) (_lit : Word) : Option Packed :=
  match len, op.toNat with
  | 0, 0 => some ⟨true, .r ⟨28, .none, .s, .s, true, true, [0, 1, 2], .none, .fixed⟩ f 0 none none, fun s => Sys2Proof.Machine.execSetview f s⟩
  | 0, 1 => some ⟨true, .r ⟨28, .v, .v, .none, true, false, [0], .none, .fixed⟩ f 1 none none, fun s => Sys2Proof.Machine.execVmov f s⟩
  | 0, 2 => some ⟨true, .r ⟨28, .s, .s, .none, true, false, [0], .none, .fixed⟩ f 2 none none, fun s => Sys2Proof.Machine.execSpld f s⟩
  | 1, 2 => some ⟨true, .r ⟨28, .s, .s, .none, true, false, [0], (.imm 0 65535 false), .fixed⟩ f 2 (some x) none, fun s => Sys2Proof.Machine.execSpldOffset f x s⟩
  | 0, 3 => some ⟨true, .r ⟨28, .none, .s, .s, true, true, [0], .none, .fixed⟩ f 3 none none, fun s => Sys2Proof.Machine.execSpst f s⟩
  | 1, 3 => some ⟨true, .r ⟨28, .none, .s, .s, true, true, [0], (.imm 0 65535 false), .fixed⟩ f 3 (some x) none, fun s => Sys2Proof.Machine.execSpstOffset f x s⟩
  | _, _ => none

theorem run28_eq (len : Nat) (op : BitVec 5) (f : RF) (x : Ext) (lit : Word) :
    run28 len op f x lit = (major28 len op f x lit).map pack := by
  unfold run28 major28
  generalize op.toNat = m
  rcases len with _ | _ | len <;> rcases m with _ | _ | _ | _ | m <;> rfl

/-- Major opcode 0x1d. -/
def run29 (len : Nat) (op : BitVec 5) (f : RF) (x : Ext) (_lit : Word) : Option Packed :=
  match len, op.toNat with
  | 1, 0 => some ⟨true, .r ⟨29, .s, .q, .none, false, false, [0], .sopen, .fixed⟩ f 0 (some x) none, fun s => Sys2Proof.Machine.execSopen f x s⟩
  | 0, 1 => some ⟨true, .r ⟨29, .s, .q, .none, false, false, [0], .none, .fixed⟩ f 1 none none, fun s => Sys2Proof.Machine.execStend f s⟩
  | 0, 2 => some ⟨true, .r ⟨29, .none, .q, .none, false, false, [0], .none, .fixed⟩ f 2 none none, fun s => Sys2Proof.Machine.execSclose f s⟩
  | _, _ => none

theorem run29_eq (len : Nat) (op : BitVec 5) (f : RF) (x : Ext) (lit : Word) :
    run29 len op f x lit = (major29 len op f x lit).map pack := by
  unfold run29 major29
  generalize op.toNat = m
  rcases len with _ | _ | len <;> rcases m with _ | _ | _ | m <;> rfl

/-- Major opcode 0x1e. -/
def run30 (len : Nat) (op : BitVec 5) (f : RF) (x : Ext) (_lit : Word) : Option Packed :=
  match len, op.toNat with
  | 1, 0 => some ⟨true, .r ⟨30, .f, .s, .s, true, true, [0], .handle, .fixed⟩ f 0 (some x) none, fun s => Sys2Proof.Machine.execFopen f x s⟩
  | 0, 1 => some ⟨true, .r ⟨30, .s, .f, .none, false, false, [0], .none, .fixed⟩ f 1 none none, fun s => Sys2Proof.Machine.execFadv f s⟩
  | 0, 2 => some ⟨true, .r ⟨30, .s, .f, .none, false, false, [0], .none, .fixed⟩ f 2 none none, fun s => Sys2Proof.Machine.execFtend f s⟩
  | 0, 3 => some ⟨true, .r ⟨30, .none, .f, .none, false, false, [0], .none, .fixed⟩ f 3 none none, fun s => Sys2Proof.Machine.execFclose f s⟩
  | 0, 4 => some ⟨true, .r ⟨30, .s, .f, .f, false, false, [0], .none, .fixed⟩ f 4 none none, fun s => Sys2Proof.Machine.execFisect f s⟩
  | _, _ => none

theorem run30_eq (len : Nat) (op : BitVec 5) (f : RF) (x : Ext) (lit : Word) :
    run30 len op f x lit = (major30 len op f x lit).map pack := by
  unfold run30 major30
  generalize op.toNat = m
  rcases len with _ | _ | len <;> rcases m with _ | _ | _ | _ | _ | m <;> rfl

/-- Major opcode 0x20. -/
def run32 (len : Nat) (op : BitVec 5) (f : RF) (x : Ext) (_lit : Word) : Option Packed :=
  match len, op.toNat with
  | 0, 0 => some ⟨true, .r ⟨32, .s, .s, .none, true, false, [0, 1], .none, .fixed⟩ f 0 none none, fun s => Sys2Proof.Machine.execLdSlot f s⟩
  | 1, 0 => some ⟨true, .r ⟨32, .s, .s, .none, true, false, [0, 1, 2, 3], (.slotLd [0, 1, 2, 3, 4, 5, 6, 7, 8, 12] false), .fixed⟩ f 0 (some x) none, fun s => Sys2Proof.Machine.execLdSlotExt f x s⟩
  | 0, 2 => some ⟨true, .r ⟨32, .v, .s, .none, true, false, [0, 1], .none, .fixed⟩ f 2 none none, fun s => Sys2Proof.Machine.execVldSlot f s⟩
  | 1, 2 => some ⟨true, .r ⟨32, .v, .s, .none, true, false, [0, 1, 2, 3], (.slotLd [0, 1, 2, 3, 5, 6, 7, 9, 10, 11, 12] true), .fixed⟩ f 2 (some x) none, fun s => Sys2Proof.Machine.execVldSlotExt f x s⟩
  | 0, 1 => some ⟨true, .r ⟨32, .none, .s, .s, true, true, [0], .none, .fixed⟩ f 1 none none, fun s => Sys2Proof.Machine.execStSlot f s⟩
  | 1, 1 => some ⟨true, .r ⟨32, .none, .s, .s, true, true, [0], (.slotSt [0, 1, 2, 3, 4, 5, 6, 7, 8, 12] false), .fixed⟩ f 1 (some x) none, fun s => Sys2Proof.Machine.execStSlotExt f x s⟩
  | 0, 3 => some ⟨true, .r ⟨32, .none, .v, .s, true, true, [0], .none, .fixed⟩ f 3 none none, fun s => Sys2Proof.Machine.execVstSlot f s⟩
  | 1, 3 => some ⟨true, .r ⟨32, .none, .v, .s, true, true, [0], (.slotSt [0, 1, 2, 3, 5, 6, 7, 9, 10, 11, 12] true), .fixed⟩ f 3 (some x) none, fun s => Sys2Proof.Machine.execVstSlotExt f x s⟩
  | 1, 4 => if f.qf = 1 then some ⟨true, .r ⟨32, .none, .s, .none, true, false, [1], (.granules 1024), .fixed⟩ f 4 (some x) none, fun s => Sys2Proof.Machine.execSetfeF f x s⟩ else some ⟨true, .r ⟨32, .none, .s, .none, true, false, [0], (.granules 1024), .fixed⟩ f 4 (some x) none, fun s => Sys2Proof.Machine.execSetfeE f x s⟩
  | 1, 5 => some ⟨true, .r ⟨32, .s, .s, .none, true, false, [0], (.granules 64), .fixed⟩ f 5 (some x) none, fun s => Sys2Proof.Machine.execTstfe f x s⟩
  | _, _ => none

theorem run32_eq (len : Nat) (op : BitVec 5) (f : RF) (x : Ext) (lit : Word) :
    run32 len op f x lit = (major32 len op f x lit).map pack := by
  unfold run32 major32
  generalize op.toNat = m
  rcases len with _ | _ | len <;> rcases m with _ | _ | _ | _ | _ | _ | m <;> first | rfl | (by_cases h : f.qf = 1#2 <;> simp [h] <;> rfl)

/-- Major opcode 0x21. -/
def run33 (len : Nat) (op : BitVec 5) (f : RF) (x : Ext) (lit : Word) : Option Packed :=
  match len, op.toNat with
  | 0, 0 => some ⟨true, .r ⟨33, .s, .s, .s, true, true, [0, 1], .none, .fixed⟩ f 0 none none, fun s => Sys2Proof.Machine.execKlook f s⟩
  | 2, 0 => some ⟨true, .r ⟨33, .s, .none, .s, false, true, [0, 1], .none, .fixed⟩ f 0 none (some lit), fun s => Sys2Proof.Machine.execKlookLiteral f lit s⟩
  | 1, 1 => some ⟨true, .r ⟨33, .s, .s, .s, true, true, [0, 1, 2, 3], .c0, .fixed⟩ f 1 (some x) none, fun s => Sys2Proof.Machine.execKbind f x s⟩
  | 3, 1 => some ⟨true, .r ⟨33, .s, .none, .s, false, true, [0, 1, 2, 3], .c0, .fixed⟩ f 1 (some x) (some lit), fun s => Sys2Proof.Machine.execKbindLiteral f x lit s⟩
  | 0, 2 => some ⟨true, .r ⟨33, .s, .s, .s, true, true, [0], .none, .fixed⟩ f 2 none none, fun s => Sys2Proof.Machine.execKpin f s⟩
  | 2, 2 => some ⟨true, .r ⟨33, .s, .none, .s, false, true, [0], .none, .fixed⟩ f 2 none (some lit), fun s => Sys2Proof.Machine.execKpinLiteral f lit s⟩
  | 0, 3 => some ⟨true, .r ⟨33, .s, .s, .s, true, true, [0], .none, .fixed⟩ f 3 none none, fun s => Sys2Proof.Machine.execKunpin f s⟩
  | 2, 3 => some ⟨true, .r ⟨33, .s, .none, .s, false, true, [0], .none, .fixed⟩ f 3 none (some lit), fun s => Sys2Proof.Machine.execKunpinLiteral f lit s⟩
  | 0, 4 => some ⟨true, .r ⟨33, .s, .s, .s, true, true, [0], .none, .fixed⟩ f 4 none none, fun s => Sys2Proof.Machine.execKunbind f s⟩
  | 2, 4 => some ⟨true, .r ⟨33, .s, .none, .s, false, true, [0], .none, .fixed⟩ f 4 none (some lit), fun s => Sys2Proof.Machine.execKunbindLiteral f lit s⟩
  | 0, 5 => some ⟨true, .r ⟨33, .s, .none, .none, false, false, [0], .none, .fixed⟩ f 5 none none, fun s => Sys2Proof.Machine.execKvict f s⟩
  | 0, 6 => some ⟨true, .r ⟨33, .s, .s, .none, true, false, [0], .none, .fixed⟩ f 6 none none, fun s => Sys2Proof.Machine.execKstat f s⟩
  | 2, 6 => some ⟨true, .r ⟨33, .s, .none, .none, false, false, [0], .none, .fixed⟩ f 6 none (some lit), fun s => Sys2Proof.Machine.execKstatLiteral f lit s⟩
  | _, _ => none

theorem run33_eq (len : Nat) (op : BitVec 5) (f : RF) (x : Ext) (lit : Word) :
    run33 len op f x lit = (major33 len op f x lit).map pack := by
  unfold run33 major33
  generalize op.toNat = m
  rcases len with _ | _ | _ | _ | len <;> rcases m with _ | _ | _ | _ | _ | _ | _ | m <;> rfl

/-- Major opcode 0x22. -/
def run34 (len : Nat) (op : BitVec 5) (f : RF) (x : Ext) (lit : Word) : Option Packed :=
  match len, op.toNat with
  | 1, 0 => some ⟨true, .r ⟨34, .s, .s, .s, true, true, [0, 1], .map, .fixed⟩ f 0 (some x) none, fun s => Sys2Proof.Machine.execKmlook f x s⟩
  | 3, 0 => some ⟨true, .r ⟨34, .s, .none, .s, false, true, [0, 1], .map, .fixed⟩ f 0 (some x) (some lit), fun s => Sys2Proof.Machine.execKmlookLiteral f x lit s⟩
  | 1, 1 => some ⟨true, .r ⟨34, .s, .s, .s, true, true, [0, 1], .mapC0, .fixed⟩ f 1 (some x) none, fun s => Sys2Proof.Machine.execKmbind f x s⟩
  | 3, 1 => some ⟨true, .r ⟨34, .s, .none, .s, false, true, [0, 1], .mapC0, .fixed⟩ f 1 (some x) (some lit), fun s => Sys2Proof.Machine.execKmbindLiteral f x lit s⟩
  | 1, 2 => some ⟨true, .r ⟨34, .s, .s, .s, true, true, [0], .map, .fixed⟩ f 2 (some x) none, fun s => Sys2Proof.Machine.execKmpin f x s⟩
  | 3, 2 => some ⟨true, .r ⟨34, .s, .none, .s, false, true, [0], .map, .fixed⟩ f 2 (some x) (some lit), fun s => Sys2Proof.Machine.execKmpinLiteral f x lit s⟩
  | 1, 3 => some ⟨true, .r ⟨34, .s, .s, .s, true, true, [0], .map, .fixed⟩ f 3 (some x) none, fun s => Sys2Proof.Machine.execKmunpin f x s⟩
  | 3, 3 => some ⟨true, .r ⟨34, .s, .none, .s, false, true, [0], .map, .fixed⟩ f 3 (some x) (some lit), fun s => Sys2Proof.Machine.execKmunpinLiteral f x lit s⟩
  | 1, 4 => some ⟨true, .r ⟨34, .s, .s, .s, true, true, [0], .map, .fixed⟩ f 4 (some x) none, fun s => Sys2Proof.Machine.execKmunbind f x s⟩
  | 3, 4 => some ⟨true, .r ⟨34, .s, .none, .s, false, true, [0], .map, .fixed⟩ f 4 (some x) (some lit), fun s => Sys2Proof.Machine.execKmunbindLiteral f x lit s⟩
  | 1, 5 => some ⟨true, .r ⟨34, .s, .s, .none, true, false, [0], .map, .fixed⟩ f 5 (some x) none, fun s => Sys2Proof.Machine.execKmstat f x s⟩
  | 3, 5 => some ⟨true, .r ⟨34, .s, .none, .none, false, false, [0], .map, .fixed⟩ f 5 (some x) (some lit), fun s => Sys2Proof.Machine.execKmstatLiteral f x lit s⟩
  | _, _ => none

theorem run34_eq (len : Nat) (op : BitVec 5) (f : RF) (x : Ext) (lit : Word) :
    run34 len op f x lit = (major34 len op f x lit).map pack := by
  unfold run34 major34
  generalize op.toNat = m
  rcases len with _ | _ | _ | _ | len <;> rcases m with _ | _ | _ | _ | _ | _ | m <;> rfl

/-- Major opcode 0x24. -/
def run36 (len : Nat) (op : BitVec 5) (f : RF) (x : Ext) (_lit : Word) : Option Packed :=
  match len, op.toNat with
  | 1, 0 => some ⟨true, .r ⟨36, .none, .s, .v, true, true, [0], .handle, .fixed⟩ f 0 (some x) none, fun s => Sys2Proof.Machine.execLnarrow f x s⟩
  | 1, 1 => some ⟨true, .r ⟨36, .s, .none, .none, false, false, [0], (.handleImm 7), .fixed⟩ f 1 (some x) none, fun s => Sys2Proof.Machine.execLread f x s⟩
  | 1, 2 => some ⟨true, .r ⟨36, .none, .s, .none, true, false, [0], (.handleImm 7), .fixed⟩ f 2 (some x) none, fun s => Sys2Proof.Machine.execLwrite f x s⟩
  | _, _ => none

theorem run36_eq (len : Nat) (op : BitVec 5) (f : RF) (x : Ext) (lit : Word) :
    run36 len op f x lit = (major36 len op f x lit).map pack := by
  unfold run36 major36
  generalize op.toNat = m
  rcases len with _ | _ | len <;> rcases m with _ | _ | _ | m <;> rfl

/-- Major opcode 0x25. -/
def run37 (len : Nat) (op : BitVec 5) (f : RF) (x : Ext) (_lit : Word) : Option Packed :=
  match len, op.toNat with
  | 1, 0 => some ⟨true, .r ⟨37, .s, .none, .none, false, false, [0, 1], (.mem [0, 1, 4] [0, 1, 2, 3, 4, 5, 6, 7, 8, 12] false false), .fixed⟩ f 0 (some x) none, fun s => Sys2Proof.Machine.execLdDevice f x s⟩
  | 1, 1 => some ⟨true, .r ⟨37, .none, .s, .none, true, false, [0], (.mem [0, 2, 4] [0, 1, 2, 3, 4, 5, 6, 7, 8, 12] false false), .fixed⟩ f 1 (some x) none, fun s => Sys2Proof.Machine.execStDevice f x s⟩
  | 1, 2 => some ⟨true, .r ⟨37, .v, .none, .none, false, false, [0, 1], (.mem [0, 1, 4] [0, 1, 2, 3, 4, 5, 6, 7, 8, 9, 10, 11, 12] true false), .fixed⟩ f 2 (some x) none, fun s => Sys2Proof.Machine.execVldDevice f x s⟩
  | 1, 3 => some ⟨true, .r ⟨37, .none, .v, .none, true, false, [0], (.mem [0, 2, 4] [0, 1, 2, 3, 4, 5, 6, 7, 8, 9, 10, 11, 12] true false), .fixed⟩ f 3 (some x) none, fun s => Sys2Proof.Machine.execVstDevice f x s⟩
  | _, _ => none

theorem run37_eq (len : Nat) (op : BitVec 5) (f : RF) (x : Ext) (lit : Word) :
    run37 len op f x lit = (major37 len op f x lit).map pack := by
  unfold run37 major37
  generalize op.toNat = m
  rcases len with _ | _ | len <;> rcases m with _ | _ | _ | _ | m <;> rfl

/-- Major opcode 0x26. -/
def run38 (len : Nat) (op : BitVec 5) (f : RF) (x : Ext) (_lit : Word) : Option Packed :=
  match len, op.toNat with
  | 1, 0 => some ⟨true, .r ⟨38, .v, .v, .none, true, false, [0], (.mem [0, 1, 4] [0, 1, 2, 3, 5, 6, 7, 9, 10, 11, 12] true true), .fixed⟩ f 0 (some x) none, fun s => Sys2Proof.Machine.execGather f x s⟩
  | 1, 1 => some ⟨true, .r ⟨38, .none, .v, .v, true, true, [0], (.mem [0, 2, 4] [0, 1, 2, 3, 5, 6, 7, 9, 10, 11, 12] true true), .fixed⟩ f 1 (some x) none, fun s => Sys2Proof.Machine.execScatter f x s⟩
  | _, _ => none

theorem run38_eq (len : Nat) (op : BitVec 5) (f : RF) (x : Ext) (lit : Word) :
    run38 len op f x lit = (major38 len op f x lit).map pack := by
  unfold run38 major38
  generalize op.toNat = m
  rcases len with _ | _ | len <;> rcases m with _ | _ | m <;> rfl

/-- Major opcode 0x27. -/
def run39 (len : Nat) (op : BitVec 5) (f : RF) (x : Ext) (_lit : Word) : Option Packed :=
  match len, op.toNat with
  | 1, 0 => some ⟨true, .r ⟨39, .s, .s, .none, true, false, [0], (.mem [0, 1, 2, 3, 4] [0, 3, 4, 7, 8, 12] false false), .fixed⟩ f 0 (some x) none, fun s => Sys2Proof.Machine.execAadd f x s⟩
  | 1, 1 => some ⟨true, .r ⟨39, .s, .s, .none, true, false, [0], (.mem [0, 1, 2, 3, 4] [0, 3, 4, 7, 8, 12] false false), .fixed⟩ f 1 (some x) none, fun s => Sys2Proof.Machine.execAmin f x s⟩
  | 1, 2 => some ⟨true, .r ⟨39, .s, .s, .none, true, false, [0], (.mem [0, 1, 2, 3, 4] [0, 3, 4, 7, 8, 12] false false), .fixed⟩ f 2 (some x) none, fun s => Sys2Proof.Machine.execAmax f x s⟩
  | 1, 3 => some ⟨true, .r ⟨39, .s, .s, .none, true, false, [0], (.mem [0, 1, 2, 3, 4] [0, 3, 4, 7, 8, 12] false false), .fixed⟩ f 3 (some x) none, fun s => Sys2Proof.Machine.execAand f x s⟩
  | 1, 4 => some ⟨true, .r ⟨39, .s, .s, .none, true, false, [0], (.mem [0, 1, 2, 3, 4] [0, 3, 4, 7, 8, 12] false false), .fixed⟩ f 4 (some x) none, fun s => Sys2Proof.Machine.execAor f x s⟩
  | 1, 5 => some ⟨true, .r ⟨39, .s, .s, .none, true, false, [0], (.mem [0, 1, 2, 3, 4] [0, 3, 4, 7, 8, 12] false false), .fixed⟩ f 5 (some x) none, fun s => Sys2Proof.Machine.execAxor f x s⟩
  | 1, 6 => some ⟨true, .r ⟨39, .s, .s, .none, true, false, [0], (.mem [0, 1, 2, 3, 4] [0, 3, 4, 7, 8, 12] false false), .fixed⟩ f 6 (some x) none, fun s => Sys2Proof.Machine.execAswap f x s⟩
  | 1, 7 => some ⟨true, .r ⟨39, .s, .s, .s, true, true, [0], (.mem [0, 1, 2, 3, 4] [0, 3, 4, 7, 8, 12] false false), .fixed⟩ f 7 (some x) none, fun s => Sys2Proof.Machine.execAcas f x s⟩
  | 1, 8 => some ⟨true, .r ⟨39, .v, .v, .v, true, true, [0], (.mem [0, 1, 2, 3, 4] [0, 8] false false), .fixed⟩ f 8 (some x) none, fun s => Sys2Proof.Machine.execAcas4 f x s⟩
  | 1, 9 => some ⟨true, .r ⟨39, .s, .s, .none, true, false, [0], (.mem [0, 1, 2, 3, 4] [0, 8] false false), .fixed⟩ f 9 (some x) none, fun s => Sys2Proof.Machine.execAenq f x s⟩
  | 1, 10 => some ⟨true, .r ⟨39, .s, .s, .s, true, true, [0], .chase, .fixed⟩ f 10 (some x) none, fun s => Sys2Proof.Machine.execAchase f x s⟩
  | _, _ => none

theorem run39_eq (len : Nat) (op : BitVec 5) (f : RF) (x : Ext) (lit : Word) :
    run39 len op f x lit = (major39 len op f x lit).map pack := by
  unfold run39 major39
  generalize op.toNat = m
  rcases len with _ | _ | len <;> rcases m with _ | _ | _ | _ | _ | _ | _ | _ | _ | _ | _ | m <;> rfl

/-- Major opcode 0x28. -/
def run40 (len : Nat) (op : BitVec 5) (f : RF) (x : Ext) (_lit : Word) : Option Packed :=
  match len, op.toNat with
  | 1, 0 => some ⟨true, .r ⟨40, .s, .none, .none, false, false, [0], (.mem [1, 3, 4] [0, 8] false false), .fixed⟩ f 0 (some x) none, fun s => Sys2Proof.Machine.execRwrd f x s⟩
  | 1, 1 => some ⟨true, .r ⟨40, .s, .none, .none, false, false, [0], (.mem [1, 3, 4] [0, 8] false false), .fixed⟩ f 1 (some x) none, fun s => Sys2Proof.Machine.execRwwr f x s⟩
  | 1, 2 => some ⟨true, .r ⟨40, .none, .none, .none, false, false, [0], (.mem [2, 3, 4] [0, 8] false false), .fixed⟩ f 2 (some x) none, fun s => Sys2Proof.Machine.execRwrdx f x s⟩
  | 1, 3 => some ⟨true, .r ⟨40, .none, .none, .none, false, false, [0], (.mem [2, 3, 4] [0, 8] false false), .fixed⟩ f 3 (some x) none, fun s => Sys2Proof.Machine.execRwwrx f x s⟩
  | 1, 4 => some ⟨true, .r ⟨40, .s, .none, .none, false, false, [0, 1], (.mem [0, 1, 2, 3, 4] [0, 8] false false), .fixed⟩ f 4 (some x) none, fun s => Sys2Proof.Machine.execRwtry f x s⟩
  | 1, 5 => some ⟨true, .r ⟨40, .s, .none, .none, false, false, [0], (.mem [0, 1, 4] [0, 8] false false), .fixed⟩ f 5 (some x) none, fun s => Sys2Proof.Machine.execLdsync f x s⟩
  | 1, 6 => some ⟨true, .r ⟨40, .none, .s, .none, true, false, [0], (.mem [0, 2, 4] [0, 8] false false), .fixed⟩ f 6 (some x) none, fun s => Sys2Proof.Machine.execStsync f x s⟩
  | _, _ => none

theorem run40_eq (len : Nat) (op : BitVec 5) (f : RF) (x : Ext) (lit : Word) :
    run40 len op f x lit = (major40 len op f x lit).map pack := by
  unfold run40 major40
  generalize op.toNat = m
  rcases len with _ | _ | len <;> rcases m with _ | _ | _ | _ | _ | _ | _ | m <;> rfl

/-- Major opcode 0x29. -/
def run41 (len : Nat) (op : BitVec 5) (f : RF) (x : Ext) (_lit : Word) : Option Packed :=
  match len, op.toNat with
  | 1, 0 => some ⟨true, .r ⟨41, .s, .s, .none, true, false, [0], (.mem [0, 1, 4] [0, 1, 2, 3, 4, 5, 6, 7, 8, 9, 10, 11, 12] false false), .fixed⟩ f 0 (some x) none, fun s => Sys2Proof.Machine.execWaitne f x s⟩
  | _, _ => none

theorem run41_eq (len : Nat) (op : BitVec 5) (f : RF) (x : Ext) (lit : Word) :
    run41 len op f x lit = (major41 len op f x lit).map pack := by
  unfold run41 major41
  generalize op.toNat = m
  rcases len with _ | _ | len <;> rcases m with _ | m <;> rfl

/-- Major opcode 0x2a. -/
def run42 (len : Nat) (op : BitVec 5) (f : RF) (_x : Ext) (_lit : Word) : Option Packed :=
  match len, op.toNat with
  | 0, 0 => some ⟨true, .r ⟨42, .s, .v, .chain, true, false, [0], .none, .fixed⟩ f 0 none none, fun s => Sys2Proof.Machine.execChapp f s⟩
  | 0, 1 => some ⟨true, .r ⟨42, .none, .s, .chain, true, false, [0], .none, .fixed⟩ f 1 none none, fun s => Sys2Proof.Machine.execChwait f s⟩
  | 0, 2 => some ⟨true, .r ⟨42, .s, .none, .chain, false, false, [0], .none, .fixed⟩ f 2 none none, fun s => Sys2Proof.Machine.execChseq f s⟩
  | _, _ => none

theorem run42_eq (len : Nat) (op : BitVec 5) (f : RF) (x : Ext) (lit : Word) :
    run42 len op f x lit = (major42 len op f x lit).map pack := by
  unfold run42 major42
  generalize op.toNat = m
  rcases len with _ | len <;> rcases m with _ | _ | _ | m <;> rfl

/-- Major opcode 0x2b. -/
def run43 (len : Nat) (op : BitVec 5) (f : RF) (_x : Ext) (_lit : Word) : Option Packed :=
  match len, op.toNat with
  | 0, 0 => some ⟨true, .r ⟨43, .none, .v, .none, true, false, [0], .none, .fixed⟩ f 0 none none, fun s => Sys2Proof.Machine.execBtset f s⟩
  | 0, 1 => some ⟨true, .r ⟨43, .s, .s, .none, true, false, [0], .none, .fixed⟩ f 1 none none, fun s => Sys2Proof.Machine.execBten f s⟩
  | 0, 2 => some ⟨true, .r ⟨43, .none, .v, .none, true, false, [0], .none, .fixed⟩ f 2 none none, fun s => Sys2Proof.Machine.execRbset f s⟩
  | _, _ => none

theorem run43_eq (len : Nat) (op : BitVec 5) (f : RF) (x : Ext) (lit : Word) :
    run43 len op f x lit = (major43 len op f x lit).map pack := by
  unfold run43 major43
  generalize op.toNat = m
  rcases len with _ | len <;> rcases m with _ | _ | _ | m <;> rfl

/-- Major opcode 0x2c. -/
def run44 (len : Nat) (op : BitVec 5) (f : RF) (_x : Ext) (_lit : Word) : Option Packed :=
  match len, op.toNat with
  | 0, 0 => some ⟨true, .r ⟨44, .none, .s, .s, true, true, [0], .none, .fixed⟩ f 0 none none, fun s => Sys2Proof.Machine.execMsave f s⟩
  | 0, 1 => some ⟨true, .r ⟨44, .s, .s, .s, true, true, [0], .none, .fixed⟩ f 1 none none, fun s => Sys2Proof.Machine.execMload f s⟩
  | 0, 2 => some ⟨true, .r ⟨44, .none, .s, .none, true, false, [0], .none, .fixed⟩ f 2 none none, fun s => Sys2Proof.Machine.execMzero f s⟩
  | _, _ => none

theorem run44_eq (len : Nat) (op : BitVec 5) (f : RF) (x : Ext) (lit : Word) :
    run44 len op f x lit = (major44 len op f x lit).map pack := by
  unfold run44 major44
  generalize op.toNat = m
  rcases len with _ | len <;> rcases m with _ | _ | _ | m <;> rfl

/-- Major opcode 0x2e. -/
def run46 (len : Nat) (op : BitVec 5) (f : RF) (_x : Ext) (_lit : Word) : Option Packed :=
  match len, op.toNat with
  | 0, 0 => some ⟨true, .r ⟨46, .none, .s, .chan, true, false, [0], .none, .fixed⟩ f 0 none none, fun s => Sys2Proof.Machine.execSend f s⟩
  | 0, 1 => some ⟨true, .r ⟨46, .s, .none, .chan, false, false, [0], .none, .fixed⟩ f 1 none none, fun s => Sys2Proof.Machine.execRecv f s⟩
  | 0, 2 => some ⟨true, .r ⟨46, .s, .s, .chan, false, false, [0], .none, .fixed⟩ f 2 none none, fun s => Sys2Proof.Machine.execRecvnb f s⟩
  | 0, 3 => some ⟨true, .r ⟨46, .none, .none, .chan, false, false, [0], .none, .fixed⟩ f 3 none none, fun s => Sys2Proof.Machine.execEos f s⟩
  | _, _ => none

theorem run46_eq (len : Nat) (op : BitVec 5) (f : RF) (x : Ext) (lit : Word) :
    run46 len op f x lit = (major46 len op f x lit).map pack := by
  unfold run46 major46
  generalize op.toNat = m
  rcases len with _ | len <;> rcases m with _ | _ | _ | _ | m <;> rfl

/-- Major opcode 0x2f. -/
def run47 (len : Nat) (op : BitVec 5) (f : RF) (_x : Ext) (_lit : Word) : Option Packed :=
  match len, op.toNat with
  | 0, 0 => if f.qf = 1 then some ⟨true, .word 0x2F000020#32, fun s => Sys2Proof.Machine.execParkPool s⟩ else some ⟨true, .word 0x2F000000#32, fun s => Sys2Proof.Machine.execParkRes s⟩
  | _, _ => none

theorem run47_eq (len : Nat) (op : BitVec 5) (f : RF) (x : Ext) (lit : Word) :
    run47 len op f x lit = (major47 len op f x lit).map pack := by
  unfold run47 major47
  generalize op.toNat = m
  rcases len with _ | len <;> rcases m with _ | m <;> first | rfl | (by_cases h : f.qf = 1#2 <;> simp [h] <;> rfl)

/-- Major opcode 0x30. -/
def run48 (len : Nat) (op : BitVec 5) (f : RF) (_x : Ext) (_lit : Word) : Option Packed :=
  match len, op.toNat with
  | 0, 0 => some ⟨true, .r ⟨48, .s, .none, .memb, false, false, [0], .none, .fixed⟩ f 0 none none, fun s => Sys2Proof.Machine.execBarrive f s⟩
  | 0, 1 => some ⟨true, .r ⟨48, .s, .none, .memb, false, false, [0], .none, .fixed⟩ f 1 none none, fun s => Sys2Proof.Machine.execBwait f s⟩
  | 0, 2 => some ⟨true, .r ⟨48, .s, .none, .memb, false, false, [0], .none, .fixed⟩ f 2 none none, fun s => Sys2Proof.Machine.execBsync f s⟩
  | 0, 3 => some ⟨true, .r ⟨48, .s, .none, .memb, false, false, [0], .none, .fixed⟩ f 3 none none, fun s => Sys2Proof.Machine.execBdrop f s⟩
  | _, _ => none

theorem run48_eq (len : Nat) (op : BitVec 5) (f : RF) (x : Ext) (lit : Word) :
    run48 len op f x lit = (major48 len op f x lit).map pack := by
  unfold run48 major48
  generalize op.toNat = m
  rcases len with _ | len <;> rcases m with _ | _ | _ | _ | m <;> rfl

/-- Major opcode 0x32. -/
def run50 (len : Nat) (op : BitVec 5) (f : RF) (_x : Ext) (_lit : Word) : Option Packed :=
  match len, op.toNat with
  | 0, 0 => some ⟨true, .r ⟨50, .s, .none, .none, false, false, [0], .none, .fixed⟩ f 0 none none, fun s => Sys2Proof.Machine.execDevnum f s⟩
  | _, _ => none

theorem run50_eq (len : Nat) (op : BitVec 5) (f : RF) (x : Ext) (lit : Word) :
    run50 len op f x lit = (major50 len op f x lit).map pack := by
  unfold run50 major50
  generalize op.toNat = m
  rcases len with _ | len <;> rcases m with _ | m <;> rfl

/-- Major opcode 0x33. -/
def run51 (len : Nat) (op : BitVec 5) (f : RF) (x : Ext) (_lit : Word) : Option Packed :=
  match len, op.toNat with
  | 1, 0 => some ⟨true, .r ⟨51, .s, .s, .none, true, false, [0], .mcst, .fixed⟩ f 0 (some x) none, fun s => Sys2Proof.Machine.execMcst f x s⟩
  | _, _ => none

theorem run51_eq (len : Nat) (op : BitVec 5) (f : RF) (x : Ext) (lit : Word) :
    run51 len op f x lit = (major51 len op f x lit).map pack := by
  unfold run51 major51
  generalize op.toNat = m
  rcases len with _ | _ | len <;> rcases m with _ | m <;> rfl

/-- Major opcode 0x34. -/
def run52 (len : Nat) (op : BitVec 5) (f : RF) (x : Ext) (_lit : Word) : Option Packed :=
  match len, op.toNat with
  | 1, 0 => some ⟨true, .r ⟨52, .none, .v, .s, true, true, [0], .sl, .fixed⟩ f 0 (some x) none, fun s => Sys2Proof.Machine.execSlsend f x s⟩
  | _, _ => none

theorem run52_eq (len : Nat) (op : BitVec 5) (f : RF) (x : Ext) (lit : Word) :
    run52 len op f x lit = (major52 len op f x lit).map pack := by
  unfold run52 major52
  generalize op.toNat = m
  rcases len with _ | _ | len <;> rcases m with _ | m <;> rfl

/-- Major opcode 0x35. -/
def run53 (len : Nat) (op : BitVec 5) (f : RF) (x : Ext) (_lit : Word) : Option Packed :=
  match len, op.toNat with
  | 1, 0 => some ⟨true, .r ⟨53, .s, .s, .v, false, true, [0], .reduce, .fixed⟩ f 0 (some x) none, fun s => Sys2Proof.Machine.execReduce f x s⟩
  | _, _ => none

theorem run53_eq (len : Nat) (op : BitVec 5) (f : RF) (x : Ext) (lit : Word) :
    run53 len op f x lit = (major53 len op f x lit).map pack := by
  unfold run53 major53
  generalize op.toNat = m
  rcases len with _ | _ | len <;> rcases m with _ | m <;> rfl

/-- Major opcode 0x36. -/
def run54 (len : Nat) (op : BitVec 5) (f : RF) (x : Ext) (_lit : Word) : Option Packed :=
  match len, op.toNat with
  | 0, 0 => some ⟨true, .r ⟨54, .s, .s, .none, true, false, [0, 1, 2], .none, .fixed⟩ f 0 none none, fun s => Sys2Proof.Machine.execClaim f s⟩
  | 1, 0 => some ⟨true, .r ⟨54, .s, .none, .none, false, false, [0, 1, 2], (.imm 0 65535 false), .fixed⟩ f 0 (some x) none, fun s => Sys2Proof.Machine.execClaimImmediate f x s⟩
  | 0, 1 => some ⟨true, .r ⟨54, .s, .s, .none, true, false, [0, 1, 2], .none, .fixed⟩ f 1 none none, fun s => Sys2Proof.Machine.execAcq f s⟩
  | 1, 1 => some ⟨true, .r ⟨54, .s, .none, .none, false, false, [0, 1, 2], (.imm 0 65535 false), .fixed⟩ f 1 (some x) none, fun s => Sys2Proof.Machine.execAcqImmediate f x s⟩
  | 0, 2 => some ⟨true, .r ⟨54, .s, .s, .none, true, false, [0, 1, 2], .none, .fixed⟩ f 2 none none, fun s => Sys2Proof.Machine.execAcqNb f s⟩
  | 1, 2 => some ⟨true, .r ⟨54, .s, .none, .none, false, false, [0, 1, 2], (.imm 0 65535 false), .fixed⟩ f 2 (some x) none, fun s => Sys2Proof.Machine.execAcqNbImmediate f x s⟩
  | 0, 3 => some ⟨true, .r ⟨54, .none, .s, .none, true, false, [0, 1, 2], .none, .fixed⟩ f 3 none none, fun s => Sys2Proof.Machine.execRel f s⟩
  | 1, 3 => some ⟨true, .r ⟨54, .none, .none, .none, false, false, [0, 1, 2], (.imm 0 65535 false), .fixed⟩ f 3 (some x) none, fun s => Sys2Proof.Machine.execRelImmediate f x s⟩
  | _, _ => none

theorem run54_eq (len : Nat) (op : BitVec 5) (f : RF) (x : Ext) (lit : Word) :
    run54 len op f x lit = (major54 len op f x lit).map pack := by
  unfold run54 major54
  generalize op.toNat = m
  rcases len with _ | _ | len <;> rcases m with _ | _ | _ | _ | m <;> rfl

/-- Major opcode 0x38. -/
def run56 (len : Nat) (op : BitVec 5) (f : RF) (x : Ext) (_lit : Word) : Option Packed :=
  match len, op.toNat with
  | 1, 0 => some ⟨true, .r ⟨56, .none, .none, .none, false, false, [0], (.imm 0 65535 false), .fixed⟩ f 0 (some x) none, fun s => Sys2Proof.Machine.execTrap f x s⟩
  | 0, 1 => some ⟨true, .word 0x38000001#32, fun s => Sys2Proof.Machine.execReturnOp s⟩
  | _, _ => none

theorem run56_eq (len : Nat) (op : BitVec 5) (f : RF) (x : Ext) (lit : Word) :
    run56 len op f x lit = (major56 len op f x lit).map pack := by
  unfold run56 major56
  generalize op.toNat = m
  rcases len with _ | _ | len <;> rcases m with _ | _ | m <;> rfl

/-- Major opcode 0x39. -/
def run57 (len : Nat) (op : BitVec 5) (f : RF) (x : Ext) (_lit : Word) : Option Packed :=
  match len, op.toNat with
  | 1, 0 => some ⟨true, .r ⟨57, .s, .none, .none, false, false, [0], (.imm 0 4095 false), .fixed⟩ f 0 (some x) none, fun s => Sys2Proof.Machine.execCrrd f x s⟩
  | 1, 1 => some ⟨true, .r ⟨57, .none, .s, .none, true, false, [0], (.imm 0 4095 false), .fixed⟩ f 1 (some x) none, fun s => Sys2Proof.Machine.execCrwr f x s⟩
  | _, _ => none

theorem run57_eq (len : Nat) (op : BitVec 5) (f : RF) (x : Ext) (lit : Word) :
    run57 len op f x lit = (major57 len op f x lit).map pack := by
  unfold run57 major57
  generalize op.toNat = m
  rcases len with _ | _ | len <;> rcases m with _ | _ | m <;> rfl

/-- Major opcode 0x3a. -/
def run58 (len : Nat) (op : BitVec 5) (f : RF) (x : Ext) (_lit : Word) : Option Packed :=
  match len, op.toNat with
  | 0, 0 => some ⟨true, .r ⟨58, .none, .none, .none, false, false, [0, 1], .none, .fixed⟩ f 0 none none, fun s => Sys2Proof.Machine.execFence f s⟩
  | 1, 0 => some ⟨true, .r ⟨58, .none, .none, .none, false, false, [0, 1], .fence, .fixed⟩ f 0 (some x) none, fun s => Sys2Proof.Machine.execFenceExt f x s⟩
  | 0, 1 => some ⟨true, .r ⟨58, .none, .s, .none, true, false, [0], .none, .fixed⟩ f 1 none none, fun s => Sys2Proof.Machine.execPpoint f s⟩
  | 0, 2 => some ⟨true, .word 0x3A000002#32, fun s => Sys2Proof.Machine.execYield s⟩
  | 0, 3 => some ⟨true, .word 0x3A000003#32, fun s => Sys2Proof.Machine.execHalt s⟩
  | _, _ => none

theorem run58_eq (len : Nat) (op : BitVec 5) (f : RF) (x : Ext) (lit : Word) :
    run58 len op f x lit = (major58 len op f x lit).map pack := by
  unfold run58 major58
  generalize op.toNat = m
  rcases len with _ | _ | len <;> rcases m with _ | _ | _ | _ | m <;> rfl

/-- Major opcode 0x3b. -/
def run59 (len : Nat) (op : BitVec 5) (f : RF) (_x : Ext) (_lit : Word) : Option Packed :=
  match len, op.toNat with
  | 0, 0 => some ⟨true, .r ⟨59, .none, .s, .s, true, true, [0], .none, .fixed⟩ f 0 none none, fun s => Sys2Proof.Machine.execTlbinv f s⟩
  | 0, 1 => some ⟨true, .word 0x3B000001#32, fun s => Sys2Proof.Machine.execReplay s⟩
  | _, _ => none

theorem run59_eq (len : Nat) (op : BitVec 5) (f : RF) (x : Ext) (lit : Word) :
    run59 len op f x lit = (major59 len op f x lit).map pack := by
  unfold run59 major59
  generalize op.toNat = m
  rcases len with _ | len <;> rcases m with _ | _ | m <;> rfl

/-- The packed instruction of a format R word. -/
def runR (maj len : Nat) (op : BitVec 5) (f : RF) (x : Ext) (lit : Word) : Option Packed :=
  match maj with
  | 1 => run1 len op f x lit
  | 3 => run3 len op f x lit
  | 4 => run4 len op f x lit
  | 8 => run8 len op f x lit
  | 11 => run11 len op f x lit
  | 12 => run12 len op f x lit
  | 13 => run13 len op f x lit
  | 14 => run14 len op f x lit
  | 15 => run15 len op f x lit
  | 16 => run16 len op f x lit
  | 17 => run17 len op f x lit
  | 18 => run18 len op f x lit
  | 19 => run19 len op f x lit
  | 20 => run20 len op f x lit
  | 21 => run21 len op f x lit
  | 24 => run24 len op f x lit
  | 25 => run25 len op f x lit
  | 26 => run26 len op f x lit
  | 27 => run27 len op f x lit
  | 28 => run28 len op f x lit
  | 29 => run29 len op f x lit
  | 30 => run30 len op f x lit
  | 32 => run32 len op f x lit
  | 33 => run33 len op f x lit
  | 34 => run34 len op f x lit
  | 36 => run36 len op f x lit
  | 37 => run37 len op f x lit
  | 38 => run38 len op f x lit
  | 39 => run39 len op f x lit
  | 40 => run40 len op f x lit
  | 41 => run41 len op f x lit
  | 42 => run42 len op f x lit
  | 43 => run43 len op f x lit
  | 44 => run44 len op f x lit
  | 46 => run46 len op f x lit
  | 47 => run47 len op f x lit
  | 48 => run48 len op f x lit
  | 50 => run50 len op f x lit
  | 51 => run51 len op f x lit
  | 52 => run52 len op f x lit
  | 53 => run53 len op f x lit
  | 54 => run54 len op f x lit
  | 56 => run56 len op f x lit
  | 57 => run57 len op f x lit
  | 58 => run58 len op f x lit
  | 59 => run59 len op f x lit
  | _ => none

theorem runR_eq (maj len : Nat) (op : BitVec 5) (f : RF) (x : Ext) (lit : Word) :
    runR maj len op f x lit = (candidateR maj len op f x lit).map pack := by
  unfold runR candidateR
  split <;> first | rfl | simp only [Option.map_none, run1_eq, run3_eq, run4_eq, run8_eq, run11_eq, run12_eq, run13_eq, run14_eq, run15_eq, run16_eq, run17_eq, run18_eq, run19_eq, run20_eq, run21_eq, run24_eq, run25_eq, run26_eq, run27_eq, run28_eq, run29_eq, run30_eq, run32_eq, run33_eq, run34_eq, run36_eq, run37_eq, run38_eq, run39_eq, run40_eq, run41_eq, run42_eq, run43_eq, run44_eq, run46_eq, run47_eq, run48_eq, run50_eq, run51_eq, run52_eq, run53_eq, run54_eq, run56_eq, run57_eq, run58_eq, run59_eq]

/-- The packed instruction of a format I word. -/
def runI (op : Nat) (f : IForm) : Option Packed :=
  match op with
  | 0 => some ⟨true, .i 0 f, fun s => Sys2Proof.Machine.execAddImmediate f s⟩
  | 1 => some ⟨true, .i 1 f, fun s => Sys2Proof.Machine.execSubImmediate f s⟩
  | 2 => some ⟨true, .i 2 f, fun s => Sys2Proof.Machine.execMulImmediate f s⟩
  | 3 => some ⟨true, .i 3 f, fun s => Sys2Proof.Machine.execAndImmediate f s⟩
  | 4 => some ⟨true, .i 4 f, fun s => Sys2Proof.Machine.execOrImmediate f s⟩
  | 5 => some ⟨true, .i 5 f, fun s => Sys2Proof.Machine.execXorImmediate f s⟩
  | 6 => some ⟨true, .i 6 f, fun s => Sys2Proof.Machine.execShlImmediate f s⟩
  | 7 => some ⟨true, .i 7 f, fun s => Sys2Proof.Machine.execShrImmediate f s⟩
  | 8 => some ⟨true, .i 8 f, fun s => Sys2Proof.Machine.execShaImmediate f s⟩
  | _ => none

theorem runI_eq (op : Nat) (f : IForm) : runI op f = (candidateI op f).map pack := by
  unfold runI candidateI
  rcases op with _ | _ | _ | _ | _ | _ | _ | _ | _ | op <;> rfl

/-- The packed instruction of a format B word. -/
def runB (kind : Nat) (off : BitVec 22) : Option Packed :=
  match kind with
  | 0 => some ⟨true, .b 0 off, fun s => Sys2Proof.Machine.execB off s⟩
  | 1 => some ⟨true, .b 1 off, fun s => Sys2Proof.Machine.execBl off s⟩
  | _ => none

theorem runB_eq (kind : Nat) (off : BitVec 22) : runB kind off = (candidateB kind off).map pack := by
  unfold runB candidateB
  rcases kind with _ | _ | kind <;> rfl

/-- The packed instruction that major, LEN and minor name. -/
def runCandidate (len : Nat) (w e1 e2 : W32) (lit : Word) : Option Packed :=
  let maj := (w.extractLsb' 24 6).toNat
  if maj = 2 then (if len = 0 then runI (w.extractLsb' 0 4).toNat (unpackI w) else none)
  else if maj = 9 then (if len = 0 then some ⟨true, .ci (unpackCI w), fun s => Sys2Proof.Machine.execCmpImmediate (unpackCI w) s⟩ else none)
  else if maj = 10 then (if len = 0 then runB (w.extractLsb' 22 2).toNat (w.extractLsb' 0 22) else none)
  else runR maj len (w.extractLsb' 0 5) (unpackR w) (unpackE e1 e2) lit

theorem runCandidate_eq (len : Nat) (w e1 e2 : W32) (lit : Word) :
    runCandidate len w e1 e2 lit = (candidate len w e1 e2 lit).map pack := by
  simp only [runCandidate, candidate, runI_eq, runB_eq, runR_eq]
  by_cases h2 : (w.extractLsb' 24 6).toNat = 2
  · simp only [if_pos h2]; split <;> rfl
  · by_cases h9 : (w.extractLsb' 24 6).toNat = 9
    · simp only [if_neg h2, if_pos h9]; split <;> rfl
    · by_cases h10 : (w.extractLsb' 24 6).toNat = 10
      · simp only [if_neg h2, if_neg h9, if_pos h10]; split <;> rfl
      · simp only [if_neg h2, if_neg h9, if_neg h10]

/-- Checks and runs one candidate (R49 orders 4-8). -/
def runChecked (ws : List W32) (w e1 e2 : W32) (lit : Word) (s : State) : Host.Outcome State Fault Refusal :=
  match runCandidate (w.extractLsb' 30 2).toNat w e1 e2 lit with
  | none => .next (s.trap causeIllegal 0)
  | some p => if (p.distinct && p.view.ok) && p.view.words == ws then p.run s else .next (s.trap causeIllegal 0)

theorem runChecked_eq (ws : List W32) (w e1 e2 : W32) (lit : Word) (s : State) :
    runChecked ws w e1 e2 lit s =
      match checked ws w e1 e2 lit with
      | .ok i => exec i s
      | .error _ => .next (s.trap causeIllegal 0) := by
  unfold runChecked checked
  rw [runCandidate_eq]
  cases candidate (w.extractLsb' 30 2).toNat w e1 e2 lit with
  | none => by_cases hk : opcodeKnown w = true <;> simp [hk]
  | some i =>
    simp only [Option.map_some]
    change (if (i.wf && encode i == ws) = true then exec i s else .next (s.trap causeIllegal 0)) = _
    by_cases h : (i.wf && encode i == ws) = true
    · rw [if_pos h, if_pos h]
    · rw [if_neg h, if_neg h]

/-- `fetchExec` without the instruction in between. -/
def fetchRun (ws : List W32) (s : State) : Host.Outcome State Fault Refusal :=
  match ws with
  | [] => .next (s.trap causeIllegal 0)
  | w :: rest =>
    if w = 0 then Sys2Proof.Machine.execZeroWord s
    else if w = 0xFFFFFFFF#32 then Sys2Proof.Machine.execBreakWord s
    else match (w.extractLsb' 30 2).toNat, rest with
      | 0, _ => runChecked [w] w 0 0 0 s
      | 1, e1 :: e2 :: _ => runChecked [w, e1, e2] w e1 e2 0 s
      | 2, l0 :: l1 :: _ => runChecked [w, l0, l1] w 0 0 (literal l0 l1) s
      | 3, e1 :: e2 :: l0 :: l1 :: _ => runChecked [w, e1, e2, l0, l1] w e1 e2 (literal l0 l1) s
      | _, _ => .next (s.trap causeIllegal 0)

/-- The compiled form of `fetchExec` is `fetchRun`. -/
@[csimp] theorem fetchExec_eq_fetchRun : @fetchExec = @fetchRun := by
  funext ws s
  unfold fetchExec fetchRun decodeWords
  cases ws with
  | nil => rfl
  | cons w rest =>
    dsimp only
    by_cases h0 : w = 0
    · simp only [if_pos h0]; rfl
    · by_cases h1 : w = 0xFFFFFFFF#32
      · simp only [if_neg h0, if_pos h1]; rfl
      · simp only [if_neg h0, if_neg h1]
        generalize (w.extractLsb' 30 2).toNat = n
        rcases n with _ | _ | _ | _ | n <;> rcases rest with _ | ⟨e1, _ | ⟨e2, _ | ⟨e3, _ | ⟨e4, r⟩⟩⟩⟩ <;>
          first | rfl | exact (runChecked_eq _ _ _ _ _ _).symm

end Sys2Proof.Machine
end

