-- ==== Sys2Proof/Machine/Cycle.lean ====
section
/-! DEFINITION. What one step does, and where a word is placed to be the next instruction (log 1, 8). -/

namespace Sys2Proof.Machine

/-! ### Requests that are issued again (R366) -/

/-- The registers a, b and c0 to c3 of a replay record. -/
def Replay.regs (r : Replay) : List Reg :=
  let w := fun i => (r.words[i]?).getD 0
  let f := unpackR (w 0)
  let x := unpackE (w 1) (w 2)
  [f.a, f.b, x.c0, x.c1, x.c2, x.c3]

/-- The strand as the request first saw it: sources from the record, every register full, no generator, no trap taken, and what the record keeps of
its request. Its names lie in a window that holds them all. -/
def Strand.asIssued (st : Strand) (r : Replay) : Strand :=
  let st := (r.regs.zip r.vals).foldl (fun (st : Strand) p => st.put p.1 p.2) st
  { st with
    full := BitVec.allOnes 32, pc := r.pc, streams := Vector.replicate 8 {}, trapCause := 0, wait := none, last := none
    vView := ⟨0, 512⟩, redo := r.redo, replays := st.replays.drop 1 }

/-- The register space as the request first saw it: the vector image stands in the source registers (R122, R366). -/
def State.vectorsAsIssued (s : State) (r : Replay) : State :=
  let f := unpackR ((r.words[0]?).getD 0)
  let at_ := fun (v : Reg) => (s.me.place (.v v false)).1
  let acas4 := !r.vec.isEmpty && (((r.words[0]?).getD 0).extractLsb' 24 6).toNat = 0x27
  s.modMyCrew fun w =>
    { w with
      empty := []
      hold := { w.hold with rq := 16 }
      window := if r.vec.isEmpty then w.window
        else if acas4 then (w.window.write (at_ f.a) (r.vec.take 32)).write (at_ f.b) ((r.vec.drop 32).take 33)
        else w.window.write (at_ f.a) r.vec }

/-- What the strand keeps of its own after a request has been issued again, or waits to be. -/
def Strand.afterReplay (st now : Strand) (sent : Bool) : Strand :=
  { st with
    last := if sent then now.last else st.last, wait := now.wait, replays := if sent then st.replays.drop 1 else st.replays, spinPc := now.spinPc, spinFp := now.spinFp,
    spin := now.spin }

/-- Names that a failed request leaves empty (R355); a bound one is its stream's. -/
def State.loseNames (s : State) (sid : SId) (o : Owner) (ds : List Opnd) : State :=
  ds.foldl (fun (s : State) d =>
    let st := s.strand sid
    if (st.bound d).isSome then s
    else match d with
      | .s r _ => s.modStrand sid fun st => st.lose r
      | d => s.modOwned sid.core o fun w => w.loseLines ((st.place d).1 / 64) 8) s

/-- The names of a record whose request fails are left empty; what was to be appended is dropped (R136, R355). -/
def State.loseReplay (s : State) (sid : SId) (o : Owner) (r : Replay) : State :=
  match r.redo with
  | none => s.loseNames sid o r.dests
  | some d =>
    let s := (d.app.toList ++ d.app2.toList).foldl State.dropReq s
    match d.dst with
    | .space b => if d.app.isSome then s else s.modOwned sid.core o fun w => w.loseLines (b / 64) 8
    | _ => (r.dests.zip [d.app, d.app2]).foldl (fun (s : State) p => match p with
      | (.s x _, none) => s.modStrand sid fun st => st.lose x
      | _ => s) s

/-- What stands for a record among the requests while it is still to be issued again. -/
def Replay.stand (r : Replay) (sid : SId) (x : Req) : Bool :=
  x.aside && x.sid == sid && x.kind.counts && r.redo.any fun d => x.prog == some d.prog

/-- A request that was saved without its places takes them now, in the streams that its names are bound to (R136, R375). -/
def State.bookAgain (s : State) (r : Replay) (first : Nat) : State :=
  if r.redo.isSome then s
  else
    let (a, s) := match r.dests with
      | d :: _ => s.book d
      | [] => (none, s)
    let (b, s) := match r.dests with
      | _ :: d :: _ => s.book d
      | _ => (none, s)
    { s with reqs := s.reqs.map fun x => if x.sid == s.cur && first ≤ x.id && x.kind.counts then { x with app := a, app2 := b } else x }

/-- The oldest replay record of the running strand is issued again, in its place in the program order; one whose checks fail now is a late fault
with the PC of the access (R351, R366; log 7). A record that waits, or whose crew is held, stays. -/
def State.replayHead (s : State) (r : Replay) : Host.Outcome State Fault Refusal :=
  let me := s.me
  let crew := s.myCrew
  let sid := s.cur
  let owner := s.ownerOf s.cur
  let (stands, others) := s.reqs.partition (r.stand sid)
  match fetchExec r.words ((({ s with reqs := others } : State).modMe fun st => st.asIssued r).vectorsAsIssued r) with
  | .next t =>
    let now := t.strand sid
    let trapped := now.nest
    let sent := trapped || (now.last.isSome && now.wait.isNone)
    let t := t.modOwned sid.core owner fun w => { w with window := crew.window, empty := crew.empty, hold := crew.hold }
    let t := t.setStrand sid (me.afterReplay now sent)
    .next (if trapped then (t.loseReplay sid owner r).lateFault sid ⟨now.trapCause.toNat % 256, r.pc, r.reg, false, false, 0, 0⟩
      else if sent then t.asStrand sid fun s' => s'.bookAgain r s.serial
      else { t with reqs := t.reqs ++ stands })
  | o => o

/-! ### The strand chosen for an issue (R88, R92, R349) -/

/-- The running strand's issue: a late fault is taken, a request issued again, or the instruction at its PC fetched, annulled or
run. -/
def State.runStrand (s : State) : Host.Outcome State Fault Refusal :=
  if s.me.lateDue then execHandlerEntry s.cur s
  else match s.me.replays with
    | r :: _ => s.replayHead r
    | [] => match s.fetchInstr with
      | (.wait, s) => .next (s.lend .poll)
      | (.bad a, s) => .next (s.trap causeFetch a)
      | (.words ws, s) =>
        if s.me.annul ≠ 0 then .next (s.annulOne ws.length) else fetchExec ws { s with words := ws }

/-- The strand would issue, were the turn given to it now: it is eligible, and its next instruction finds its sources (R87). -/
def State.couldIssue (s : State) (sid : SId) : Bool :=
  s.eligible sid && ((s.strand sid).lateDue || match ({ s with cur := sid, rest := [] } : State).runStrand with
    | .next t => (t.strand sid).last == some s.cycle
    | _ => false)

/-- The running strand's next opportunity goes to an annulment, which takes no turn (R92). -/
def State.annuls (s : State) : Bool := s.me.annul != 0 && !s.me.lateDue && s.me.replays.isEmpty

/-- A Hasp strand that has issued in the turn of an owner that could have issued displaces it: the owner's next own turn is protected. One that
has annulled its next instruction has taken no turn (R91, R92). -/
def State.guardOwner (s t : State) : State :=
  if s.cur.pos = 16 && (t.strand s.cur).last == some s.cycle && !s.annuls then
    match (s.core s.cur.core).turnOf with
    | some p =>
      if ((s.core s.cur.core).crewAt p).isSome && s.couldIssue ⟨s.cur.core, p⟩ then
        t.modCore s.cur.core fun c => { c with guarded := c.guarded ||| (1#16 <<< p) }
      else t
    | none => t
  else t

/-- The chosen strand's issue, and what it does to the owner of the turn (R88, R91). -/
def State.runSelected (s : State) : Host.Outcome State Fault Refusal :=
  match s.runStrand with
  | .next t => .next (s.guardOwner t)
  | o => o

/-! ### Events and cycles -/

/-- Takes the first event that is due and not held out of a list. -/
def takeDue (cycle : Nat) (held : Instr → Bool) : List Pending → Option (Instr × List Pending)
  | [] => none
  | p :: ps => if p.due < cycle && !held p.ev then some (p.ev, ps)
    else match takeDue cycle held ps with
      | some (e, rest) => some (e, p :: rest)
      | none => none

/-- The compute dies issue (R394, R397). -/
def State.powered (s : State) : Bool := s.bar.pwr == 0 && s.bar.sec == 1

/-- An event of a core's strands or engines, which stands still while the compute dies are gated or off (R394). -/
def coreEvent : Instr → Bool
  | .issueTurn _ | .deliver _ | .yieldEnd _ | .spinWake _ | .spinTimeout _ _ | .handlerEntry _ | .haspRunnable _ | .chainEntryStart _ _
  | .chain7StorageGrant _ | .copyTransfer _ | .engineGranuleLand _ _ _ _ | .entryComplete _ | .markerComplete _ | .gatherRowLand _ _
  | .tileRecordStart _ | .kGroupApply _ _ | .drainStart _ _ | .drainRow _ _ | .sideDrain _ _ | .bulkReduceVector _ => true
  | _ => false

/-- The events that wait until the compute dies issue again (R394, R397). -/
def State.holds (s : State) (e : Instr) : Bool := !s.powered && coreEvent e

/-- The cycle is over: while the dies are throttled, at most one in two is followed by a skipped one (R395). -/
def State.nextCycle (s : State) : State :=
  let s : State := { s with cycle := s.cycle + 1, turn := 0 }
  if s.throttled then
    let (n, s) := s.fresh
    { s with skipped := s.skipped + n % 2 }
  else s

/-- One step: the strand chosen issues; or the oldest event that is due happens; or the next core chooses its issuer; or the
cycle ends. -/
def State.advance (s : State) : Host.Outcome State Fault Refusal :=
  if s.sel then s.runSelected
  else match takeDue s.cycle s.holds s.pending with
    | some (e, rest) => exec e { s with pending := rest }
    | none => match s.cores[s.turn]? with
      | some c => if s.powered then execIssueTurn c.id s else .next s.nextCycle
      | none => .next s.nextCycle

/-! ### Placing an instruction -/

/-- The address of slot 248, which fetches read for the handler address 2^63 (R350). -/
def slot248 : Nat := 248 * 16384

/-- The strand that runs a placed instruction: privileged, at the handler address 2^63, with nothing left to do first. -/
def Strand.placed (st : Strand) : Strand :=
  { st with
    pc := 0x8000000000000000#64, priv := true, annul := 0, halted := false, yielding := false, wait := none, spin := none, last := none
    late := [], replays := [] }

/-- Core 0 with the bytes of an instruction in slot 248 and a crew on position 0. -/
def Core.withWord (c : Core) (w : Nat) : Core :=
  let c := c.setStrand 0 (c.strand 0).placed
  { c with
    crews := if (c.crewAt 0).isSome then c.crews else { task := 0, pos := [0] } :: c.crews
    slots := c.slots.write slot248 (bytesOfNat 20 w)
    slotErrors := [] }

/-- The state in which the next step fetches and runs the instruction whose bits are `w` (log 1): words are stored in little-endian
byte order (R2, R32), and the longest instruction has five words (R50). -/
def State.placeWord (s : State) (nbits w : Nat) : State :=
  let sid : SId := ⟨0, 0⟩
  let s := s.modCore 0 fun c => c.withWord (w % 2 ^ nbits)
  { s with
    cur := sid, sel := true, rest := [], reqs := s.reqs.filter fun r => !(r.sid == sid && r.kind == .fetch) }

end Sys2Proof.Machine
end

