-- ==== Sys2Proof/Machine/Step.lean ====
section
/-! DEFINITION. The step function, and where it fetches its next instruction. -/

namespace Sys2Proof.Machine

/-- One step of the machine (log 1). -/
def step (s : State) : Host.Outcome State Fault Refusal := s.advance

/-- The instruction whose bits are `w` stands where `step` fetches next. -/
def State.withFetchWord (s : State) (nbits w : Nat) : State := s.placeWord nbits w

end Sys2Proof.Machine
end

