-- ==== Sys2Proof/Safety.lean ====
section
/-! DEFINITION. What counts as a safe run, and the conditions on a state in which claims say that an instruction completes. -/

namespace Sys2Proof.Machine

/-! ### Safe runs -/

/-- Every memory that a core holds is in canonical form: its slot store and the register spaces of its crews. -/
def Core.memoriesWf (c : Core) : Bool :=
  Memory.wf c.slots && Memory.wf c.hasp.window && c.crews.all fun w => Memory.wf w.window

/-- Every memory of the machine is in canonical form, so that equal memories are equal data. -/
def State.memoriesWf (s : State) : Bool :=
  Memory.wf s.mem && Memory.wf s.host && s.cores.all Core.memoriesWf

/-- A run is safe for `n` steps if it neither faults nor is refused within them. -/
def SafeFor (n : Nat) (s : State) : Prop := ∃ t, Sys2Proof.core.run n s = .next t

/-- A run is safe if it is safe for every number of steps. -/
def Safe (s : State) : Prop := ∀ n, SafeFor n s

/-! ### Operands that are ready (R22, R61, R122, R136, R355) -/

/-- An operand can be read now: it lies in the window and is full, and a bound name has an element that its record lets it
read. -/
def State.canRead (s : State) (o : Opnd) : Prop :=
  s.inWindow o = true ∧ s.isFull o = true ∧
    ∀ q, s.me.bound o = some q →
      pastEnd (s.me.stream q).record (s.me.stream q).rd = false ∧ s.mayStream (s.me.stream q).record recR = true

/-- An operand can be written now: it lies in the window and no earlier producer owns it; a bound name is not past its end
and its record lets it write, in a space that is open to it (R386). -/
def State.canWrite (s : State) (o : Opnd) : Prop :=
  s.inWindow o = true ∧
    match s.me.bound o with
    | some q => pastEnd (s.me.stream q).record (s.me.stream q).wr = false ∧ s.mayStream (s.me.stream q).record recW = true
    | none => s.isFree o = true

/-- Every source can be read and every destination written, and, where one of them lies in register space, no earlier acquire or
shared-map operation of the strand is outstanding (R163, R302, R305). -/
def State.canIssue (s : State) (srcs dsts : List Opnd) : Prop :=
  (∀ o ∈ srcs, s.canRead o) ∧ (∀ o ∈ dsts, s.canWrite o) ∧ ((srcs ++ dsts).all Opnd.isScalar = true ∨ s.holdsLater s.cur = false)

/-- The strand that runs has a place in its core, and a crew or Hasp strand's record to use. -/
def State.placed (s : State) : Prop := s.cur.pos < 17 ∧ s.ownerOf s.cur ≠ .chain7

/-- The name is bound to no generator. -/
def State.unbound (s : State) (o : Opnd) : Prop := s.me.bound o = none

end Sys2Proof.Machine
end

