-- ==== Sys2Proof/Certificates/Slice0/Obligations.lean ====
section
/-! DEFINITION. The statements for the provers. What they have in common, an instruction's operands, its result and the words it
takes, is said by the shapes of `Sys2Proof.Claims`. -/

namespace Sys2Proof.Claims

open Sys2Proof.Machine

/-! ### Shapes of a result

`s.canIssue srcs dsts` (Safety.lean) says when an instruction executes normally (R22, R61, R122, R136, R355): every source can be
read and every destination written. `popAll` pops the sources that are bound to streams (R136); `putS` is Dest, `laterS` is
Reserve with Deliver after a latency (R61); `retire n` goes on behind n words (R62, R108). What these do is stated as well. -/

/-- The next state of a scalar result through Dest. -/
def done (s : State) (srcs : List Opnd) (d : Reg) (x : Word) (n : Nat) : State := ((s.popAll srcs).putS d x).retire n

/-- The next state of a scalar result that is delivered after `lat` cycles. -/
def late (lat : Nat) (s : State) (srcs : List Opnd) (d : Reg) (x : Word) (n : Nat) : State :=
  ((s.popAll srcs).laterS lat d x).retire n

/-- A next state of the machine. -/
abbrev Next := Host.Outcome State Fault Refusal

/-- d := g(a, b) of two registers; `out` says how the result reaches d. -/
def RegReg (out : State → List Opnd → Reg → Word → Nat → State) (mk : RF → Instr) (g : RF → Word → Word → Word) : Prop :=
  ∀ (f : RF) (s : State), s.canIssue [.s f.a f.ta, .s f.b f.tb] [.s f.d false] →
    exec (mk f) s = .next (out s [.s f.a f.ta, .s f.b f.tb] f.d (g f (s.sval f.a) (s.sval f.b)) 1)

/-- d := g(a, literal), three words. -/
def RegLit (out : State → List Opnd → Reg → Word → Nat → State) (mk : RF → Word → Instr) (g : RF → Word → Word → Word) : Prop :=
  ∀ (f : RF) (y : Word) (s : State), s.canIssue [.s f.a f.ta] [.s f.d false] →
    exec (mk f y) s = .next (out s [.s f.a f.ta] f.d (g f (s.sval f.a) y) 3)

/-- d := g(a, imm9), the immediate read as `ext` says (R35). -/
def RegImm (ext : BitVec 9 → Word) (mk : IForm → Instr) (g : Word → Word → Word) : Prop :=
  ∀ (f : IForm) (s : State), s.canIssue [.s f.a f.ta] [.s f.d false] →
    exec (mk f) s = .next (done s [.s f.a f.ta] f.d (g (s.sval f.a) (ext f.imm)) 1)

/-- d := g(a) of one register. -/
def RegOne (out : State → List Opnd → Reg → Word → Nat → State) (mk : RF → Instr) (g : RF → Word → Word) : Prop :=
  ∀ (f : RF) (s : State), s.canIssue [.s f.a f.ta] [.s f.d false] →
    exec (mk f) s = .next (out s [.s f.a f.ta] f.d (g f (s.sval f.a)) 1)

/-! ### Scalar values (R99) -/

/-- The integer that a pattern stands for: unsigned under .n64, QF 1 (R47). -/
def intOf (q : BitVec 2) (x : Word) : Int := if q = 1 then (x.toNat : Int) else x.toInt

/-- Wrap(x, 64) of R61. -/
def wrapped (x : Int) : Word := BitVec.ofInt 64 x

def sumOf (x y : Word) : Word := wrapped (x.toNat + y.toNat)
def differenceOf (x y : Word) : Word := wrapped (x.toNat - y.toNat)
def productOf (x y : Word) : Word := wrapped (x.toNat * y.toNat)
/-- Bits [127:64] of the exact 128-bit product. -/
def highProductOf (q : BitVec 2) (x y : Word) : Word := (BitVec.ofInt 128 (intOf q x * intOf q y)).extractLsb' 64 64
/-- The quotient rounded toward zero; all ones for a divisor 0. -/
def quotientOf (q : BitVec 2) (x y : Word) : Word := if y = 0 then BitVec.allOnes 64 else wrapped ((intOf q x).tdiv (intOf q y))
/-- x - y * DIV(x, y); x for a divisor 0. -/
def remainderOf (q : BitVec 2) (x y : Word) : Word :=
  if y = 0 then x else wrapped (intOf q x - intOf q y * (intOf q x).tdiv (intOf q y))
/-- Shifts use y[5:0]. -/
def leftOf (x y : Word) : Word := wrapped (x.toNat * 2 ^ (y.toNat % 64))
def rightOf (x y : Word) : Word := wrapped (x.toNat / 2 ^ (y.toNat % 64))
def arithmeticRightOf (x y : Word) : Word := wrapped (x.toInt / 2 ^ (y.toNat % 64))
def lesserOf (q : BitVec 2) (x y : Word) : Word := if intOf q y < intOf q x then y else x
def greaterOf (q : BitVec 2) (x y : Word) : Word := if intOf q x < intOf q y then y else x
/-- The number of leading zero bits: one for each k below 64 with x < 2^k. -/
def leadingZerosOf (x : Word) : Word := BitVec.ofNat 64 ((List.range 64).countP fun k => x.toNat < 2 ^ k)
def onesOf (x : Word) : Word := BitVec.ofNat 64 ((List.range 64).countP fun k => x.getLsbD k)
/-- SExt(x, 8, 16 or 32), QF 0, 1 or 2. -/
def extendedOf (q : BitVec 2) (x : Word) : Word := (x.setWidth (8 * 2 ^ q.toNat)).signExtend 64
/-- MIX, step by step (R102). -/
def mixedOf (x y : Word) : Word :=
  let h1 := productOf x 0x9D3A61F5C28B0E47#64 ^^^ y
  let h2 := h1 ^^^ rightOf h1 31
  let h3 := productOf h2 0x6B1ED4A937F28C53#64
  h3 ^^^ rightOf h3 29

/-- The condition of a scalar compare: U selects unsigned (R34). -/
def condition (op : BitVec 5) (x y : Word) : Bool :=
  let v (z : Word) : Int := if op.getLsbD 4 then (z.toNat : Int) else z.toInt
  match op.toNat % 8 with
  | 0 => x == y
  | 1 => x != y
  | 2 => v x < v y
  | 3 => v x ≤ v y
  | 4 => v y < v x
  | 5 => v y ≤ v x
  | 6 => x &&& y != 0
  | _ => x &&& y == 0

/-- The next state of a compare: a false condition annuls the next k instructions (R92, R103). -/
def compared (s : State) (srcs : List Opnd) (c : Bool) (k : BitVec 2) (n : Nat) : State :=
  (if c then s.popAll srcs else (s.popAll srcs).modMe fun st => { st with annul := k.toNat }).retire n

end Sys2Proof.Claims

open Sys2Proof Sys2Proof.Machine Sys2Proof.Claims

/-! ### Scalar instructions (spec 05 R99-R103) -/

/-- R99, LEN 00. Every two-register form completes with its result in d. -/
def Sys2Proof.Claims.ScalarRegisterResults : Prop :=
  RegReg done .add (fun _ x y => sumOf x y) ∧ RegReg done .sub (fun _ x y => differenceOf x y) ∧
  RegReg done .mul (fun _ x y => productOf x y) ∧ RegReg done .mulh (fun f x y => highProductOf f.qf x y) ∧
  RegReg done .and (fun _ x y => x &&& y) ∧ RegReg done .or (fun _ x y => x ||| y) ∧ RegReg done .xor (fun _ x y => x ^^^ y) ∧
  RegReg done .shl (fun _ x y => leftOf x y) ∧ RegReg done .shr (fun _ x y => rightOf x y) ∧
  RegReg done .sha (fun _ x y => arithmeticRightOf x y) ∧
  RegReg done .min (fun f x y => lesserOf f.qf x y) ∧ RegReg done .max (fun f x y => greaterOf f.qf x y) ∧
  RegReg (late 24) .div (fun f x y => quotientOf f.qf x y) ∧ RegReg (late 24) .rem (fun f x y => remainderOf f.qf x y) ∧
  RegOne done .clz (fun _ x => leadingZerosOf x) ∧ RegOne done .popc (fun _ x => onesOf x) ∧
  RegOne done .sext (fun f x => extendedOf f.qf x)

/-- R99, LEN 10. The literal takes the place of b. -/
def Sys2Proof.Claims.ScalarLiteralResults : Prop :=
  RegLit done .addLiteral (fun _ x y => sumOf x y) ∧ RegLit done .subLiteral (fun _ x y => differenceOf x y) ∧
  RegLit done .mulLiteral (fun _ x y => productOf x y) ∧ RegLit done .mulhLiteral (fun f x y => highProductOf f.qf x y) ∧
  RegLit done .andLiteral (fun _ x y => x &&& y) ∧ RegLit done .orLiteral (fun _ x y => x ||| y) ∧
  RegLit done .xorLiteral (fun _ x y => x ^^^ y) ∧
  RegLit done .shlLiteral (fun _ x y => leftOf x y) ∧ RegLit done .shrLiteral (fun _ x y => rightOf x y) ∧
  RegLit done .shaLiteral (fun _ x y => arithmeticRightOf x y) ∧
  RegLit done .minLiteral (fun f x y => lesserOf f.qf x y) ∧ RegLit done .maxLiteral (fun f x y => greaterOf f.qf x y) ∧
  RegLit (late 24) .divLiteral (fun f x y => quotientOf f.qf x y) ∧
  RegLit (late 24) .remLiteral (fun f x y => remainderOf f.qf x y)

/-- R35, R100. The immediate forms: imm9 is signed for ADD, SUB and MUL, unsigned for the others. -/
def Sys2Proof.Claims.ScalarImmediateResults : Prop :=
  RegImm (·.signExtend 64) .addImmediate sumOf ∧ RegImm (·.signExtend 64) .subImmediate differenceOf ∧
  RegImm (·.signExtend 64) .mulImmediate productOf ∧
  RegImm (·.setWidth 64) .andImmediate (· &&& ·) ∧ RegImm (·.setWidth 64) .orImmediate (· ||| ·) ∧
  RegImm (·.setWidth 64) .xorImmediate (· ^^^ ·) ∧
  RegImm (·.setWidth 64) .shlImmediate leftOf ∧ RegImm (·.setWidth 64) .shrImmediate rightOf ∧
  RegImm (·.setWidth 64) .shaImmediate arithmeticRightOf

/-- R101. MOV, LI, BFX and BFI: BFI takes bits [pos+len-1 : pos] from x and keeps the other bits of d, which it waits for. -/
def Sys2Proof.Claims.MovesAndBitFields : Prop :=
  RegOne done .mov (fun _ x => x) ∧
  (∀ (f : RF) (y : Word) (s : State), s.canIssue [] [.s f.d false] → exec (.li f y) s = .next (done s [] f.d y 3)) ∧
  (∀ (f : RF) (x : Ext) (s : State), s.canIssue [.s f.a f.ta] [.s f.d false] →
    exec (.bfx f x) s = .next (done s [.s f.a f.ta] f.d (wrapped ((s.sval f.a).toNat / 2 ^ x.immA % 2 ^ x.immB)) 3)) ∧
  ∀ (f : RF) (x : Ext) (s : State), s.canIssue [.s f.a f.ta, .s f.d false] [.s f.d false] →
    ∃ v : Word, exec (.bfi f x) s = .next (done s [.s f.a f.ta, .s f.d false] f.d v 3) ∧
      ∀ i, i < 64 → v.getLsbD i =
        if x.immA ≤ i ∧ i < x.immA + x.immB then (s.sval f.a).getLsbD (i - x.immA) else (s.sval f.d).getLsbD i

/-- R102. MIX (major 0x04, minor 0, LEN 00, QF 00) puts the mixing step of its two sources into d; for a fixed x it is a bijection of y, and the
reverse holds for a fixed y; MIX(0, 0) is 0. -/
def Obligations.MixIsABijection : Prop :=
  RegReg done .mix (fun _ x y => mixedOf x y) ∧
  (∀ x : Word, Function.Bijective (mixedOf x)) ∧ (∀ y : Word, Function.Bijective fun x => mixedOf x y) ∧ mixedOf 0 0 = 0 ∧
  (∀ f : RF, (f.qf = 0 → decodeWords [packR 0 4 0 f] = .ok (.mix f)) ∧ (f.qf ≠ 0 → decodeWords [packR 0 4 0 f] = .error .badField)) ∧
  decodeTableWord 32 0x04318E00 = some (.mix ⟨6, 6, 7, false, false, 0⟩)

/-- R34, R103. The three encodings of CMP: a false condition annuls the next k instructions, a true one changes nothing. -/
def Sys2Proof.Claims.ScalarCompares : Prop :=
  (∀ (f : RF) (op : BitVec 5) (s : State), s.canIssue [.s f.a f.ta, .s f.b f.tb] [] →
    exec (.cmp f op) s = .next (compared s [.s f.a f.ta, .s f.b f.tb] (condition op (s.sval f.a) (s.sval f.b)) f.qf 1)) ∧
  (∀ (f : RF) (op : BitVec 5) (y : Word) (s : State), s.canIssue [.s f.a f.ta] [] →
    exec (.cmpLiteral f op y) s = .next (compared s [.s f.a f.ta] (condition op (s.sval f.a) y) f.qf 3)) ∧
  ∀ (f : CIForm) (s : State), s.canIssue [.s f.a f.ta] [] →
    exec (.cmpImmediate f) s = .next (compared s [.s f.a f.ta]
      (condition f.op (s.sval f.a) (if f.op.getLsbD 4 then f.imm.setWidth 64 else f.imm.signExtend 64)) f.sk 1)

/-! ### Scalar floating point (spec 04 R67-R71; 05 R104, R110-R112) -/

namespace Sys2Proof.Claims

open Sys2Proof.Machine

/-- Bits [31:0] of a register, as an FP32 pattern. -/
def lowOf (x : Word) : Nat := x.toNat % 2 ^ 32

/-- d := g(a, b) of the FP32 patterns in two registers, zero-extended; `m` is the mode of QF. -/
def FloatReg (out : State → List Opnd → Reg → Word → Nat → State) (mk : RF → Instr) (g : RMode → Nat → Nat → Nat) : Prop :=
  RegReg out mk fun f x y => BitVec.ofNat 64 (g (RMode.ofQf f.qf) (lowOf x) (lowOf y))

/-- d := g(a) of the FP32 pattern in one register. -/
def FloatOne (out : State → List Opnd → Reg → Word → Nat → State) (mk : RF → Instr) (g : RMode → Nat → Nat) : Prop :=
  RegOne out mk fun f x => BitVec.ofNat 64 (g (RMode.ofQf f.qf) (lowOf x))

/-- Round of an exact sum (R67, R69, R70). -/
def roundedSum (f : Fmt) (m : RMode) (x y : FVal) : Nat := f.addVal m x y

/-- The condition of a float compare (R34, R69): a NaN is unordered, the zeros are equal, and every other pattern ranks as its
sign and magnitude say. -/
def floatCondition (op : BitVec 5) (f : Fmt) (x y : Nat) : Bool :=
  let nan := (f.decode x).isNan || (f.decode y).isNan
  let eq := !nan && (((f.decode x).isZero && (f.decode y).isZero) || f.rank x == f.rank y)
  let lt := !nan && !eq && decide (f.rank x < f.rank y)
  let gt := !nan && !eq && decide (f.rank y < f.rank x)
  match op.toNat % 8 with
  | 0 => eq
  | 1 => !eq
  | 2 => lt
  | 3 => lt || eq
  | 4 => gt
  | 5 => gt || eq
  | 6 => nan
  | _ => !nan

/-- The bit of FCLASS (R111). -/
def classBit (v : FVal) : Nat :=
  match v with
  | .inf true => 0
  | .inf false => 7
  | .nan => 8
  | .fin neg n _ => if n = 0 then (if neg then 3 else 4) else if n < 2 ^ 23 then (if neg then 2 else 5) else if neg then 1 else 6

end Sys2Proof.Claims

/-- R70, R96, R110. The arithmetic of FP32: results come from the exact values, rounded once in the mode of QF. -/
def Sys2Proof.Claims.ScalarFloatResults : Prop :=
  FloatReg done .fadd (fun m x y => roundedSum .f32 m (Fmt.f32.decode x) (Fmt.f32.decode y)) ∧
  FloatReg done .fsub (fun m x y => roundedSum .f32 m (Fmt.f32.decode x) (Fmt.f32.decode y).neg) ∧
  FloatReg done .fmul (fun m x y => Fmt.f32.roundVal m false ((Fmt.f32.decode x).mul (Fmt.f32.decode y))) ∧
  FloatReg (late 16) .fdiv (fun m x y => Fmt.f32.div m x y) ∧
  FloatReg done .fmin (fun _ x y => Fmt.f32.min x y) ∧ FloatReg done .fmax (fun _ x y => Fmt.f32.max x y) ∧
  FloatOne (late 16) .fsqrt (fun m x => Fmt.f32.sqrt m x) ∧
  (∀ (f : RF) (s : State), s.canIssue [.s f.a f.ta, .s f.b f.tb, .s f.d false] [.s f.d false] →
    exec (.fma f) s = .next (done s [.s f.a f.ta, .s f.b f.tb, .s f.d false] f.d
      (BitVec.ofNat 64 (roundedSum .f32 (RMode.ofQf f.qf)
        ((Fmt.f32.decode (lowOf (s.sval f.a))).mul (Fmt.f32.decode (lowOf (s.sval f.b)))) (Fmt.f32.decode (lowOf (s.sval f.d))))) 1)) ∧
  FloatOne (late 12) .fexp2 (fun _ x => exp2Bits x) ∧ FloatOne (late 12) .flog2 (fun _ x => log2Bits x) ∧
  FloatOne (late 12) .frcp (fun _ x => rcpBits x) ∧ FloatOne (late 12) .frsq (fun _ x => rsqrtBits x)

/-- R71, R104, R111. Conversions saturate and give 0 for a NaN; FCLASS sets one bit; FCMP annuls on a false condition. -/
def Sys2Proof.Claims.FloatConversionsAndCompares : Prop :=
  FloatOne done .cvtfi (fun m x => (wrapped (match Fmt.f32.decode x with
    | .nan => 0
    | .inf s => if s then -2 ^ 63 else 2 ^ 63 - 1
    | .fin s n e => max (-2 ^ 63) (min (2 ^ 63 - 1) ((Exact.mk s n e false).roundInt m)))).toNat) ∧
  FloatOne done .cvtfn (fun m x => (wrapped (match Fmt.f32.decode x with
    | .nan => 0
    | .inf s => if s then 0 else 2 ^ 64 - 1
    | .fin s n e => max 0 (min (2 ^ 64 - 1) ((Exact.mk s n e false).roundInt m)))).toNat) ∧
  RegOne done .cvtif (fun f x => BitVec.ofNat 64 (Fmt.f32.round (RMode.ofQf f.qf) false (Exact.ofInt x.toInt 0))) ∧
  RegOne done .cvtnf (fun f x => BitVec.ofNat 64 (Fmt.f32.round (RMode.ofQf f.qf) false (Exact.ofInt x.toNat 0))) ∧
  RegOne done .fclass (fun _ x => 1#64 <<< classBit (Fmt.f32.decode (lowOf x))) ∧
  ∀ (f : RF) (op : BitVec 5) (s : State), s.canIssue [.s f.a f.ta, .s f.b f.tb] [] →
    exec (.fcmp f op) s = .next (compared s [.s f.a f.ta, .s f.b f.tb]
      (floatCondition op .f32 (lowOf (s.sval f.a)) (lowOf (s.sval f.b))) f.qf 1)

/-- R64, R69, R70. The special values of the arithmetic, for every format and mode: NaN in, canonical NaN out; Inf - Inf and
0 * Inf are NaN; signs of zeros and quotients; the root of -0. -/
def Sys2Proof.Claims.FloatSpecialValues : Prop :=
  ∀ (f : Fmt) (m : RMode) (a b : Nat),
    ((f.decode a).isNan = true → f.add m a b = f.nan ∧ f.sub m a b = f.nan ∧ f.mul m a b = f.nan ∧ f.div m a b = f.nan ∧
      f.sqrt m a = f.nan) ∧
    ((f.decode b).isNan = true → f.add m a b = f.nan ∧ f.sub m a b = f.nan ∧ f.mul m a b = f.nan ∧ f.div m a b = f.nan) ∧
    (∀ s t, f.decode a = .inf s → f.decode b = .inf t →
      f.add m a b = (if s = t then f.infOf s else f.nan) ∧ f.sub m a b = (if s = t then f.nan else f.infOf s) ∧
      f.mul m a b = f.infOf (s != t) ∧ f.div m a b = f.nan) ∧
    (∀ s t e, f.decode a = .inf s → f.decode b = .fin t 0 e → f.mul m a b = f.nan ∧ f.mul m b a = f.nan) ∧
    (∀ s e t e', f.decode a = .fin s 0 e → f.decode b = .fin t 0 e' →
      f.add m a b = f.signed (if s = t then s else m == .rd) 0 ∧ f.mul m a b = f.signed (s != t) 0 ∧
      f.div m a b = f.nan ∧ f.sqrt m a = f.signed s 0) ∧
    (∀ s n e t e', n ≠ 0 → f.decode a = .fin s n e → f.decode b = .fin t 0 e' → f.div m a b = f.infOf (s != t)) ∧
    (∀ n e, n ≠ 0 → f.decode a = .fin true n e → f.sqrt m a = f.nan) ∧
    (∀ n e k e', n ≠ 0 → f.decode a = .fin false n e → f.decode b = .fin true k e' →
      scaledTo (min e e') false n e = scaledTo (min e e') false k e' → f.add m a b = f.signed (m == .rd) 0)

/-- R67. A finite value of a format rounds to its own pattern in every mode, and its negation to the pattern of opposite
sign. -/
def Sys2Proof.Claims.RepresentableRoundsToItself : Prop :=
  ∀ (f : Fmt) (m : RMode) (sat : Bool) (p : Nat) (s : Bool) (n : Nat) (e : Int), p < 2 ^ f.width → f.decode p = .fin s n e →
    f.roundVal m sat (.fin s n e) = p ∧ f.roundVal m sat (.fin (!s) n e) = (p + f.sign) % 2 ^ f.width

/-- R67, R68. Round toward zero gives the largest candidate no greater in magnitude: what the result stands for lies at or
below |x|, and the next pattern above it, if it is finite, lies above |x|. -/
def Sys2Proof.Claims.RoundTowardZeroIsTight : Prop :=
  ∀ (f : Fmt) (n : Nat) (e : Int) (p : Nat), n ≠ 0 → p = f.round .rz false ⟨false, n, e, false⟩ →
    p ≤ f.maxPat ∧
    ∃ k ke, f.decode p = .fin false k ke ∧ scaledTo (min e ke) false k ke ≤ scaledTo (min e ke) false n e ∧
      (p < f.maxPat → ∃ k' ke', f.decode (p + 1) = .fin false k' ke' ∧
        scaledTo (min e ke') false n e < scaledTo (min e ke') false k' ke')

namespace Sys2Proof.Claims

open Sys2Proof.Machine

/-- Candidate i of R67 in rising order of magnitude, those above the largest finite value included: i is also its pattern. -/
def candidateOf (f : Fmt) (i : Nat) : Nat × Int :=
  if i < 2 ^ f.frac then (i, 1 - (f.bias : Int) - f.frac) else (2 ^ f.frac + i % 2 ^ f.frac, (i / 2 ^ f.frac : Nat) - (f.bias : Int) - f.frac)

/-- The candidate that a mode picks for a value of magnitude x from its neighbours: candidate l, of magnitude a ≤ x, and candidate l + 1, of
magnitude b > x (R67 step 3). -/
def pickOf (m : RMode) (neg : Bool) (l : Nat) (a b x : Int) : Nat :=
  if a = x then l
  else match m with
    | .rz => l
    | .ru => if neg then l else l + 1
    | .rd => if neg then l + 1 else l
    | .rne => if x - a < b - x then l else if b - x < x - a then l + 1 else if l % 2 = 0 then l else l + 1

/-- The overflow result of R68. -/
def overflowOf (f : Fmt) (m : RMode) (sat neg : Bool) : Nat :=
  if sat = true ∨ m = .rz ∨ (m = .ru ∧ neg = true) ∨ (m = .rd ∧ neg = false) then f.signed neg f.maxPat
  else if f = .e4m3 then 0x7F else f.signed neg f.inf

end Sys2Proof.Claims

/-- R67, R68. In every format and mode a nonzero value lies at one candidate or between two neighbours, of which the mode picks: the nearest, the even
one of two equally near, the nearest of no greater magnitude, the least not below or the greatest not above; beyond the largest finite value the
result is the overflow result. Under .sat an infinity gives the largest finite value. -/
def Sys2Proof.Claims.RoundingPicksTheCandidate : Prop :=
  (∀ (f : Fmt) (m : RMode) (sat neg : Bool) (n : Nat) (e : Int), n ≠ 0 →
    let u := min e (1 - (f.bias : Int) - f.frac)
    let size (i : Nat) := scaledTo u false (candidateOf f i).1 (candidateOf f i).2
    let x := scaledTo u false n e
    ∃ l, size l ≤ x ∧ x < size (l + 1) ∧
      f.roundVal m sat (.fin neg n e) =
        if f.maxPat < pickOf m neg l (size l) (size (l + 1)) x then overflowOf f m sat neg
        else f.signed neg (pickOf m neg l (size l) (size (l + 1)) x)) ∧
  ∀ (f : Fmt) (m : RMode) (s : Bool),
    f.roundVal m true (.inf s) = f.signed s f.maxPat ∧ f.roundVal m false (.inf s) = (if f = .e4m3 then 0x7F else f.signed s f.inf)

/-! ### Issue, control flow, traps and the return from one (spec 03 R45, R61, R62; 05 R88, R92, R95, R105-R109; 21 R349-R353) -/

namespace Sys2Proof.Claims

open Sys2Proof.Machine

/-- All that a strand's own action leaves alone: every memory, every other strand, every crew's record and every event to come. -/
structure OnlyMe (s t : State) : Prop where
  strands : ∀ sid, sid ≠ s.cur → t.strand sid = s.strand sid
  crews : ∀ c o, t.owned c o = s.owned c o
  mem : ∀ a, t.mem.read a = s.mem.read a
  host : ∀ a, t.host.read a = s.host.read a
  slots : ∀ c a, (t.core c).slots.read a = (s.core c).slots.read a
  empty : ∀ c, (t.core c).empty = (s.core c).empty
  keys : ∀ c, (t.core c).keys = (s.core c).keys
  acs : ∀ c, (t.core c).acs = (s.core c).acs
  pending : t.pending = s.pending
  reqs : t.reqs = s.reqs
  jobs : t.jobs = s.jobs
  dies : t.dies = s.dies
  cur : t.cur = s.cur
  cycle : t.cycle = s.cycle

/-- Another strand after an instruction that issued: as it was, but that the owner of the turn, if it is another crew's strand, has lent the
turn (R88, R114). -/
def turnCounted (s : State) (sid : SId) : Strand :=
  if sid.core = s.cur.core ∧ sid.pos < 17 ∧ sid.pos ≠ s.cur.pos ∧ s.myCore.turnOf = some sid.pos ∧ (s.myCore.crewAt sid.pos).isSome = true then
    { s.strand sid with lent := (s.strand sid).lent + 1 }
  else s.strand sid

/-- All that an instruction that issues leaves alone besides the LENT of the turn's owner. -/
structure AfterIssue (s t : State) : Prop where
  strands : ∀ sid, sid ≠ s.cur → t.strand sid = turnCounted s sid
  crews : ∀ c o, t.owned c o = s.owned c o
  mem : ∀ a, t.mem.read a = s.mem.read a
  host : ∀ a, t.host.read a = s.host.read a
  slots : ∀ c a, (t.core c).slots.read a = (s.core c).slots.read a
  empty : ∀ c, (t.core c).empty = (s.core c).empty
  keys : ∀ c, (t.core c).keys = (s.core c).keys
  acs : ∀ c, (t.core c).acs = (s.core c).acs
  pending : t.pending = s.pending
  reqs : t.reqs = s.reqs
  jobs : t.jobs = s.jobs
  dies : t.dies = s.dies
  cur : t.cur = s.cur
  cycle : t.cycle = s.cycle

/-- The strand waits inside its instruction, which has done nothing yet: its wait is noted, the turn goes to the next candidate, and a turn that nobody
takes is counted as lent (R22, R88). -/
structure WaitsInside (w : Wait) (s t : State) : Prop where
  me : ∃ n, t.strand s.cur = { s.me with wait := some w, lent := n }
  strands : ∀ sid, sid ≠ s.cur → ∃ n, t.strand sid = { s.strand sid with lent := n }
  crews : ∀ c o, t.owned c o = s.owned c o
  mem : ∀ a, t.mem.read a = s.mem.read a
  host : ∀ a, t.host.read a = s.host.read a
  slots : ∀ c a, (t.core c).slots.read a = (s.core c).slots.read a
  empty : ∀ c, (t.core c).empty = (s.core c).empty
  keys : ∀ c, (t.core c).keys = (s.core c).keys
  pending : t.pending = s.pending
  reqs : t.reqs = s.reqs

/-- The loops left and the address after the loop-back test at an address (R108): every innermost loop that ends there and is in
its last pass is popped; one with passes left starts again. -/
def loopedBack : List Loop → Word → List Loop × Word
  | [], a => ([], a)
  | l :: ls, a =>
    if a ≠ l.stop then (l :: ls, a)
    else if l.count.toNat ≤ 1 then loopedBack ls a else (⟨l.count - 1, l.start, l.stop⟩ :: ls, l.start)

end Sys2Proof.Claims

/-- R45, R61. Dest writes an unbound scalar and sets it full; s0 discards the value; nothing else of the strand or the machine
changes. -/
def Sys2Proof.Claims.DestWritesOneRegister : Prop :=
  ∀ (s : State) (d : Reg) (x : Word), s.cur.pos < 17 → s.unbound (.s d false) →
    ((s.putS d x).me.get d = if d = 0 then 0 else x) ∧ (s.putS d x).me.isFull d = true ∧
    (∀ r, r ≠ d → (s.putS d x).me.get r = s.me.get r ∧ (s.putS d x).me.isFull r = s.me.isFull r) ∧
    (s.putS d x).me = { s.me with s := (s.putS d x).me.s, full := (s.putS d x).me.full } ∧ OnlyMe s (s.putS d x)

/-- R61. Reserve empties an unbound scalar until its delivery, which is posted for `lat` cycles later and writes d and sets it
full; registers that are read meanwhile keep their values. -/
def Sys2Proof.Claims.ReserveThenDeliver : Prop :=
  ∀ (s : State) (d : Reg) (x : Word) (lat : Nat), s.cur.pos < 17 → s.unbound (.s d false) →
    (∀ r, (s.laterS lat d x).me.isFull r = (s.me.isFull r && (r != d || d == 0))) ∧
    (∀ r, (s.laterS lat d x).me.get r = s.me.get r) ∧
    (s.laterS lat d x).pending = s.pending ++ [⟨s.cycle + lat, .deliver (s.scalarDelivery [(d, x)])⟩] ∧
    ∃ t, exec (.deliver (s.scalarDelivery [(d, x)])) (s.laterS lat d x) = .next t ∧
      t.me.get d = (if d = 0 then 0 else x) ∧ t.me.isFull d = true ∧
      (∀ r, r ≠ d → t.me.get r = s.me.get r ∧ t.me.isFull r = s.me.isFull r) ∧
      (∀ a, t.mem.read a = s.mem.read a)

/-- R62, R108, R114. An instruction of n words that is done: ISSUED counts it, the interval of R87 starts, the strand goes on
at Next after the loop-back test, and nothing else changes, but that an owner whose turn it was has lent it. -/
def Sys2Proof.Claims.RetireGoesOnAtNext : Prop :=
  ∀ (s : State) (n : Nat), s.cur.pos < 17 →
    (s.retire n).me = { s.me with
      issued := s.me.issued + 1, last := some s.cycle, wait := none
      loops := (loopedBack s.me.loops (s.me.pc + BitVec.ofNat 64 (4 * n))).1
      pc := (loopedBack s.me.loops (s.me.pc + BitVec.ofNat 64 (4 * n))).2 } ∧
    AfterIssue s (s.retire n) ∧ (s.retire n).sel = false

/-- R108. A transfer of control: the issue counts, the PC is the target, and no loop is touched. -/
def Sys2Proof.Claims.JumpTransfersControl : Prop :=
  ∀ (s : State) (target : Word), s.cur.pos < 17 →
    (s.jump target).me = { s.me with issued := s.me.issued + 1, last := some s.cycle, wait := none, pc := target } ∧
    AfterIssue s (s.jump target) ∧ (s.jump target).sel = false

/-- R105, R106. Branches: B and BL go to PC + 4 * SExt(off22); BR, BLR and RET to a register whose low two bits are 00, and trap
otherwise (Misaligned Target); the linking forms put Next into lk (s30) when it is free. -/
def Sys2Proof.Claims.BranchesReachTheirTargets : Prop :=
  (∀ (off : BitVec 22) (s : State), exec (.b off) s = .next (s.jump (s.me.pc + wrapped (4 * off.toInt)))) ∧
  (∀ (off : BitVec 22) (s : State), s.canIssue [] [.s 30 false] →
    exec (.bl off) s = .next ((s.putS 30 (s.me.pc + 4)).jump (s.me.pc + wrapped (4 * off.toInt)))) ∧
  (∀ (f : RF) (s : State), s.canIssue [.s f.a f.ta] [] →
    exec (.br f) s = .next (if (s.sval f.a).toNat % 4 = 0 then (s.popAll [.s f.a f.ta]).jump (s.sval f.a)
      else s.trapAt 0x05 0 s.me.pc)) ∧
  (∀ (f : RF) (s : State), s.canIssue [.s f.a f.ta] [.s 30 false] →
    exec (.blr f) s = .next (if (s.sval f.a).toNat % 4 = 0 then
        ((s.popAll [.s f.a f.ta]).putS 30 (s.me.pc + 4)).jump (s.sval f.a)
      else s.trapAt 0x05 0 s.me.pc)) ∧
  ∀ (s : State), s.canIssue [.s 30 false] [] →
    exec .ret s = .next (if (s.sval 30).toNat % 4 = 0 then (s.popAll [.s 30 false]).jump (s.sval 30) else s.trapAt 0x05 0 s.me.pc)

/-- R107. LOOP pushes (n, Next, LE) below depth 2 and enters the body, traps at depth 2, and for n = 0 goes on at LE with
the loop-back test. -/
def Sys2Proof.Claims.HardwareLoops : Prop :=
  (∀ (f : RF) (x : Ext) (s : State), s.canIssue [.s f.a f.ta] [] →
    exec (.loop f x) s = .next (
      let next := s.me.pc + 12
      let stop := next + BitVec.ofNat 64 (4 * x.immA)
      if s.sval f.a = 0 then
        (s.popAll [.s f.a f.ta]).countIssue.modMe fun st =>
          { st with loops := (loopedBack st.loops stop).1, pc := (loopedBack st.loops stop).2 }
      else if s.me.loops.length < 2 then
        ((s.popAll [.s f.a f.ta]).modMe fun st => { st with loops := ⟨s.sval f.a, next, stop⟩ :: st.loops }).jump next
      else s.trapAt 0x09 0 s.me.pc))

/-- R350, R351. Handler entry for an exact trap outside a handler: TRAP_PC takes the resume address, TRAP_CAUSE the code with
PMODE, NEST and SKIP, TRAP_INFO the information; annulments and loops are set aside, the mode is privileged, the PC is
HANDLER_ENTRY of the core; nothing else changes, but that an owner whose turn it was has lent it. -/
def Sys2Proof.Claims.TrapEntersHandler : Prop :=
  ∀ (s : State) (code : Nat) (info resume : Word), s.cur.pos < 17 → code < 256 → s.me.annul < 4 → s.me.trapCause.getLsbD 61 = false →
    AfterIssue s (s.trapAt code info resume) ∧
    (s.trapAt code info resume).me = { s.me with
      issued := s.me.issued + 1, last := some s.cycle, wait := none, spin := none
      trapPc := resume, trapInfo := info
      trapCause := BitVec.ofNat 64 (code + s.me.annul * 2 ^ 58 + 2 ^ 61 + (if s.me.priv then 2 ^ 62 else 0))
      annul := 0, aside := s.me.loops, loops := [], priv := true, pc := (s.core s.cur.core).handlerEntry }

/-- R49 orders 1 and 2, R50, R352, R390. What traps by its own effect: TRAP #n resumes at Next with the number as information;
the zero word is a trap at itself; BREAK is taken where debug is enabled for the job, and is an illegal instruction elsewhere. -/
def Sys2Proof.Claims.InstructionsThatTrap : Prop :=
  (∀ (f : RF) (x : Ext) (s : State),
    exec (.trap f x) s = .next (s.trapAt 0x07 (BitVec.ofNat 64 x.immA) (s.me.pc + 12))) ∧
  (∀ s : State, exec .zeroWord s = .next (s.trapAt 0x01 0 s.me.pc)) ∧
  (∀ (s : State) (j : Job), s.job? (s.pidOf s.cur) = some j →
    (s.bar.dbg = 2 ∨ (s.bar.dbg = 1 ∧ j.dbg = true)) → exec .breakWord s = .next (s.trapAt 0x06 0 (s.me.pc + 4))) ∧
  ∀ s : State, (∀ j, s.job? (s.pidOf s.cur) = some j → s.bar.dbg ≠ 2 ∧ ¬(s.bar.dbg = 1 ∧ j.dbg = true)) →
    exec .breakWord s = .next (s.trapAt 0x02 0 s.me.pc)

/-- R61 Priv, R352. RETURN in privileged mode restores mode, PC, annulments and loops and clears NEST; in user mode RETURN and
HALT are Privileged Instruction traps (cause 0x04, R354). -/
def Sys2Proof.Claims.ReturnRestoresWhatEntrySaved : Prop :=
  (∀ s : State, s.cur.pos < 17 → s.me.priv = true →
    ∃ t, exec .returnOp s = .next t ∧ AfterIssue s t ∧
      t.me = { s.me with
        issued := s.me.issued + 1, last := some s.cycle, wait := none
        priv := s.me.trapCause.getLsbD 62, pc := s.me.trapPc, annul := (s.me.trapCause.toNat / 2 ^ 58) % 4
        loops := s.me.aside, aside := [], trapCause := s.me.trapCause &&& ~~~(1#64 <<< 61) }) ∧
  ∀ s : State, s.me.priv = false →
    exec .returnOp s = .next (s.trapAt 0x04 0 s.me.pc) ∧ exec .halt s = .next (s.trapAt 0x04 0 s.me.pc)

/-- R349, R350. RETURN after an entry gives the strand back as it was, but for the issues that counted, the trap registers, and
the PC, which is the resume address. -/
def Sys2Proof.Claims.EntryThenReturnIsIdentity : Prop :=
  ∀ (st : Strand) (entry resume info : Word) (late engine : Bool) (merged reg code : Nat), st.annul < 4 → st.aside = [] →
    st.wait = none → st.spin = none →
    (st.enterHandler entry resume info late engine merged reg code).leaveHandler =
      { st with
        pc := resume, trapPc := resume, trapInfo := info
        trapCause := (st.enterHandler entry resume info late engine merged reg code).trapCause &&& ~~~(1#64 <<< 61) }

/-- R349, R350, R61. A late fault that is due is taken in the place of the strand's next issue: with no wait to abandon the
handler is entered for the oldest one, which leaves the queue; the resume address is where the strand would have gone on. -/
def Sys2Proof.Claims.LateFaultEntersHandler : Prop :=
  ∀ (s : State) (sid : SId) (f : LateFault) (rest : List LateFault), sid.pos < 17 → (s.strand sid).late = f :: rest →
    (s.strand sid).trapCause.getLsbD 61 = false → (s.strand sid).wait = none →
    ∃ t, exec (.handlerEntry sid) s = .next t ∧ (∀ a, t.mem.read a = s.mem.read a) ∧
      (t.strand sid).late = rest ∧ (t.strand sid).trapPc = (s.strand sid).pc ∧ (t.strand sid).trapInfo = f.info ∧
      (t.strand sid).pc = (s.core sid.core).handlerEntry ∧ (t.strand sid).priv = true ∧
      (t.strand sid).trapCause.getLsbD 63 = true ∧ (t.strand sid).trapCause.toNat % 256 = f.code % 256 ∧
      (t.strand sid).issued = (s.strand sid).issued ∧ (t.strand sid).last = (s.strand sid).last

/-- R353. An exact trap inside a handler enters no handler: a crew strand's core posts a Double Trap message (kind 2, R359) and
holds the crew; the Hasp strand stops; a supervisor strand halts and raises the Supervisor Fault interrupt. -/
def Sys2Proof.Claims.DoubleTrapStopsTheStrand : Prop :=
  ∀ (s : State) (code : Nat) (info resume : Word), s.cur.pos < 17 → s.me.trapCause.getLsbD 61 = true →
    (256 ≤ s.cur.core → (s.trapAt code info resume).me.halted = true ∧ (s.trapAt code info resume).msix.getLsbD 3 = true) ∧
    (s.cur.core < 256 → s.cur.pos = 16 → ((s.trapAt code info resume).core s.cur.core).haspOn = false ∧
      (s.trapAt code info resume).pending = s.pending) ∧
    (s.cur.core < 256 → s.cur.pos < 16 → s.ownerOf s.cur ≠ .chain7 →
      (s.trapAt code info resume).myCrew.held = true ∧
      ∃ m : MboxMsg, (s.trapAt code info resume).pending = s.pending ++ [⟨s.cycle, .mailboxPost (s.cur.core / 64) m⟩] ∧
        m.d0.toNat % 256 = 2 ∧ m.d0.toNat / 2 ^ 8 % 256 = code % 256 ∧ m.pc = s.me.pc ∧ m.info = info) ∧
    (s.trapAt code info resume).me.pc = s.me.pc ∧ (s.trapAt code info resume).me.trapPc = s.me.trapPc ∧
    (s.trapAt code info resume).me.trapCause = s.me.trapCause

/-- R95. YIELD (0x3A00_0002) issues like any instruction, changes no register and no memory, and makes the strand yielding, which no eligible strand
is, until YIELD_END in the 17th cycle from then, at which it goes on at Next; annulled it does nothing. -/
def Obligations.YieldForSixteenCycles : Prop :=
  (∀ s : State, s.cur.pos < 17 →
    ∃ t, exec .yield s = .next t ∧
      t.me = { s.me with issued := s.me.issued + 1, last := some s.cycle, wait := none, yielding := true } ∧
      t.pending = s.pending ++ [⟨s.cycle + 16, .yieldEnd s.cur⟩] ∧ (∀ sid, sid ≠ s.cur → t.strand sid = turnCounted s sid) ∧
      (∀ c o, t.owned c o = s.owned c o) ∧ (∀ a, t.mem.read a = s.mem.read a) ∧ (∀ a, t.host.read a = s.host.read a) ∧
      (∀ c a, (t.core c).slots.read a = (s.core c).slots.read a) ∧
      ∃ u, exec (.yieldEnd s.cur) t = .next u ∧ OnlyMe t u ∧
        u.me = { t.me with
          yielding := false, loops := (loopedBack s.me.loops (s.me.pc + 4)).1, pc := (loopedBack s.me.loops (s.me.pc + 4)).2 }) ∧
  (∀ (s : State) (sid : SId), (s.strand sid).yielding = true → s.eligible sid = false) ∧
  (∀ s : State, s.cur.pos < 17 → ((s.annulOne 1).strand s.cur).yielding = s.me.yielding ∧ (s.annulOne 1).pending = s.pending ∧
    (∀ r, ((s.annulOne 1).strand s.cur).get r = s.me.get r) ∧ ∀ a, (s.annulOne 1).mem.read a = s.mem.read a) ∧
  ∀ ws : List W32, decodeWords ws = .ok .yield ↔ ws.head? = some 0x3A000002#32

/-- R109. LBRK (major 0x0B, minor 4, LEN 00, every other field 0) goes on at the innermost loop's end with that loop popped, where the loop-back test of
R108 applies to the loops around it; with no active loop it traps (No Loop). -/
def Obligations.LbrkLeavesTheInnermostLoop : Prop :=
  (∀ (s : State),
    exec .lbrk s = .next (match s.me.loops with
      | [] => s.trapAt 0x0A 0 s.me.pc
      | l :: ls => s.countIssue.modMe fun st => { st with loops := (loopedBack ls l.stop).1, pc := (loopedBack ls l.stop).2 })) ∧
  ∀ ws : List W32, decodeWords ws = .ok .lbrk ↔ ws.head? = some 0x0B000004#32

/-! ### Vector lanes, masks and exact windows (spec 12 R242-R260) -/

namespace Sys2Proof.Claims

open Sys2Proof.Machine

/-- Packed element j of lane l (R66). -/
def elementAt (w : Nat) (lanes : List W32) (l j : Nat) : Nat := (lanes.getD l 0).toNat / 2 ^ (w * j) % 2 ^ w

/-- The 128 lanes whose packed elements are given (R66). -/
def lanesBy (w : Nat) (g : Nat → Nat → Nat) : List W32 :=
  (List.range 128).map fun l => BitVec.ofNat 32 (((List.range (32 / w)).map fun j => g l j % 2 ^ w * 2 ^ (w * j)).sum)

/-- The element type of a form: TYPE, or the class of QF (R244). -/
def typeNamed (f : RF) (x : Option Ext) : Nat :=
  let byQf := if f.qf = 0 then 12 else if f.qf = 1 then 11 else if f.qf = 2 then 3 else 7
  match x with
  | none => byQf
  | some x => if x.type = 0 then byQf else x.type.toNat

/-- Width of an element type in bits. -/
def widthOf (t : Nat) : Nat := 8 * typeSize t

/-- The format of a float type. -/
def formatOf (t : Nat) : Fmt := if t = 11 then .bf16 else .f32

/-- The write mask of a form, and the lanes that it enables (R242). -/
def lanesEnabled (s : State) (x : Option Ext) : List Bool :=
  let k := match x with | none => 0 | some x => x.mask.toNat
  (List.range 128).map fun l => k == 0 || (s.me.masks[k]?.getD 0).getLsbD l

/-- The second operand: vector b, or the scalar c0 where XM is 01 (R244). -/
def secondOperand (f : RF) (x : Option Ext) : Opnd :=
  match x with
  | none => .v f.b f.tb
  | some x => if x.xm = 1 then .s x.c0 false else .v f.b f.tb

/-- Element j of lane l of the second operand: a scalar's low bits stand in every element (R244). -/
def secondElement (s : State) (f : RF) (x : Option Ext) (w l j : Nat) : Nat :=
  match x with
  | none => elementAt w (s.vlanes f.b) l j
  | some x => if x.xm = 1 then (s.sval x.c0).toNat % 2 ^ w else elementAt w (s.vlanes f.b) l j

/-- Words of a form. -/
def wordsOf (x : Option Ext) : Nat := match x with | none => 1 | some _ => 3

/-- An instruction and the same with an extension, as one function of the extension. -/
def either (mk : RF → Instr) (mkExt : RF → Ext → Instr) (f : RF) (x : Option Ext) : Instr :=
  match x with | none => mk f | some x => mkExt f x

/-- The next state of a vector result: the enabled lanes of d are written, at once or after `lat` cycles (R243, R245). -/
def vectorDone (lat : Nat) (s : State) (srcs : List Opnd) (d : Reg) (lanes : List W32) (on : List Bool) (n : Nat) : State :=
  ((s.popAll srcs).writeV lat d lanes on).retire n

/-- d := g(a, y), element by element, in the types of `width`. -/
def VBin (lat : Nat) (mk : RF → Instr) (mkExt : RF → Ext → Instr) (width : Nat → Nat) (g : Nat → Nat → Nat → Nat) : Prop :=
  ∀ (f : RF) (x : Option Ext) (s : State), width (typeNamed f x) ∈ [8, 16, 32] →
    s.canIssue [.v f.a f.ta, secondOperand f x] [.v f.d false] →
    exec (either mk mkExt f x) s = .next (vectorDone lat s [.v f.a f.ta, secondOperand f x] f.d
      (lanesBy (width (typeNamed f x)) fun l j =>
        g (typeNamed f x) (elementAt (width (typeNamed f x)) (s.vlanes f.a) l j) (secondElement s f x (width (typeNamed f x)) l j))
      (lanesEnabled s x) (wordsOf x))

/-- d := g(a), element by element; `type` says which type the form has. -/
def VUn (lat : Nat) (type : RF → Option Ext → Nat) (mk : RF → Instr) (mkExt : RF → Ext → Instr) (g : Nat → Nat → Nat) : Prop :=
  ∀ (f : RF) (x : Option Ext) (s : State), widthOf (type f x) ∈ [8, 16, 32] → s.canIssue [.v f.a f.ta] [.v f.d false] →
    exec (either mk mkExt f x) s = .next (vectorDone lat s [.v f.a f.ta] f.d
      (lanesBy (widthOf (type f x)) fun l j => g (type f x) (elementAt (widthOf (type f x)) (s.vlanes f.a) l j))
      (lanesEnabled s x) (wordsOf x))

/-- The integer that an element stands for: two's complement in a signed type. -/
def elementInt (t p : Nat) : Int := if typeSigned t then (BitVec.ofNat (widthOf t) p).toInt else p

/-- Floats by `fl`, integers by `int`, wrapped to the element's width. -/
def elementwise (fl : Fmt → Nat → Nat → Nat) (int : Int → Int → Int) (t x y : Nat) : Nat :=
  if t = 11 ∨ t = 12 then fl (formatOf t) x y else (int (elementInt t x) (elementInt t y) % 2 ^ widthOf t).toNat

/-- The condition of VCMP on two elements (R34, R248): floats as FCMP, integers signed or unsigned by their type. -/
def elementCondition (op : BitVec 5) (t x y : Nat) : Bool :=
  if t = 11 ∨ t = 12 then floatCondition op (formatOf t) x y
  else match op.toNat with
    | 0 => x == y
    | 1 => x != y
    | 2 => elementInt t x < elementInt t y
    | 3 => elementInt t x ≤ elementInt t y
    | 4 => elementInt t y < elementInt t x
    | 5 => elementInt t y ≤ elementInt t x
    | 6 => x &&& y != 0
    | _ => x &&& y == 0

/-- The type of majors 0x15, 0x1A and 0x1B: .bf16, or .f32 (R244). -/
def floatNamed (_ : RF) (x : Option Ext) : Nat := match x with | none => 12 | some x => if x.type = 11 then 11 else 12

/-- A function on FP32 patterns, applied to BF16 through its FP32 value and rounded once more (R80). -/
def published (g : Nat → Nat) (t : Nat) : Nat → Nat := if t = 11 then viaF32 g else g

end Sys2Proof.Claims

/-- R70, R244-R246. Major 0x10 in every type, vector-vector and vector-scalar, with and without an extension: floats are rounded
once under .rne, integers wrap, shifts use the low bits of y. -/
def Sys2Proof.Claims.VectorArithmetic : Prop :=
  VBin 0 .vadd .vaddExt widthOf (elementwise (fun m x y => roundedSum m .rne (m.decode x) (m.decode y)) (· + ·)) ∧
  VBin 0 .vsub .vsubExt widthOf (elementwise (fun m x y => roundedSum m .rne (m.decode x) (m.decode y).neg) (· - ·)) ∧
  VBin 0 .vmul .vmulExt widthOf (elementwise (fun m x y => m.roundVal .rne false ((m.decode x).mul (m.decode y))) (· * ·)) ∧
  VBin 0 .vmin .vminExt widthOf (elementwise (fun m x y => m.min x y) min) ∧
  VBin 0 .vmax .vmaxExt widthOf (elementwise (fun m x y => m.max x y) max) ∧
  VBin 0 .vand .vandExt (fun t => min 32 (widthOf t)) (fun _ x y => x &&& y) ∧
  VBin 0 .vor .vorExt (fun t => min 32 (widthOf t)) (fun _ x y => x ||| y) ∧
  VBin 0 .vxor .vxorExt (fun t => min 32 (widthOf t)) (fun _ x y => x ^^^ y) ∧
  VBin 0 .vshl .vshlExt widthOf (fun t x y => x * 2 ^ (y % widthOf t)) ∧
  VBin 0 .vshr .vshrExt widthOf (fun t x y => x / 2 ^ (y % widthOf t)) ∧
  VBin 0 .vsha .vshaExt widthOf (fun t x y => ((BitVec.ofNat (widthOf t) x).toInt / 2 ^ (y % widthOf t) % 2 ^ widthOf t).toNat) ∧
  VBin 16 .vdiv .vdivExt widthOf (fun t x y => (formatOf t).div .rne x y)

/-- R247. Major 0x11: the fused forms read d and round once, VABS and VNEG clear or flip the sign, VSEL writes every lane and
takes b where the mask does not enable it. -/
def Sys2Proof.Claims.VectorFusedAndUnary : Prop :=
  (∀ (neg : Bool) (f : RF) (x : Option Ext) (s : State), typeNamed f x ∈ [11, 12] →
    s.canIssue [.v f.a f.ta, secondOperand f x, .v f.d false] [.v f.d false] →
    let m := formatOf (typeNamed f x)
    let w := widthOf (typeNamed f x)
    exec (if neg then either .vfms .vfmsExt f x else either .vfma .vfmaExt f x) s =
      .next (vectorDone 0 s [.v f.a f.ta, secondOperand f x, .v f.d false] f.d
        (lanesBy w fun l j =>
          let p := (m.decode (elementAt w (s.vlanes f.a) l j)).mul (m.decode (secondElement s f x w l j))
          roundedSum m .rne (if neg then p.neg else p) (m.decode (elementAt w (s.vlanes f.d) l j)))
        (lanesEnabled s x) (wordsOf x))) ∧
  VUn 0 typeNamed .vabs .vabsExt (fun t x =>
    if t = 11 ∨ t = 12 then (if ((formatOf t).decode x).isNan then (formatOf t).nan else x % (formatOf t).sign)
    else (BitVec.ofNat (widthOf t) x).toInt.natAbs) ∧
  VUn 0 typeNamed .vneg .vnegExt (fun t x =>
    if t = 11 ∨ t = 12 then (if ((formatOf t).decode x).isNan then (formatOf t).nan else x ^^^ (formatOf t).sign)
    else 2 ^ widthOf t - x) ∧
  VUn 16 typeNamed .vsqrt .vsqrtExt (fun t x => (formatOf t).sqrt .rne x) ∧
  ∀ (f : RF) (x : Option Ext) (s : State), min 32 (widthOf (typeNamed f x)) ∈ [8, 16, 32] →
    s.canIssue [.v f.a f.ta, secondOperand f x] [.v f.d false] →
    exec (either .vsel .vselExt f x) s = .next (vectorDone 0 s [.v f.a f.ta, secondOperand f x] f.d
      (lanesBy (min 32 (widthOf (typeNamed f x))) fun l j =>
        if (lanesEnabled s x).getD l false then elementAt (min 32 (widthOf (typeNamed f x))) (s.vlanes f.a) l j
        else secondElement s f x (min 32 (widthOf (typeNamed f x))) l j)
      (List.replicate 128 true) (wordsOf x))

/-- R242, R248, R249. VCMP sets bit l of the mask d where lane l is enabled and the condition holds for its every element, and
clears the rest; the mask instructions compute bit by bit; writes of m0 are discarded; MPOPC counts. -/
def Sys2Proof.Claims.VectorComparesAndMasks : Prop :=
  (∀ (f : RF) (op : BitVec 5) (x : Option Ext) (s : State), op.toNat < 8 → widthOf (typeNamed f x) ∈ [8, 16, 32] →
    s.canIssue [.v f.a f.ta, secondOperand f x] [] →
    ∃ m : BitVec 128,
      exec (match x with | none => .vcmp f op | some x => .vcmpExt f op x) s =
        .next (((s.popAll [.v f.a f.ta, secondOperand f x]).modMe fun st => st.setMask (f.d.toNat % 8) m).retire (wordsOf x)) ∧
      ∀ l, l < 128 → m.getLsbD l = ((lanesEnabled s x).getD l false && (List.range (32 / widthOf (typeNamed f x))).all fun j =>
        elementCondition op (typeNamed f x) (elementAt (widthOf (typeNamed f x)) (s.vlanes f.a) l j)
          (secondElement s f x (widthOf (typeNamed f x)) l j))) ∧
  (∀ (f : RF) (s : State),
    exec (.mand f) s = .next ((s.modMe fun st => st.setMask (f.d.toNat % 8) (st.mask (f.a.toNat % 8) &&& st.mask (f.b.toNat % 8))).retire 1) ∧
    exec (.mor f) s = .next ((s.modMe fun st => st.setMask (f.d.toNat % 8) (st.mask (f.a.toNat % 8) ||| st.mask (f.b.toNat % 8))).retire 1) ∧
    exec (.mxor f) s = .next ((s.modMe fun st => st.setMask (f.d.toNat % 8) (st.mask (f.a.toNat % 8) ^^^ st.mask (f.b.toNat % 8))).retire 1) ∧
    exec (.mnot f) s = .next ((s.modMe fun st => st.setMask (f.d.toNat % 8) (~~~(st.mask (f.a.toNat % 8)))).retire 1)) ∧
  (∀ (f : RF) (s : State), s.canIssue [] [.s f.d false] →
    exec (.mpopc f) s = .next (done s [] f.d (BitVec.ofNat 64 ((List.range 128).countP fun l => (s.me.mask (f.a.toNat % 8)).getLsbD l)) 1)) ∧
  ∀ (st : Strand) (k : Nat) (m : BitVec 128), k < 8 →
    (st.setMask k m).mask k = (if k = 0 then BitVec.allOnes 128 else m) ∧
    ∀ i, i < 8 → i ≠ k → (st.setMask k m).mask i = st.mask i

/-- R48, R71, R250. VCVT at position p, in the enabled lanes: widening conversions read element p, narrowing ones wait for d, write its element p
and keep the others; floats are rounded in the mode of QF, integers saturate or extend. -/
def Sys2Proof.Claims.VectorConversions : Prop :=
  ∀ (f : RF) (op : BitVec 5) (x : Option Ext) (p : Nat) (s : State), op.toNat ≤ 16 →
    let srcs : List Opnd := .v f.a f.ta :: if op.toNat ∈ [0, 2, 3, 4, 5, 12, 13, 14] then [.v f.d false] else []
    s.canIssue srcs [.v f.d false] →
    p = (match x with | none => 0 | some x => x.immA) → (8 ≤ op.toNat ∧ op.toNat ≤ 11 → p = 0) →
    let m := RMode.ofQf f.qf
    let cvt (f : Fmt) (g : Fmt) (sat : Bool) (v : Nat) : Nat := g.roundVal m sat (f.decode v)
    let out (a d : W32) : Nat :=
      let v := a.toNat
      match op.toNat with
      | 0 => putField d.toNat (16 * p) 16 (cvt .f32 .bf16 false v)
      | 1 => cvt .bf16 .f32 false (v / 2 ^ (16 * p) % 2 ^ 16)
      | 2 => putField d.toNat (8 * p) 8 (cvt .f32 .e4m3 false v)
      | 3 => putField d.toNat (8 * p) 8 (cvt .f32 .e4m3 true v)
      | 4 => putField d.toNat (8 * p) 8 (cvt .f32 .e5m2 false v)
      | 5 => putField d.toNat (8 * p) 8 (cvt .f32 .e5m2 true v)
      | 6 => cvt .e4m3 .f32 false (v / 2 ^ (8 * p) % 2 ^ 8)
      | 7 => cvt .e5m2 .f32 false (v / 2 ^ (8 * p) % 2 ^ 8)
      | 8 => (BitVec.ofInt 32 (Fmt.f32.toInt m (-2 ^ 31) (2 ^ 31 - 1) v)).toNat
      | 9 => (BitVec.ofInt 32 (Fmt.f32.toInt m 0 (2 ^ 32 - 1) v)).toNat
      | 10 => Fmt.f32.round m false (Exact.ofInt a.toInt 0)
      | 11 => Fmt.f32.round m false (Exact.ofInt v 0)
      | 12 => putField d.toNat (16 * p) 16 (BitVec.ofInt 16 (max (-32768) (min 32767 a.toInt))).toNat
      | 13 => putField d.toNat (8 * p) 8 (BitVec.ofInt 8 (max (-128) (min 127 a.toInt))).toNat
      | 14 => putField d.toNat (8 * p) 8 (min v 255)
      | 15 => ((BitVec.ofNat 16 (v / 2 ^ (16 * p) % 2 ^ 16)).signExtend 32).toNat
      | _ => ((BitVec.ofNat 8 (v / 2 ^ (8 * p) % 2 ^ 8)).signExtend 32).toNat
    exec (match x with | none => .vcvt f op | some x => .vcvtExt f op x) s = .next (vectorDone 0 s srcs f.d
      ((List.range 128).map fun l => BitVec.ofNat 32 (out ((s.vlanes f.a).getD l 0) ((s.vlanes f.d).getD l 0)))
      (lanesEnabled s x) (wordsOf x))

/-- R80, R251, R252. The published functions element by element after 12 cycles; reductions over the enabled lanes to a scalar
and scans to a vector after 8. -/
def Sys2Proof.Claims.VectorFunctionsAndReductions : Prop :=
  VUn 12 floatNamed .vexp2 .vexp2Ext (published exp2Bits) ∧ VUn 12 floatNamed .vlog2 .vlog2Ext (published log2Bits) ∧
  VUn 12 floatNamed .vrcp .vrcpExt (published rcpBits) ∧ VUn 12 floatNamed .vrsq .vrsqExt (published rsqrtBits) ∧
  VUn 12 floatNamed .vexp .vexpExt (published expBits) ∧
  (∀ (f : RF) (x : Option Ext) (s : State), typeNamed f x ∈ [3, 7, 11, 12] → s.canIssue [.v f.a f.ta] [.s f.d false] →
    let w := widthOf (typeNamed f x)
    let xs := ((List.range 128).filter fun l => (lanesEnabled s x).getD l false).flatMap fun l =>
      (List.range (32 / w)).map fun j => elementAt w (s.vlanes f.a) l j
    exec (either .vrsum .vrsumExt f x) s =
      .next (late 8 s [.v f.a f.ta] f.d (wrapped (sumElems (typeNamed f x) xs)) (wordsOf x)) ∧
    exec (either .vrmax .vrmaxExt f x) s =
      .next (late 8 s [.v f.a f.ta] f.d (wrapped (extreme (typeNamed f x) false xs)) (wordsOf x)) ∧
    exec (either .vrmin .vrminExt f x) s =
      .next (late 8 s [.v f.a f.ta] f.d (wrapped (extreme (typeNamed f x) true xs)) (wordsOf x))) ∧
  ∀ (strict : Bool) (f : RF) (x : Option Ext) (s : State), typeNamed f x ∈ [3, 7, 11, 12] →
    s.canIssue [.v f.a f.ta] [.v f.d false] →
    let w := widthOf (typeNamed f x)
    exec (if strict then either .vscanX .vscanXExt f x else either .vscan .vscanExt f x) s =
      .next (vectorDone 8 s [.v f.a f.ta] f.d
        (lanesBy w fun l j =>
          (sumElems (typeNamed f x) (((List.range (if strict then l else l + 1)).filter fun k => (lanesEnabled s x).getD k false).map fun k =>
            elementAt w (s.vlanes f.a) k j) % 2 ^ w).toNat)
        (lanesEnabled s x) (wordsOf x))

/-- R252. What a reduction gives: the exact integer sum, the greatest and least element, and the value over no element. -/
def Sys2Proof.Claims.ReductionValues : Prop :=
  ∀ xs : List Nat, (∀ p ∈ xs, p < 2 ^ 32) →
    sumElems 7 xs = (xs.sum : Nat) ∧ sumElems 3 xs = (xs.map fun p => (BitVec.ofNat 32 p).toInt).sum ∧
    (xs = [] → sumElems 12 xs = 0 ∧ extreme 12 false xs = 0xFF800000 ∧ extreme 12 true xs = 0x7F800000 ∧
      extreme 7 false xs = 0 ∧ extreme 7 true xs = 0xFFFFFFFF ∧ extreme 3 false xs = -2 ^ 31 ∧ extreme 3 true xs = 2 ^ 31 - 1) ∧
    (xs ≠ [] → (∃ p ∈ xs, extreme 7 false xs = (p : Nat)) ∧ (∃ p ∈ xs, extreme 7 true xs = (p : Nat)) ∧
      (∀ p ∈ xs, (p : Int) ≤ extreme 7 false xs ∧ extreme 7 true xs ≤ p)) ∧
    ∀ p ∈ xs, (BitVec.ofNat 32 p).toInt ≤ extreme 3 false xs ∧ extreme 3 true xs ≤ (BitVec.ofNat 32 p).toInt

/-- R253, R254. Permutes, broadcasts, inserts, extracts, VIOTA and the transpose. -/
def Sys2Proof.Claims.VectorPermutes : Prop :=
  (∀ (f : RF) (s : State), s.canIssue [.v f.a f.ta, .v f.b f.tb] [.v f.d false] →
    exec (.vperm f) s = .next (vectorDone 0 s [.v f.a f.ta, .v f.b f.tb] f.d
      ((List.range 128).map fun l => (s.vlanes f.a).getD (((s.vlanes f.b).getD l 0).toNat % 128) 0) (List.replicate 128 true) 1)) ∧
  (∀ (f : RF) (x : Ext) (s : State), s.canIssue [.v f.a f.ta] [.v f.d false] →
    exec (.vpermRotate f x) s = .next (vectorDone 0 s [.v f.a f.ta] f.d
      ((List.range 128).map fun l => (s.vlanes f.a).getD ((l + x.immA) % 128) 0) (lanesEnabled s (some x)) 3)) ∧
  (∀ (f : RF) (x : Option Ext) (s : State), s.canIssue [.s f.a f.ta] [.v f.d false] →
    exec (either .vbcast .vbcastExt f x) s = .next (vectorDone 0 s [.s f.a f.ta] f.d
      ((List.range 128).map fun _ => BitVec.ofNat 32 (s.sval f.a).toNat) (lanesEnabled s x) (wordsOf x)) ∧
    exec (either .viota .viotaExt f x) s = .next (vectorDone 0 s [.s f.a f.ta] f.d
      ((List.range 128).map fun l => BitVec.ofNat 32 ((s.sval f.a).toNat + l)) (lanesEnabled s x) (wordsOf x))) ∧
  (∀ (f : RF) (s : State), s.canIssue [.s f.a f.ta, .s f.b f.tb, .v f.d false] [.v f.d false] →
    exec (.vins f) s = .next (if 128 ≤ (s.sval f.b).toNat then s.trapAt 0x34 0 s.me.pc
      else vectorDone 0 s [.s f.a f.ta, .s f.b f.tb, .v f.d false] f.d (List.replicate 128 (BitVec.ofNat 32 (s.sval f.a).toNat))
        ((List.range 128).map fun l => l == (s.sval f.b).toNat) 1)) ∧
  (∀ (f : RF) (x : Ext) (s : State), s.canIssue [.s f.a f.ta, .v f.d false] [.v f.d false] →
    exec (.vinsImmediate f x) s = .next (vectorDone 0 s [.s f.a f.ta, .v f.d false] f.d
      (List.replicate 128 (BitVec.ofNat 32 (s.sval f.a).toNat)) ((List.range 128).map fun l => l == x.immA) 3)) ∧
  (∀ (f : RF) (x : Option Ext) (s : State), s.canIssue [.v f.b f.tb] [.s f.d false, .s f.a false] →
    let first := match x with | none => 0 | some x => x.immA
    let lane := ((List.range 128).find? fun l => first ≤ l && (lanesEnabled s x).getD l false)
    exec (either .vext .vextImmediate f x) s = .next
      ((((s.popAll [.v f.b f.tb]).putS f.d (match lane with | none => 0 | some l => ((s.vlanes f.b).getD l 0).setWidth 64)).putS f.a
        (match lane with | none => 128 | some l => BitVec.ofNat 64 l)).retire (wordsOf x))) ∧
  ∀ (f : RF) (s : State), s.canIssue [.tile f.a f.ta] [.tile f.d false] →
    ∃ out : List Byte, out.length = 4096 ∧
      (∀ i j, i < 32 → j < 32 → ∀ k, k < 4 →
        out[4 * (32 * i + j) + k]? = (s.bytesOf (.tile f.a false))[4 * (32 * j + i) + k]?) ∧
      exec (.vtrans f) s = .next ((((s.popAll [.tile f.a f.ta]).reserve (.tile f.d false)).post 8
        (.deliver ((s.popAll [.tile f.a f.ta]).spaceDelivery ((s.popAll [.tile f.a f.ta]).me.place (.tile f.d false)).1 out
          (List.replicate 4096 true)))).retire 1)

namespace Sys2Proof.Claims

open Sys2Proof.Machine

/-- A candidate of value and index comes before another in rank (R259): a greater value, any other value before a NaN, or the lower index where the
values are equal, as the zeros and the NaNs are among themselves. -/
def outranks (x y : W32 × W32) : Bool :=
  let nan (z : W32 × W32) := (Fmt.f32.decode z.1.toNat).isNan
  let greater := floatCondition 4 .f32 x.1.toNat y.1.toNat || (!nan x && nan y)
  let equal := floatCondition 0 .f32 x.1.toNat y.1.toNat || (nan x && nan y)
  greater || (equal && decide (x.2.toNat < y.2.toNat))

/-- The place in rank order of candidate i of a list in the order of adding: the number of those that outrank it, or are its equals and were added
earlier. -/
def placeIn (cs : List (W32 × W32)) (i : Nat) : Nat :=
  (List.range cs.length).countP fun j =>
    let x := cs.getD j (0, 0)
    let y := cs.getD i (0, 0)
    outranks x y || (!outranks y x && decide (j < i))

/-- The candidates that VTOPK.add takes from the lanes of its vector (R259, R260). -/
def candidatesOf (s : State) (f : RF) (x : Option Ext) : List (W32 × W32) :=
  ((List.range 128).filter fun l => (lanesEnabled s x).getD l false).map fun l =>
    let v := (s.vlanes f.a).getD l 0
    (if (Fmt.f32.decode v.toNat).isNan then 0x7FC00000#32 else v, BitVec.ofNat 32 ((s.sval f.b).toNat + l))

end Sys2Proof.Claims

/-- R259, R260. The top-k buffer: of the candidates of a buffer in rank order followed by those of the enabled lanes, VTOPK.add keeps the first K, each
at its place in rank order, and so keeps the buffer ordered and within K; VTOPK.drain writes them out and empties the buffer, VTOPK.clr sets K from 1
to 64 and traps (Vector Operand) on any other. -/
def Sys2Proof.Claims.TopKBuffer : Prop :=
  (∀ (f : RF) (x : Option Ext) (s : State), s.canIssue [.v f.a f.ta, .s f.b f.tb] [] →
    ∃ cands : List (W32 × W32), exec (either .vtopkAdd .vtopkAddExt f x) s =
        .next (((s.popAll [.v f.a f.ta, .s f.b f.tb]).modMe fun st => { st with topk := ⟨s.me.topk.k, cands⟩ }).retire (wordsOf x)) ∧
      let all := s.me.topk.cands ++ candidatesOf s f x
      (s.me.topk.cands.length ≤ s.me.topk.k → (s.me.topk.cands.Pairwise fun c d => outranks d c = false) →
        cands.length = min s.me.topk.k all.length ∧ (cands.Pairwise fun c d => outranks d c = false) ∧
        ∀ i, i < all.length → placeIn all i < s.me.topk.k → cands[placeIn all i]? = all[i]?)) ∧
  (∀ (f : RF) (s : State), s.canIssue [] [.v f.d false, .v f.a false] →
    exec (.vtopkDrain f) s = .next (
      ((((s.writeV 8 f.d ((List.range 128).map fun l => ((s.me.topk.cands[l]?).map (·.1)).getD 0x7FC00000#32) (List.replicate 128 true)).writeV 8
        f.a ((List.range 128).map fun l => ((s.me.topk.cands[l]?).map (·.2)).getD 0xFFFFFFFF#32) (List.replicate 128 true)).modMe fun st =>
          { st with topk := ⟨st.topk.k, []⟩ }).retire 1))) ∧
  ∀ (f : RF) (s : State), s.canIssue [.s f.a f.ta] [] →
    exec (.vtopkClr f) s = .next (if (s.sval f.a).toNat = 0 ∨ 64 < (s.sval f.a).toNat then s.trapAt 0x34 0 s.me.pc
      else ((s.popAll [.s f.a f.ta]).modMe fun st => { st with topk := ⟨(s.sval f.a).toNat, []⟩ }).retire 1)

/-- R243, R61. A vector write through Dest: the bytes of the enabled lanes of an unbound name are replaced, every other byte of the
register space keeps its value, all eight lines of the name are full, no other line changes. -/
def Sys2Proof.Claims.VectorWriteKeepsOtherBytes : Prop :=
  ∀ (s : State) (d : Reg) (lanes : List W32) (on : List Bool), s.placed → s.unbound (.v d false) →
    lanes.length = 128 → on.length = 128 →
    let base := s.me.vView.base + d.toNat * s.me.vView.stride
    let u := s.writeV 0 d lanes on
    (∀ l k, l < 128 → k < 4 → u.myCrew.window.read (base + 4 * l + k) =
      if on.getD l false then BitVec.ofNat 8 ((lanes.getD l 0).toNat / 2 ^ (8 * k)) else s.myCrew.window.read (base + 4 * l + k)) ∧
    (∀ a, a < base ∨ base + 512 ≤ a → u.myCrew.window.read a = s.myCrew.window.read a) ∧
    (∀ n, n ∈ u.myCrew.empty ↔ n ∈ s.myCrew.empty ∧ ¬(base / 64 ≤ n ∧ n < base / 64 + 8)) ∧
    (∀ sid, u.strand sid = s.strand sid) ∧ (∀ a, u.mem.read a = s.mem.read a) ∧ u.pending = s.pending

/-- R77, R78, R255-R258. The window accumulators: WADD and WADDM reserve the accumulator and deliver, after 1 + w cycles with w from
1 to 10, the lanes with the enabled addends added exactly; WRND, WMEAN and WSCALE round the lanes into d after 8 cycles and clear the
enabled ones under .clr. -/
def Obligations.WindowAccumulators : Prop :=
  (∀ (counts : Bool) (f : RF) (x : Option Ext) (s : State), s.windowBusy f.d = false → s.canIssue [.v f.a f.ta, .w f.d false] [.w f.d false] →
    let p := s.popAll [.v f.a f.ta, .w f.d false]
    let m := formatOf (if counts then 12 else floatNamed f x)
    let on := (List.range 128).map fun l =>
      (lanesEnabled s x).getD l false && (!counts || (s.me.mask (f.b.toNat % 8)).getLsbD l)
    ∃ (w : Nat) (out : List WVal), 1 ≤ w ∧ w ≤ 10 ∧
      exec (if counts then either .waddm .waddmExt f x else either .wadd .waddExt f x) s =
        .next (((p.reserve (.w f.d false)).post (1 + w) (.deliver (p.windowDelivery f.d out))).retire (wordsOf x)) ∧
      ∀ l, l < 128 → ∀ old, (s.windowLanes f.d)[l]? = some old → out[l]? = some (
        if on.getD l false then
          let v := ((List.range (32 / m.width)).map fun j => m.decode (elementAt m.width (s.vlanes f.a) l j)).foldl WVal.addVal old
          if counts then { v with fl := { v.fl with count := min (v.fl.count + 1) 0xFFFFFFFF } } else v
        else old)) ∧
  ∀ (scaled : Bool) (mk : RF → Instr) (mkExt : RF → Ext → Instr) (round : Word → WVal → Nat),
    (scaled = false ∧ mk = .wrnd ∧ mkExt = .wrndExt ∧ round = fun _ v => v.round) ∨
    (scaled = false ∧ mk = .wmean ∧ mkExt = .wmeanExt ∧ round = fun _ v => quotientLane v 1) ∨
    (scaled = true ∧ mk = .wscale ∧ mkExt = .wscaleExt ∧ round = fun b v => quotientLane v (b.toNat % 2 ^ 32)) →
    ∀ (f : RF) (x : Option Ext) (s : State), s.windowBusy f.a = false →
      s.canIssue (.w f.a f.ta :: if scaled then [.s f.b f.tb] else []) [.w f.a false, .v f.d false] →
      let p := s.popAll (.w f.a f.ta :: if scaled then [.s f.b f.tb] else [])
      ∃ left : List WVal,
        exec (either mk mkExt f x) s = .next (((((p.reserve (.w f.a false)).post 8 (.deliver (p.windowDelivery f.a left))).writeV 8 f.d
          ((s.windowLanes f.a).map fun v => BitVec.ofNat 32 (round (s.sval f.b) v)) (lanesEnabled s x))).retire (wordsOf x)) ∧
        ∀ l, l < 128 → ∀ old, (s.windowLanes f.a)[l]? = some old →
          left[l]? = some (if f.qf.getLsbD 0 && (lanesEnabled s x).getD l false then ⟨0, noFlags⟩ else old)

/-- R78, R79. Adding to a window lane is exact modulo 2^320 with sticky overflow, in any order while it stays clear, and the flags
decide the rounded value first. -/
def Obligations.WindowSumsAreOrderFree : Prop :=
  (∀ (v : WVal) (n : Nat) (neg : Bool) (e : Int), -149 ≤ e → -2 ^ 319 ≤ v.w → v.w < 2 ^ 319 →
    let x : Int := if neg then -(n * 2 ^ (e + 149).toNat) else n * 2 ^ (e + 149).toNat
    ((v.addVal (.fin neg n e)).w - (v.w + x)) % 2 ^ 320 = 0 ∧ -2 ^ 319 ≤ (v.addVal (.fin neg n e)).w ∧ (v.addVal (.fin neg n e)).w < 2 ^ 319 ∧
      ((v.addVal (.fin neg n e)).fl.ovf = true ↔ v.fl.ovf = true ∨ v.w + x < -2 ^ 319 ∨ 2 ^ 319 ≤ v.w + x)) ∧
  (∀ (v : WVal) (xs ys : List FVal), xs.Perm ys → v.fl.ovf = false → (xs.foldl WVal.addVal v).fl.ovf = false →
    (ys.foldl WVal.addVal v).fl.ovf = false → xs.foldl WVal.addVal v = ys.foldl WVal.addVal v) ∧
  ∀ v : WVal,
    (v.fl.nan = true ∨ (v.fl.pinf = true ∧ v.fl.ninf = true) → v.round = 0x7FC00000) ∧
    (v.fl.nan = false → v.fl.pinf = true → v.fl.ninf = false → v.round = 0x7F800000) ∧
    (v.fl.nan = false → v.fl.pinf = false → v.fl.ninf = true → v.round = 0xFF800000) ∧
    (v.fl.nan = false → v.fl.pinf = false → v.fl.ninf = false → v.fl.ovf = true → v.round = 0x7FC00000) ∧
    (v.fl.nan = false → v.fl.pinf = false → v.fl.ninf = false → v.fl.ovf = false → v.w = 0 → v.round = 0)

/-! ### Crew resources, views and the stack (spec 06 R119-R134) -/

namespace Sys2Proof.Claims

open Sys2Proof.Machine

/-- A form whose amount stands in register a, or in an immediate: its source operands, amount and words. -/
def amountSrcs (f : RF) (x : Option Ext) : List Opnd := match x with | none => [.s f.a f.ta] | some _ => []
def amountOf (f : RF) (x : Option Ext) (s : State) : Nat := match x with | none => (s.sval f.a).toNat | some x => x.immA

/-- The amount of resource r, 0 .rq, 1 .sl, 2 .ac (R47). -/
def partOf (h : Res) (r : Nat) : Nat := match r with | 0 => h.rq | 1 => h.sl | _ => h.ac

/-- The result of ACQ (R127): the status, and in bits [55:0] `low`, with the mask of the held slots above it for .ac. -/
def acquired (status low mask r : Nat) : Word := BitVec.ofNat 64 (status * 2 ^ 56 + low + (if r = 2 then mask * 2 ^ 8 else 0))

end Sys2Proof.Claims

/-- R129. CLAIM sets claim := max(holding, min(claim, n)), writes the new claim to d, and lets the Tumbler look again (R126). -/
def Sys2Proof.Claims.ClaimIsLowered : Prop :=
  ∀ (f : RF) (x : Option Ext) (s : State), s.canIssue (amountSrcs f x) [.s f.d false] → f.qf.toNat < 3 →
    let r := f.qf.toNat
    let new := max (partOf s.myCrew.hold r) (min (partOf s.myCrew.claim r) (amountOf f x s))
    exec (either .claim .claimImmediate f x) s = .next ((((((s.popAll (amountSrcs f x)).modMyCrew fun w =>
      { w with claim := if r = 0 then { w.claim with rq := new } else if r = 1 then { w.claim with sl := new } else { w.claim with ac := new } }).tumble
        s.cur.core).putS f.d (BitVec.ofNat 64 new))).retire (wordsOf x))

/-- R125, R127. ACQ: beyond the claim it traps (Claim Exceeded) and acquires nothing; an amount that the Tumbler grants is added to the
holding and the result has status 0; a failing form that is not granted reports 1 (unsafe) or 2 (not free) and acquires nothing. -/
def Sys2Proof.Claims.AcquireGrantsOrReports : Prop :=
  ∀ (nb : Bool) (f : RF) (x : Option Ext) (s : State), s.placed → s.myAcq = none → f.qf.toNat < 3 →
    s.canIssue (amountSrcs f x) [.s f.d false] → (∀ o ∈ amountSrcs f x, s.unbound o) → s.unbound (.s f.d false) → f.d ≠ 0 →
    let r := f.qf.toNat
    let n := amountOf f x s
    let i := if nb then either .acqNb .acqNbImmediate f x else either .acq .acqImmediate f x
    (partOf s.myCrew.claim r < partOf s.myCrew.hold r + n → exec i s = .next (s.trapAt 0x10 0 s.me.pc)) ∧
    (partOf s.myCrew.hold r + n ≤ partOf s.myCrew.claim r →
      (n = 0 → ∃ t, exec i s = .next t ∧ t.myCrew = s.myCrew ∧ t.me.isFull f.d = true ∧
        t.me.get f.d = acquired 0 (if r = 2 then 0 else partOf s.myCrew.hold r) s.myCrew.acMask.toNat r) ∧
      (n ≠ 0 → s.myCore.grantable (some s.myCrew.task) (resOf r n) = true →
        ∃ t, exec i s = .next t ∧ t.me.isFull f.d = true ∧
          t.myCrew.hold = s.myCrew.hold.add (resOf r n) ∧
          t.myCrew.acMask = (if r = 2 then s.myCrew.acMask ||| s.myCore.acLowest n else s.myCrew.acMask) ∧
          t.me.get f.d = acquired 0 (if r = 0 then s.myCrew.hold.rq else if r = 1 then s.myCrew.hold.sl + n else (s.myCore.acLowest n).toNat)
            (s.myCrew.acMask ||| s.myCore.acLowest n).toNat r) ∧
      (n ≠ 0 → s.myCore.grantable (some s.myCrew.task) (resOf r n) = false → nb = true →
        ∃ t, exec i s = .next t ∧ t.myCrew = s.myCrew ∧ t.me.isFull f.d = true ∧
          t.me.get f.d = acquired (if n ≤ partOf s.myCore.free r then 1 else 2) (if r = 2 then 0 else partOf s.myCrew.hold r)
            s.myCrew.acMask.toNat r))

/-- R128. REL: what may be released leaves the holding at once and the Tumbler looks again; quanta leave the top of the window.
A release below the floor, below the charge, or of a slot not held traps (Release Invalid). -/
def Sys2Proof.Claims.ReleaseReturnsToThePool : Prop :=
  ∀ (f : RF) (x : Option Ext) (s : State), s.canIssue (amountSrcs f x) [] →
    let w := s.myCrew
    let n := amountOf f x s
    let p := s.popAll (amountSrcs f x)
    let mask := BitVec.ofNat 8 n
    let i := either .rel .relImmediate f x
    (f.qf = 0 → w.floor.rq + n ≤ w.hold.rq → s.streamAbove s.cur.core w (w.windowSize - 1024 * n) = false →
      (∀ l ∈ w.empty, ¬((w.windowSize - 1024 * n) / 64 ≤ l ∧ l < (w.windowSize - 1024 * n) / 64 + 16 * n)) →
      exec i s = .next (((p.modMyCrew fun w =>
        { w with hold := { w.hold with rq := w.hold.rq - n }, window := w.window.truncate (w.windowSize - 1024 * n) }).tumble s.cur.core).retire (wordsOf x))) ∧
    (f.qf = 1 → w.floor.sl + n ≤ w.hold.sl → s.myCharge + n ≤ w.hold.sl →
      exec i s = .next (((p.modMyCrew fun w => { w with hold := { w.hold with sl := w.hold.sl - n } }).tumble s.cur.core).retire (wordsOf x))) ∧
    (f.qf = 2 → mask &&& ~~~w.acMask = 0 → w.floor.ac + maskCount mask ≤ w.hold.ac → s.myCore.tileNames (s.ownerOf s.cur) mask = false →
      exec i s = .next (((p.modMyCrew fun w =>
        { w with hold := { w.hold with ac := w.hold.ac - maskCount mask }, acMask := w.acMask &&& ~~~mask }).tumble s.cur.core).retire (wordsOf x))) ∧
    ((f.qf = 0 ∧ w.hold.rq < w.floor.rq + n) ∨ (f.qf = 1 ∧ (w.hold.sl < w.floor.sl + n ∨ w.hold.sl < s.myCharge + n)) ∨
      (f.qf = 2 ∧ (mask &&& ~~~w.acMask ≠ 0 ∨ w.hold.ac < w.floor.ac + maskCount mask)) →
      exec i s = .next (s.trapAt 0x11 0 s.me.pc))

/-- R125. What the Tumbler grants is free, and leaves the core in a state that the test of R125 finds safe: the placed crews can be
put in an order in which each one's outstanding claim fits into what is free once those before it have returned theirs. -/
def Obligations.GrantsAreSafe : Prop :=
  ∀ (c : Core) (who : Option Nat) (grow : Res), c.grantable who grow = true →
    grow.rq ≤ c.free.rq ∧ grow.sl ≤ c.free.sl ∧ grow.ac ≤ c.free.ac ∧
    ∃ order : List Need3,
      order.Perm (c.placedCrews.map fun w => c.need3 (if some w.task == who then { w with hold := w.hold.add grow } else w)) ∧
      ∀ (k : Nat) (w : Need3), order[k]? = some w →
        w.need.le (((order.take k).map Need3.back).foldl Res.add (c.free.sub grow)) = true

/-- R122, R123, R132-R134. SETVIEW accepts the views within the limits and traps (View Invalid) on others; VMOV moves 512 bytes;
SPLD and SPST move a dword between a scalar and an aligned offset of the window whose line is full, and trap (Window Bounds) on any
other offset, which is an exact sum (R7). -/
def Sys2Proof.Claims.ViewsMovesAndStackAccesses : Prop :=
  (∀ (f : RF) (s : State), s.canIssue [.s f.a f.ta, .s f.b f.tb] [] → f.qf.toNat < 3 →
    let base := (s.sval f.a).toNat
    let stride := (s.sval f.b).toNat
    let size := if f.qf = 0 then 512 else if f.qf = 1 then 5120 else 4096
    let count := if f.qf = 0 then 32 else 8
    exec (.setview f) s = .next (
      if base % 64 = 0 ∧ stride % 64 = 0 ∧ size ≤ stride ∧ stride ≤ 65536 ∧ base + (count - 1) * stride + size ≤ 262144 then
        ((s.popAll [.s f.a f.ta, .s f.b f.tb]).modMe fun st =>
          if f.qf = 0 then { st with vView := ⟨base, stride⟩ } else if f.qf = 1 then { st with aView := ⟨base, stride⟩ }
          else { st with tView := ⟨base, stride⟩ }).retire 1
      else s.trapAt 0x14 0 s.me.pc)) ∧
  (∀ (f : RF) (s : State), s.canIssue [.v f.a f.ta] [.v f.d false] →
    exec (.vmov f) s = .next (((s.popAll [.v f.a f.ta]).putV f.d (s.bytesOf (.v f.a false)) (List.replicate 512 true)).retire 1)) ∧
  (∀ (f : RF) (x : Option Ext) (s : State), s.canIssue [.s f.a f.ta] [] → s.holdsLater s.cur = false →
    let o := (s.sval f.a).toNat + (match x with | none => 0 | some x => x.immA)
    let i := either .spld .spldOffset f x
    (o % 8 = 0 → o + 8 ≤ 1024 * s.myCrew.hold.rq → o / 64 ∉ s.myCrew.empty → s.canWrite (.s f.d false) →
      exec i s = .next (done s [.s f.a f.ta] f.d (BitVec.ofNat 64 (s.myCrew.window.readNat o 8)) (wordsOf x))) ∧
    (o % 8 ≠ 0 ∨ 1024 * s.myCrew.hold.rq < o + 8 → exec i s = .next (s.trapAt 0x12 0 s.me.pc))) ∧
  ∀ (f : RF) (x : Option Ext) (s : State), s.canIssue [.s f.a f.ta, .s f.b f.tb] [] → s.holdsLater s.cur = false →
    let o := (s.sval f.b).toNat + (match x with | none => 0 | some x => x.immA)
    let i := either .spst .spstOffset f x
    (o % 8 = 0 → o + 8 ≤ 1024 * s.myCrew.hold.rq → o / 64 ∉ s.myCrew.empty →
      exec i s = .next (((s.popAll [.s f.a f.ta, .s f.b f.tb]).tellCore.modMyCrew fun w =>
        { w with window := w.window.writeNat o 8 (s.sval f.a).toNat }).retire (wordsOf x))) ∧
    (o % 8 ≠ 0 ∨ 1024 * s.myCrew.hold.rq < o + 8 → exec i s = .next (s.trapAt 0x12 0 s.me.pc))

/-- R122. A register name whose bytes reach beyond the window traps (Window Bounds) before anything else happens. -/
def Sys2Proof.Claims.NamesOutsideTheWindowTrap : Prop :=
  ∀ (f : RF) (s : State), 1024 * s.myCrew.hold.rq < (s.me.place (.v f.d false)).1 + 512 →
    exec (.vmov f) s = .next (s.trapAt 0x12 0 s.me.pc) ∧ exec (.vadd f) s = .next (s.trapAt 0x12 0 s.me.pc) ∧
    exec (.vbcast f) s = .next (s.trapAt 0x12 0 s.me.pc) ∧ exec (.vldSlot f) s = .next (s.trapAt 0x12 0 s.me.pc)

/-! ### Streams and fibres (spec 06 R135-R139) -/

/-- R135-R137. SOPEN of a fitting record binds d, which turns empty, with both cursors at the coordinates; STEND tells whether the read
cursor is past the end and never waits; SCLOSE unbinds once no append is outstanding, and d, scalar or vector, is full again with what it holds; a
landing puts the head element into d and sets it full. That a vector name stands for the bytes it had at SOPEN until it is unbound, and that elements
are fetched ahead, are the model's choices (DEDUCED and DESIGN CHOICE, log 9). -/
def Sys2Proof.Claims.StreamsBindAndUnbind : Prop :=
  (∀ (f : RF) (x : Ext) (s : State) (r : Nat),
    let q := f.a.toNat
    let scalar : Bool := x.type = 4 || x.type = 8
    let d : Opnd := if scalar then .s f.d false else .v f.d false
    let coords := (coordRegs x).map fun c => Opnd.s c false
    let ks := padCoords ((coordRegs x).map fun c => (s.sval c).toNat)
    s.canIssue coords [] → s.inWindow d = true → s.record s.cur.core (s.pidOf s.cur) x.handle.toNat = .ok r →
    (s.me.stream q).cls = 0 → s.me.bound d = none → coords.length ≤ recRank r → s.isFree d = true →
    (scalar = true ∨ s.holdsLater s.cur = false) →
    (x.type = 0 ∨ (if scalar then recFormat r = 4 ∨ recFormat r = 8 else recFormat r = x.type.toNat)) →
    exec (.sopen f x) s = .next ((((((s.popAll coords).reserve d).modMe fun st => st.setStream q
      { cls := if scalar then 1 else 2, handle := x.handle.toNat, reg := f.d, type := x.type.toNat,
        base := if scalar then 0 else s.me.vView.base + f.d.toNat * s.me.vView.stride, record := r, rd := ks, wr := ks,
        fetchAt := ks, fetched := [], busy := false, landed := false }).kickStream s.cur q).retire 3))) ∧
  (∀ (f : RF) (s : State), s.canIssue [] [.s f.d false] →
    exec (.stend f) s = .next (done s [] f.d
      (if (s.me.stream f.a.toNat).cls = 0 ∨ pastEnd (s.me.stream f.a.toNat).record (s.me.stream f.a.toNat).rd = true then 1 else 0) 1)) ∧
  (∀ (f : RF) (s : State), (s.me.stream f.a.toNat).cls = 0 → exec (.sclose f) s = .next (s.retire 1)) ∧
  (∀ (f : RF) (s : State), s.cur.pos < 17 → f.a.toNat < 8 → (s.me.stream f.a.toNat).cls = 1 →
    (∀ r ∈ s.reqs, ¬(r.sid = s.cur ∧ r.kind = .append f.a.toNat)) →
    ∃ t, exec (.sclose f) s = .next t ∧ (t.me.stream f.a.toNat).cls = 0 ∧ t.me.isFull (s.me.stream f.a.toNat).reg = true ∧
      (∀ r, t.me.get r = s.me.get r) ∧ (∀ a, t.mem.read a = s.mem.read a)) ∧
  (∀ (f : RF) (s : State), s.placed → f.a.toNat < 8 → (s.me.stream f.a.toNat).cls = 2 →
    (∀ r ∈ s.reqs, ¬(r.sid = s.cur ∧ r.kind = .append f.a.toNat)) →
    let g := s.me.stream f.a.toNat
    ∃ t, exec (.sclose f) s = .next t ∧ (t.me.stream f.a.toNat).cls = 0 ∧
      (∀ n, n ∈ t.myCrew.empty ↔ n ∈ s.myCrew.empty ∧ ¬(g.base / 64 ≤ n ∧ n < g.base / 64 + 8)) ∧
      (∀ a, t.myCrew.window.read a = s.myCrew.window.read a) ∧ (∀ r, t.me.get r = s.me.get r) ∧ (∀ a, t.mem.read a = s.mem.read a)) ∧
  (∀ (s : State) (sid : SId) (q : Nat) (head : List Byte) (more : List (List Byte)), sid.pos < 17 → s.ownerOf sid ≠ .chain7 →
    let g := (s.strand sid).stream q
    g.fetched = head :: more → head.length = 512 → g.landed = false → g.cls = 2 → (s.strand sid).bound (.v g.reg false) = some q →
    ∃ t, exec (.streamElementLand sid q) s = .next t ∧ ((t.strand sid).stream q).landed = true ∧
      (∃ tail, ((t.strand sid).stream q).fetched = more ++ tail) ∧
      (let w := s.owned sid.core (s.ownerOf sid)
       let v := t.owned sid.core (s.ownerOf sid)
       (∀ k, k < 512 → v.window.read (g.base + k) = head.getD k 0) ∧
       (∀ a, a < g.base ∨ g.base + 512 ≤ a → v.window.read a = w.window.read a) ∧
       ∀ n, n ∈ v.empty ↔ n ∈ w.empty ∧ ¬(g.base / 64 ≤ n ∧ n < g.base / 64 + 8)) ∧
      (∀ a, t.mem.read a = s.mem.read a)) ∧
  ∀ (s : State) (sid : SId) (q : Nat) (head : List Byte) (more : List (List Byte)), sid.pos < 17 → q < 8 →
    ((s.strand sid).stream q).fetched = head :: more → ((s.strand sid).stream q).landed = false → ((s.strand sid).stream q).cls = 1 →
    ((s.strand sid).stream q).reg ≠ 0 →
    ∃ t, exec (.streamElementLand sid q) s = .next t ∧ ((t.strand sid).stream q).landed = true ∧
      (∃ tail, ((t.strand sid).stream q).fetched = more ++ tail) ∧
      (t.strand sid).get ((s.strand sid).stream q).reg = BitVec.ofNat 64 (natOfBytes head) ∧
      (t.strand sid).isFull ((s.strand sid).stream q).reg = true ∧ (∀ a, t.mem.read a = s.mem.read a)

/-- R139, R386. The fibre forms, where feature 5 is accepted: FOPEN takes position and end from registers; FADV gives (p << 32) | C and
moves on, FTEND and the ended cases answer at once; FISECT moves the fibre of the smaller coordinate on by one, in one cycle each, while the two differ,
and leaves both fibres at the first common coordinate; FCLOSE closes. -/
def Sys2Proof.Claims.FibresWalkAndIntersect : Prop :=
  (∀ (f : RF) (x : Ext) (s : State) (r : Nat), s.feature 5 = true → s.canIssue [.s f.a f.ta, .s f.b f.tb] [] →
    s.record s.cur.core (s.pidOf s.cur) x.handle.toNat = .ok r → recRank r = 1 → recFormat r = 7 → recR r = true →
    (s.me.fibre f.d.toNat).isOpen = false →
    exec (.fopen f x) s = .next (((s.popAll [.s f.a f.ta, .s f.b f.tb]).modMe fun st => st.setFibre f.d.toNat
      { isOpen := true, handle := x.handle.toNat, record := r, p := (s.sval f.a).toNat % 2 ^ 32,
        e := min ((s.sval f.b).toNat % 2 ^ 32) (recExt r 0) }).retire 3)) ∧
  (∀ (f : RF) (s : State), s.feature 5 = true → s.canIssue [] [.s f.d false] →
    let g := s.me.fibre f.a.toNat
    let h := s.me.fibre f.b.toNat
    let out := g.isOpen = false ∨ g.e ≤ g.p
    (out → exec (.fadv f) s = .next (done s [] f.d (BitVec.ofInt 64 (-1)) 1)) ∧
    (¬out → ∀ c, g.got = some (g.p, c) → exec (.fadv f) s = .next (
      ((s.modMe fun st => st.setFibre f.a.toNat { g with p := g.p + 1 }).putS f.d (BitVec.ofNat 64 (g.p * 2 ^ 32 + c))).retire 1)) ∧
    exec (.ftend f) s = .next (done s [] f.d (if g.isOpen = false ∨ g.e ≤ g.p then 1 else 0) 1) ∧
    (out ∨ h.isOpen = false ∨ h.e ≤ h.p → exec (.fisect f) s = .next (done s [] f.d (BitVec.ofInt 64 (-1)) 1)) ∧
    (¬out → ¬(h.isOpen = false ∨ h.e ≤ h.p) → ∀ c, g.got = some (g.p, c) → h.got = some (h.p, c) →
      exec (.fisect f) s = .next (done s [] f.d (BitVec.ofNat 64 c) 1)) ∧
    (¬out → ¬(h.isOpen = false ∨ h.e ≤ h.p) → ∀ c e, g.got = some (g.p, c) → h.got = some (h.p, e) → c ≠ e → s.placed → f.a.toNat < 4 →
      f.b.toNat < 4 → ∃ t, exec (.fisect f) s = .next t ∧
        WaitsInside .poll (s.modMe fun st =>
          if c < e then st.setFibre f.a.toNat { g with p := g.p + 1 } else st.setFibre f.b.toNat { h with p := h.p + 1 }) t)) ∧
  ∀ (f : RF) (s : State), s.cur.pos < 17 → s.feature 5 = true → f.a.toNat < 4 →
    ∃ t, exec (.fclose f) s = .next t ∧ (t.me.fibre f.a.toNat).isOpen = false ∧ (∀ r, t.me.get r = s.me.get r) ∧
      (∀ a, t.mem.read a = s.mem.read a)

/-- R136. A result that comes later takes its place when its instruction issues: where d is bound to a stream, at the write cursor, which moves on, as a
request of an append that does nothing until its value is there; with the value, the request is an append of it. An unbound name takes no place. -/
def Sys2Proof.Claims.LateResultsTakeTheirPlace : Prop :=
  (∀ (s : State) (o : Opnd), s.unbound o → s.book o = (none, s)) ∧
  (∀ (s : State) (o : Opnd) (q : Nat), s.cur.pos < 17 → s.me.bound o = some q →
    let g := s.me.stream q
    ∃ r : Req, r.kind = .append q ∧ r.sid = s.cur ∧ r.aside = true ∧ r.id = s.serial ∧ (s.book o).1 = some r.id ∧ (s.book o).2.reqs = s.reqs ++ [r] ∧
      (∀ e ∈ r.elems, e.data = [] ∧ e.size = typeSize (recFormat g.record) ∧
        ∃ j row, j < g.step ∧ e.put = j * e.size ∧ inRange g.record (bumpCoord g.wr 0 j) = true ∧
          row ∈ rowsOf g.record (dieOf s.cur.core) true ((bumpCoord g.wr 0 j).getD (recRank g.record - 1) 0) ∧ e.va = addressOf g.record (bumpCoord g.wr 0 j) row) ∧
      (s.book o).2.me = s.me.setStream q { g with wr := advance g.record g.step g.wr } ∧
      (∀ sid, sid ≠ s.cur → (s.book o).2.strand sid = s.strand sid) ∧ (∀ c o', (s.book o).2.owned c o' = s.owned c o') ∧
      (∀ a, (s.book o).2.mem.read a = s.mem.read a) ∧ (s.book o).2.pending = s.pending) ∧
  ∀ (s : State) (id : Nat) (r : Req) (bytes : List Byte), s.req? id = some r → r.elems ≠ [] →
    ∃ x, (s.fillAppend id bytes).req? id = some x ∧ x.kind = r.kind ∧ x.aside = false ∧
      x.elems = r.elems.map (fun e => { e with data := (bytes.drop e.put).take e.size }) ∧
      (∀ sid, (s.fillAppend id bytes).strand sid = s.strand sid) ∧ ∀ a, (s.fillAppend id bytes).mem.read a = s.mem.read a

/-! ### Slot loads and stores, granules and the local map (spec 07 R141-R161) -/

namespace Sys2Proof.Claims

open Sys2Proof.Machine

/-- Byte address of a slot form: slot in [7:0], offset in [21:8], plus an immediate (R143). -/
def slotNo (x : Word) : Nat := x.toNat % 256
def slotOffset (x : Word) (imm : Nat) : Nat := x.toNat / 256 % 2 ^ 14 + imm
def slotByte (x : Word) (imm : Nat) : Nat := 16384 * slotNo x + slotOffset x imm

/-- The running strand may name a slot (R142, R400): a supervisor strand has none, a privileged strand has all, a user crew strand
0-247; a user Hasp strand all but 248-251, and 0-247 only where it runs the core's own job. -/
def mayName (s : State) (slot : Nat) : Prop :=
  s.cur.core < 256 ∧ (s.me.priv = true ∨ (s.cur.pos ≠ 16 ∧ slot < 248) ∨
    (s.cur.pos = 16 ∧ ((slot < 248 ∧ s.haspForeign = false) ∨ 252 ≤ slot)))

/-- Nothing earlier of the strand holds an access to bytes of its slot store back: no acquire, shared-map operation or access of its own
through a remote-slot record to those bytes is outstanding (R163, R296, R297, R302, R305). -/
def slotOrdered (s : State) (x : Word) (imm n : Nat) : Prop :=
  s.holdsLater s.cur = false ∧ s.ownAccessTo s.cur.core (slotByte x imm) n = false

/-- The access lies in a slot that holds no chain's storage and at a multiple of `align`, and every granule it covers is full; the code finds
no error (R143-R145, R153, R209). -/
def slotReadable (s : State) (x : Word) (imm n align : Nat) : Prop :=
  slotOrdered s x imm n ∧ s.myCore.storageSlot (slotNo x) = false ∧ mayName s (slotNo x) ∧ slotOffset x imm % align = 0 ∧ slotOffset x imm + n ≤ 16384 ∧
    (∀ g, slotByte x imm / 16 ≤ g → g ≤ (slotByte x imm + n - 1) / 16 → g ∉ s.myCore.empty) ∧ s.myCore.slotErrors = [] ∧
    s.myCore.slotErased = 0

/-- The core's granules after a load that empties them (.clr), or one that does not (R147). -/
def granulesAfterLoad (clr : Bool) (x : Word) (imm n : Nat) (s : State) : State :=
  if clr then s.modMyCore fun c => { c with empty := addRange (slotByte x imm / 16) ((slotByte x imm + n - 1) / 16 + 1 - slotByte x imm / 16) c.empty } else s

/-- A loaded element of a type as 64 bits: sign-extended for a signed type (R147). -/
def loadedValue (t : Nat) (bs : List Byte) : Word :=
  if typeSigned t then (BitVec.ofNat (8 * bs.length) (natOfBytes bs)).signExtend 64 else BitVec.ofNat 64 (natOfBytes bs)

end Sys2Proof.Claims

/-- R141-R147. Loads of a slot, without a status register: the bytes of full granules reach d, extended by the type, and .clr empties
the granules. -/
def Sys2Proof.Claims.SlotLoads : Prop :=
  (∀ (f : RF) (x : Option Ext) (s : State),
    let t := match x with | none => 0 | some x => x.type.toNat
    let n := if t = 0 then 8 else typeSize t
    let imm := match x with | none => 0 | some x => x.immA
    s.canIssue [.s f.a f.ta] [.s f.d false] → (x.isSome = true → f.qf.getLsbD 1 = false) → n ≠ 0 →
    slotReadable s (s.sval f.a) imm n n →
    exec (either .ldSlot .ldSlotExt f x) s = .next (
      ((granulesAfterLoad (f.qf.getLsbD 0) (s.sval f.a) imm n (s.popAll [.s f.a f.ta])).putS f.d
        (loadedValue t (s.myCore.slots.readBytes (slotByte (s.sval f.a) imm) n))).retire (wordsOf x))) ∧
  ∀ (f : RF) (x : Option Ext) (s : State),
    let imm := match x with | none => 0 | some x => x.immA
    s.canIssue [.s f.a f.ta] [.v f.d false] → (x.isSome = true → f.qf.getLsbD 1 = false) → slotReadable s (s.sval f.a) imm 512 64 →
    ∃ on : List Bool, (∀ l k, l < 128 → k < 4 → on[4 * l + k]? = (lanesEnabled s x)[l]?) ∧
      exec (either .vldSlot .vldSlotExt f x) s = .next (
        ((granulesAfterLoad (f.qf.getLsbD 0) (s.sval f.a) imm 512 (s.popAll [.s f.a f.ta])).putV f.d
          (s.myCore.slots.readBytes (slotByte (s.sval f.a) imm) 512) on).retire (wordsOf x))

/-- R145, R147. With a status register (.nb) LD and VLD do not wait for an empty granule: the status is 1 and nothing else changes;
where every granule is full the status is 0 and the value, of VLD in the enabled lanes, reaches d. Without one the strand waits inside the load for the
granules that it covers, and nothing is read. -/
def Sys2Proof.Claims.SlotLoadStatus : Prop :=
  (∀ (f : RF) (x : Ext) (s : State),
    let t := x.type.toNat
    let n := if t = 0 then 8 else typeSize t
    let a := slotByte (s.sval f.a) 0
    s.canIssue [.s f.a f.ta] [.s x.c0 false] → f.qf.getLsbD 1 = true → n ≠ 0 → mayName s (slotNo (s.sval f.a)) →
    slotOffset (s.sval f.a) 0 % n = 0 → slotOffset (s.sval f.a) 0 + n ≤ 16384 → slotOrdered s (s.sval f.a) 0 n →
    ((∃ g, a / 16 ≤ g ∧ g ≤ (a + n - 1) / 16 ∧ g ∈ s.myCore.empty) →
      exec (.ldSlotExt f x) s = .next (done s [.s f.a f.ta] x.c0 1 3)) ∧
    (slotReadable s (s.sval f.a) 0 n n → s.canWrite (.s f.d false) →
      exec (.ldSlotExt f x) s = .next (
        (((granulesAfterLoad (f.qf.getLsbD 0) (s.sval f.a) 0 n (s.popAll [.s f.a f.ta])).putS f.d
          (loadedValue t (s.myCore.slots.readBytes a n))).putS x.c0 0).retire 3))) ∧
  (∀ (f : RF) (x : Ext) (s : State),
    let a := slotByte (s.sval f.a) 0
    s.canIssue [.s f.a f.ta] [.s x.c0 false] → s.inWindow (.v f.d false) = true → f.qf.getLsbD 1 = true → mayName s (slotNo (s.sval f.a)) →
    slotOffset (s.sval f.a) 0 % 64 = 0 → slotOffset (s.sval f.a) 0 + 512 ≤ 16384 → slotOrdered s (s.sval f.a) 0 512 →
    ((∃ g, a / 16 ≤ g ∧ g ≤ (a + 511) / 16 ∧ g ∈ s.myCore.empty) →
      exec (.vldSlotExt f x) s = .next (done s [.s f.a f.ta] x.c0 1 3)) ∧
    (slotReadable s (s.sval f.a) 0 512 64 → s.canWrite (.v f.d false) →
      ∃ on : List Bool, (∀ l k, l < 128 → k < 4 → on[4 * l + k]? = (lanesEnabled s (some x))[l]?) ∧
        exec (.vldSlotExt f x) s = .next (
          (((granulesAfterLoad (f.qf.getLsbD 0) (s.sval f.a) 0 512 (s.popAll [.s f.a f.ta])).putV f.d
            (s.myCore.slots.readBytes a 512) on).putS x.c0 0).retire 3))) ∧
  ∀ (vector : Bool) (f : RF) (x : Option Ext) (s : State),
    let t := match x with | none => 0 | some x => x.type.toNat
    let n := if vector then 512 else if t = 0 then 8 else typeSize t
    let imm := match x with | none => 0 | some x => x.immA
    let a := slotByte (s.sval f.a) imm
    s.placed → s.canIssue [.s f.a f.ta] [] → (vector = true → s.inWindow (.v f.d false) = true) → (x.isSome = true → f.qf.getLsbD 1 = false) → n ≠ 0 →
    mayName s (slotNo (s.sval f.a)) → slotOffset (s.sval f.a) imm % (if vector then 64 else n) = 0 → slotOffset (s.sval f.a) imm + n ≤ 16384 →
    slotOrdered s (s.sval f.a) imm n → (∃ g, a / 16 ≤ g ∧ g ≤ (a + n - 1) / 16 ∧ g ∈ s.myCore.empty) →
    ∃ t, exec (if vector then either .vldSlot .vldSlotExt f x else either .ldSlot .ldSlotExt f x) s = .next t ∧
      WaitsInside (.granules 0 (a / 16) ((a + n - 1) / 16 + 1 - a / 16)) s t

/-- R141-R144, R148. Stores to a slot: exactly the bytes at the slot address that register b holds (of a VST, those of the enabled
lanes) are written in one action, the granules that hold a byte written (of a VST, an enabled lane) turn full and every other keeps its state, and no other
byte of the slot store, and no byte of memory, changes. -/
def Sys2Proof.Claims.SlotStores : Prop :=
  (∀ (f : RF) (x : Option Ext) (s : State),
    let t := match x with | none => 0 | some x => x.type.toNat
    let n := if t = 0 then 8 else typeSize t
    let imm := match x with | none => 0 | some x => x.immA
    let a := slotByte (s.sval f.b) imm
    s.canIssue [.s f.b f.tb, .s f.a f.ta] [] → (∀ o ∈ [Opnd.s f.b f.tb, .s f.a f.ta], s.unbound o) → n ≠ 0 → s.cur.pos < 17 →
    mayName s (slotNo (s.sval f.b)) → slotOrdered s (s.sval f.b) imm n →
    slotOffset (s.sval f.b) imm % n = 0 → slotOffset (s.sval f.b) imm + n ≤ 16384 →
    ∃ u : State, exec (either .stSlot .stSlotExt f x) s = .next (u.retire (wordsOf x)) ∧
      (∀ k, k < n → u.myCore.slots.read (a + k) = BitVec.ofNat 8 ((s.sval f.a).toNat / 2 ^ (8 * k))) ∧
      (∀ b, b < a ∨ a + n ≤ b → u.myCore.slots.read b = s.myCore.slots.read b) ∧
      (∀ g, g ∈ u.myCore.empty ↔ g ∈ s.myCore.empty ∧ ¬(a / 16 ≤ g ∧ g ≤ (a + n - 1) / 16)) ∧
      (∀ c b, c ≠ s.cur.core → (u.core c).slots.read b = (s.core c).slots.read b) ∧ (∀ b, u.mem.read b = s.mem.read b) ∧
      (∀ b, u.host.read b = s.host.read b) ∧ u.me = s.me) ∧
  ∀ (f : RF) (x : Option Ext) (s : State),
    let imm := match x with | none => 0 | some x => x.immA
    let a := slotByte (s.sval f.b) imm
    s.canIssue [.s f.b f.tb, .v f.a f.ta] [] → (∀ o ∈ [Opnd.s f.b f.tb, .v f.a f.ta], s.unbound o) → s.cur.pos < 17 →
    mayName s (slotNo (s.sval f.b)) → slotOrdered s (s.sval f.b) imm 512 →
    slotOffset (s.sval f.b) imm % 64 = 0 → slotOffset (s.sval f.b) imm + 512 ≤ 16384 →
    ∃ u : State, exec (either .vstSlot .vstSlotExt f x) s = .next (u.retire (wordsOf x)) ∧
      (∀ l k, l < 128 → k < 4 → u.myCore.slots.read (a + 4 * l + k) =
        if (lanesEnabled s x).getD l false then (s.vbytes f.a).getD (4 * l + k) 0 else s.myCore.slots.read (a + 4 * l + k)) ∧
      (∀ b, b < a ∨ a + 512 ≤ b → u.myCore.slots.read b = s.myCore.slots.read b) ∧
      (∀ g, g ∈ u.myCore.empty ↔ g ∈ s.myCore.empty ∧
        ¬∃ l, l < 128 ∧ (lanesEnabled s x).getD l false = true ∧ (a + 4 * l) / 16 = g) ∧
      (∀ c b, c ≠ s.cur.core → (u.core c).slots.read b = (s.core c).slots.read b) ∧ (∀ b, u.mem.read b = s.mem.read b) ∧
      (∀ b, u.host.read b = s.host.read b) ∧ u.me = s.me

/-- R149, R150. SETFE empties or fills the granules named and leaves every byte; TSTFE reads their states as bits. -/
def Sys2Proof.Claims.GranuleForms : Prop :=
  ∀ (f : RF) (x : Ext) (s : State), s.canIssue [.s f.a f.ta] [] → mayName s (slotNo (s.sval f.a)) → s.holdsLater s.cur = false →
    let g := 1024 * slotNo (s.sval f.a) + x.immA
    s.ownAccessTo s.cur.core (16 * g) (16 * x.immB) = false →
    exec (.setfeE f x) s = .next (((s.popAll [.s f.a f.ta]).tellCore.modMyCore fun c => { c with empty := addRange g x.immB c.empty }).retire 3) ∧
    exec (.setfeF f x) s = .next (((s.popAll [.s f.a f.ta]).tellCore.modMyCore fun c => { c with empty := delRange g x.immB c.empty }).retire 3) ∧
    (s.canWrite (.s f.d false) → x.immB ≤ 64 → ∃ v : Word, exec (.tstfe f x) s = .next (done s [.s f.a f.ta] f.d v 3) ∧
      ∀ i, i < 64 → v.getLsbD i = (decide (i < x.immB) && decide (g + i ∉ s.myCore.empty)))

namespace Sys2Proof.Claims

open Sys2Proof.Machine

/-- A map result: status in [63:56], value below (R18). -/
def mapWord (status value : Nat) : Word := BitVec.ofNat 64 (status * 2 ^ 56 + value)

/-- A form with the key in a register, or in a literal: its key, its sources besides `more`, and its words (R42, R157). -/
def keyOf (f : RF) (lit : Option Word) (s : State) : Word := match lit with | none => s.sval f.a | some k => k
def keySrcs (f : RF) (lit : Option Word) : List Opnd := match lit with | none => [.s f.a f.ta] | some _ => []

/-- The local map may be used (R159, R400). -/
def mapUsable (s : State) : Prop := s.cur.core < 256 ∧ s.haspForeign = false

/-- A local map action's next state: the core's map changed in the same action, the result delivered 6 cycles later (R155). -/
def mapped (p : State) (change : List KeyEntry → List KeyEntry) (d : Reg) (x : Word) (n : Nat) : State :=
  ((p.modMyCore fun c => { c with keys := change c.keys }).laterS 6 d x).retire n

/-- The same without a change of the map. -/
def looked (p : State) (d : Reg) (x : Word) (n : Nat) : State := (p.laterS 6 d x).retire n

/-- The entry of a key replaced. -/
def withEntry (key : Word) (g : KeyEntry → KeyEntry) (l : List KeyEntry) : List KeyEntry := updateFirst (fun e => e.key == key) g l

/-- What a form that looks up a key does (R157): MISS, COLLIDE, or `found`. -/
def MapForm (i : Instr) (s p : State) (key : Word) (check : BitVec 32) (d : Reg) (n : Nat) (found : KeyEntry → Prop) : Prop :=
  (s.myCore.keys.find? (fun e => e.key == key) = none → exec i s = .next (looked p d (mapWord 1 0) n)) ∧
  ∀ e, s.myCore.keys.find? (fun e => e.key == key) = some e →
    (e.check ≠ check → exec i s = .next (looked p d (mapWord 2 0) n)) ∧ (e.check = check → found e)

end Sys2Proof.Claims

/-- R155, R157, R158. KLOOK, KPIN, KUNPIN and KUNBIND, with a register or a literal key, once the strand's earlier accesses have taken effect
(R301): MISS for an unknown key, COLLIDE for another
check word; a pinning form counts up and traps (Pin Overflow) at 65,535; KUNPIN counts down, traps (Pin Underflow) at 0, and removes an
orphaned entry with its last pin; KUNBIND removes an entry without pins and reports PINNED otherwise. -/
def Sys2Proof.Claims.LocalMapLookups : Prop :=
  ∀ (f : RF) (lit : Option Word) (s : State),
    let srcs := keySrcs f lit ++ [.s f.b f.tb]
    let p := (s.popAll srcs).tellCore
    let key := keyOf f lit s
    let check : BitVec 32 := (s.sval f.b).setWidth 32
    let n := match lit with | none => 1 | some _ => 3
    let pick (mk : RF → Instr) (mkLit : RF → Word → Instr) : Instr := match lit with | none => mk f | some k => mkLit f k
    mapUsable s → s.canIssue srcs [.s f.d false] → s.quiet s.cur = true →
    MapForm (pick .klook .klookLiteral) s p key check f.d n (fun e =>
      (f.qf.getLsbD 0 = false → exec (pick .klook .klookLiteral) s = .next (looked p f.d (mapResult 0 e.slot) n)) ∧
      (f.qf.getLsbD 0 = true → e.pin < 65535 → exec (pick .klook .klookLiteral) s =
        .next (mapped p (withEntry key fun e => { e with pin := e.pin + 1 }) f.d (mapResult 0 e.slot) n)) ∧
      (f.qf.getLsbD 0 = true → 65535 ≤ e.pin → exec (pick .klook .klookLiteral) s = .next (s.trapAt 0x23 0 s.me.pc))) ∧
    MapForm (pick .kpin .kpinLiteral) s p key check f.d n (fun e =>
      (e.pin < 65535 → exec (pick .kpin .kpinLiteral) s =
        .next (mapped p (withEntry key fun e => { e with pin := e.pin + 1 }) f.d (mapResult 0 e.slot) n)) ∧
      (65535 ≤ e.pin → exec (pick .kpin .kpinLiteral) s = .next (s.trapAt 0x23 0 s.me.pc))) ∧
    MapForm (pick .kunpin .kunpinLiteral) s p key check f.d n (fun e =>
      (e.pin = 0 → exec (pick .kunpin .kunpinLiteral) s = .next (s.trapAt 0x24 0 s.me.pc)) ∧
      (e.pin ≠ 0 → ¬(e.pin = 1 ∧ e.binder = none) → exec (pick .kunpin .kunpinLiteral) s =
        .next (mapped p (withEntry key fun e => { e with pin := e.pin - 1 }) f.d (mapResult 0 e.slot) n)) ∧
      (e.pin = 1 → e.binder = none → exec (pick .kunpin .kunpinLiteral) s = .next (
        ((((p.modMyCore fun c => { c with keys := c.keys.filter fun e => e.key != key }).tumble p.cur.core).laterS 6 f.d
          (mapResult 0 e.slot)).retire n)))) ∧
    MapForm (pick .kunbind .kunbindLiteral) s p key check f.d n (fun e =>
      (e.pin ≠ 0 → exec (pick .kunbind .kunbindLiteral) s = .next (looked p f.d (mapWord 5 0) n)) ∧
      (e.pin = 0 → exec (pick .kunbind .kunbindLiteral) s =
        .next (mapped p (fun l => l.filter fun e => e.key != key) f.d (mapResult 0 e.slot) n)))

/-- R19, R156-R158. KBIND: BOUND for a key that is bound with the check word (pinned under .p), COLLIDE under another; BUSY for a busy slot,
NOALLOW beyond the allowance; otherwise a new entry, its granules emptied under .emp. A slot above 247 traps (Slot Reserved). -/
def Sys2Proof.Claims.LocalMapBind : Prop :=
  ∀ (f : RF) (x : Ext) (lit : Option Word) (s : State),
    let srcs := keySrcs f lit ++ [.s f.b f.tb, .s x.c0 false]
    let p := (s.popAll srcs).tellCore
    let key := keyOf f lit s
    let check : BitVec 32 := (s.sval f.b).setWidth 32
    let slot := (s.sval x.c0).toNat % 256
    let n := match lit with | none => 3 | some _ => 5
    let i : Instr := match lit with | none => .kbind f x | some k => .kbindLiteral f x k
    let e? := s.myCore.keys.find? fun e => e.key == key
    mapUsable s → s.canIssue srcs [.s f.d false] → s.quiet s.cur = true →
    (247 < slot → exec i s = .next (s.trapAt 0x20 0 s.me.pc)) ∧
    (slot ≤ 247 →
      (∀ e, e? = some e → e.check ≠ check → exec i s = .next (looked p f.d (mapWord 2 0) n)) ∧
      (∀ e, e? = some e → e.check = check → f.qf.getLsbD 0 = false → exec i s = .next (looked p f.d (mapResult 3 e.slot) n)) ∧
      (∀ e, e? = some e → e.check = check → f.qf.getLsbD 0 = true → e.pin < 65535 → exec i s =
        .next (mapped p (withEntry key fun e => { e with pin := e.pin + 1 }) f.d (mapResult 3 e.slot) n)) ∧
      (e? = none → s.myCore.slotBusy slot = true → exec i s = .next (looked p f.d (mapWord 4 0) n)) ∧
      (e? = none → s.myCore.slotBusy slot = false → (if s.cur.pos = 16 then 0 else s.myCrew.hold.sl) < s.myCharge + 1 →
        exec i s = .next (looked p f.d (mapWord 6 0) n)) ∧
      (e? = none → s.myCore.slotBusy slot = false → s.myCharge + 1 ≤ (if s.cur.pos = 16 then 0 else s.myCrew.hold.sl) →
        exec i s = .next (((p.modMyCore fun c => { c with
          keys := c.keys ++ [⟨key, check, slot, if f.qf.getLsbD 0 then 1 else 0, some s.myCrew.task⟩]
          empty := if f.qf.getLsbD 1 then addRange (1024 * slot) 1024 c.empty else c.empty }).laterS 6 f.d (mapWord 0 slot)).retire n)))

/-- R160, R161. KSTAT reads an entry's state word; KVICT suggests a free slot to a crew below its allowance, from one above the last
suggestion upward, which it makes the last one. -/
def Sys2Proof.Claims.LocalMapStateAndVictim : Prop :=
  (∀ (f : RF) (lit : Option Word) (s : State), mapUsable s → s.canIssue (keySrcs f lit) [.s f.d false] → s.quiet s.cur = true →
    let p := (s.popAll (keySrcs f lit)).tellCore
    let n := match lit with | none => 1 | some _ => 3
    let i : Instr := match lit with | none => .kstat f | some k => .kstatLiteral f k
    (s.myCore.keys.find? (fun e => e.key == keyOf f lit s) = none → exec i s = .next (looked p f.d (mapWord 1 0) n)) ∧
    ∀ e, s.myCore.keys.find? (fun e => e.key == keyOf f lit s) = some e → e.slot < 256 → e.pin < 65536 →
      ∃ v : Word, exec i s = .next (looked p f.d v n) ∧ v.toNat / 2 ^ 56 = 0 ∧ v.toNat % 256 = e.slot ∧ v.toNat / 2 ^ 16 % 2 ^ 16 = e.pin ∧
        (v.getLsbD 46 = e.binder.isNone) ∧ v.toNat / 2 ^ 32 % 2 ^ 14 = (e.binder.getD 0) % 2 ^ 14) ∧
  ∀ (f : RF) (s : State), mapUsable s → s.canIssue [] [.s f.d false] → s.quiet s.cur = true → s.cur.pos ≠ 16 → s.myCharge < s.myCrew.hold.sl →
    ∀ x, x < 248 → s.myCore.slotBusy x = false →
      (∀ y, y < 248 → s.myCore.slotBusy y = false → (x + 248 - (s.myCore.lastKvict + 1) % 248) % 248 ≤ (y + 248 - (s.myCore.lastKvict + 1) % 248) % 248) →
      exec (.kvict f) s = .next (((s.tellCore.modMyCore fun c => { c with lastKvict := x }).laterS 6 f.d (mapWord 0 x)).retire 1)

/-! ### Shared maps (spec 07 R162-R165) -/

/-- R163, R165, R386. The shared forms, where feature 3 is accepted, the map exists and the strand's earlier accesses are done: the
destination is reserved, or its append takes its place where it is bound (R136), and the operation goes to the map's home; an absent map traps (Map
Absent). Of a strand that runs no task, the Hasp or a supervisor strand, the operation names task 0; the strand's own device is the home (DESIGN
CHOICE, log 26). -/
def Sys2Proof.Claims.SharedMapFormsIssue : Prop :=
  ∀ (kind : Nat) (f : RF) (x : Ext) (lit : Option Word) (s : State), kind < 6 →
    let srcs := keySrcs f lit ++ (if kind = 5 then [] else [.s f.b f.tb]) ++ if kind = 1 then [.s x.c0 false] else []
    let pick (mk : RF → Ext → Instr) (mkLit : RF → Ext → Word → Instr) : Instr := match lit with | none => mk f x | some k => mkLit f x k
    let i := match kind with
      | 0 => pick .kmlook .kmlookLiteral
      | 1 => pick .kmbind .kmbindLiteral
      | 2 => pick .kmpin .kmpinLiteral
      | 3 => pick .kmunpin .kmunpinLiteral
      | 4 => pick .kmunbind .kmunbindLiteral
      | _ => pick .kmstat .kmstatLiteral
    let n := match lit with | none => 3 | some _ => 5
    s.feature 3 = true → s.canIssue srcs [.s f.d false] →
    (s.smap (s.pidOf s.cur) x.handle.toNat = none → exec i s = .next (s.trapAt 0x25 0 s.me.pc)) ∧
    (s.smap (s.pidOf s.cur) x.handle.toNat ≠ none → (∀ o ∈ srcs, s.unbound o) → s.quiet s.cur = true →
      exec i s = .next ((((s.book (.s f.d false)).2.reserve (.s f.d false)).postFree 1024 (.sharedMapHomeAction
        { sid := s.cur, pid := s.pidOf s.cur, map := x.handle.toNat, kind := kind
          pin := if kind = 2 then true else if kind = 0 ∨ kind = 1 then f.qf.getLsbD 0 else false
          key := keyOf f lit s, check := (s.sval f.b).setWidth 32, value := if kind = 1 then (s.sval x.c0).setWidth 32 else 0
          task := if s.cur.pos = 16 ∨ 256 ≤ s.cur.core then 0 else s.myCrew.task, d := f.d, pc := s.me.pc
          app := (s.book (.s f.d false)).1 })).retire n))

/-- R163-R165. At the home: an operation on a key that is not bound finds MISS, and one that only reads a bound key delivers its status
and value; memory is unchanged by both. The reply comes within the time the model leaves open (log 2). -/
def Sys2Proof.Claims.SharedMapHomeReads : Prop :=
  ∀ (op : SMapOp) (s : State) (log base : Nat), s.smap op.pid op.map = some (log, base) → peerOf op.sid.pos = none →
    base + 40 * 2 ^ log ≤ 576 * 2 ^ 30 → s.oob = false → op.app = none →
    let reply (x : Word) : Prop := ∃ (t : State) (due : Nat), exec (.sharedMapHomeAction op) s = .next t ∧ due ≤ s.cycle + 1024 ∧
      t.pending = s.pending ++ [⟨due, .deliver
        { sid := op.sid, owner := s.ownerOf op.sid, sregs := [(op.d, x)], bytes := [], lines := [], win := [] }⟩] ∧
      (∀ a, t.mem.read a = s.mem.read a)
    (findKey s.mem log base op.key = none → op.kind ≠ 1 → reply (mapWord 1 0)) ∧
    ∀ i, findKey s.mem log base op.key = some i →
      let e := s.mem.readNat (base + 32 * i) 32
      (op.kind ≠ 5 → e / 2 ^ 64 % 2 ^ 32 ≠ op.check.toNat → reply (mapWord 2 0)) ∧
      (e / 2 ^ 64 % 2 ^ 32 = op.check.toNat → op.kind = 0 → op.pin = false → reply (mapWord 0 (e / 2 ^ 96 % 2 ^ 32))) ∧
      (e / 2 ^ 64 % 2 ^ 32 = op.check.toNat → op.kind = 4 → e / 2 ^ 128 % 2 ^ 16 ≠ 0 → reply (mapWord 5 0)) ∧
      (op.kind = 5 → reply (mapWord 0 (e / 2 ^ 128 % 2 ^ 16 * 2 ^ 16 + e / 2 ^ 160 % 2 ^ 14)))

/-- R164, R165. A KMBIND of a new key and value fills one unused key-table entry and one unused index entry as R164 lays them out, and
changes no other byte of memory; the first place that a probe finds unused is on the key's own probe. -/
def Sys2Proof.Claims.SharedMapBindFillsTwoEntries : Prop :=
  ∀ (op : SMapOp) (s : State) (log base i v : Nat), s.smap op.pid op.map = some (log, base) → peerOf op.sid.pos = none →
    base + 40 * 2 ^ log ≤ 576 * 2 ^ 30 → s.oob = false → op.kind = 1 → findKey s.mem log base op.key = none →
    findVal s.mem log base op.value.toNat = none → usedCount s.mem log base < 2 ^ log → log ≤ 16 →
    probeFree (2 ^ log) (keyUsed s.mem base) (2 ^ log) (keyHome log op.key) = some i →
    probeFree (2 ^ log) (valUsed s.mem log base) (2 ^ log) (valHome log op.value.toNat) = some v →
    i < 2 ^ log ∧ v < 2 ^ log ∧ keyUsed s.mem base i = false ∧
    ∃ t, exec (.sharedMapHomeAction op) s = .next t ∧
      t.mem.readNat (base + 32 * i) 32 = op.key.toNat + op.check.toNat * 2 ^ 64 + op.value.toNat * 2 ^ 96 +
        (if op.pin then 1 else 0) * 2 ^ 128 + op.task % 2 ^ 14 * 2 ^ 160 + 2 ^ 191 ∧
      t.mem.readNat (base + 32 * 2 ^ log + 8 * v) 8 = op.value.toNat + i * 2 ^ 32 + 2 ^ 63 ∧
      ∀ a, ¬(base + 32 * i ≤ a ∧ a < base + 32 * i + 32) → ¬(base + 32 * 2 ^ log + 8 * v ≤ a ∧ a < base + 32 * 2 ^ log + 8 * v + 8) →
        t.mem.read a = s.mem.read a

/-! ### Records, addresses and the memory forms (spec 09 R171-R185, R194-R201) -/

namespace Sys2Proof.Claims

open Sys2Proof.Machine

/-- TYPE fits the record's format (R172): none, the same, or integers of one size. -/
def fits (x : Ext) (r : Nat) : Prop :=
  x.type = 0 ∨ x.type.toNat = recFormat r ∨
    (1 ≤ x.type.toNat ∧ x.type.toNat ≤ 8 ∧ 1 ≤ recFormat r ∧ recFormat r ≤ 8 ∧ typeSize x.type.toNat = typeSize (recFormat r))

/-- A record with a permission that takes `n` coordinates; host space only where feature 9 is accepted (R175, R182, R386). -/
def usable (x : Ext) (n : Nat) (perm : Nat → Bool) (r : Nat) (s : State) : Prop :=
  fits x r ∧ perm r = true ∧ (recSpace r = 1 → s.feature 9 = true) ∧ n ≤ recRank r

/-- Coordinates in range, those not given being 0 (R175). -/
def inside (r : Nat) (ks : List Nat) : Prop := ∀ i, i < recRank r → (padCoords ks).getD i 0 < recExt r i

/-- What an atomic, lock or sync form, or WAITNE, asks for: one element in range of one of these sizes (R194, R198, R200, R201). -/
def oneInside (x : Ext) (perm : Nat → Bool) (sizes : List Nat) (r : Nat) (s : State) : Prop :=
  typeSize (recFormat r) ∈ sizes ∧ usable x (coordRegs x).length perm r s ∧ inside r (coordsOf x s)

/-- The permission that atomics ask for (R194): A, in device memory of this or a peer device. -/
def atomicRecord (r : Nat) : Bool := recA r && (recSpace r == 0 || recSpace r == 2)

/-- A record form completes (R182): with its operands ready, its record decoded and allowed, room for one more request, and no earlier store
of the strand to the same bytes on its way (R296), the request that `fill` describes leaves; `next` tells how the strand goes on. -/
def RecordIssues (i : Instr) (f : RF) (x : Ext) (kind : ReqKind) (srcs dsts : List Opnd) (ok : Nat → State → Prop)
    (fill : Nat → State → Req → Req) (next : Nat → State → Req → State → State) : Prop :=
  ∀ (s : State) (r : Nat), s.canIssue srcs dsts → s.record s.cur.core (s.pidOf s.cur) x.handle.toNat = .ok r → ok r s →
    s.stalls (fill r s { s.blankReq kind x r s.serial with vals := keptVals f x s }) = false →
    s.behindStore (fill r s { s.blankReq kind x r s.serial with vals := keptVals f x s }) = false →
    exec i s = .next (next r s (fill r s { s.blankReq kind x r s.serial with vals := keptVals f x s }) (s.nextSerial.2.popAll srcs))

/-- The enabled elements of a vector access: element j lies in lane j * size / 4 (R182). -/
def enabledElements (x : Ext) (size : Nat) (s : State) : List Nat :=
  (List.range (512 / size)).filter fun j => (s.me.mask x.mask.toNat).getLsbD (j * size / 4)

/-- The elements of a vector access that must be in range where PAD says fault: the enabled ones, or the first of none (R182, R184). -/
def vectorInside (x : Ext) (r : Nat) (s : State) : Prop :=
  let on := enabledElements x (typeSize (recFormat r)) s
  ∀ j ∈ (if on = [] then [0] else on), inside r (bumpCoord (coordsOf x s) 0 j)

/-- Coordinates of a gather or scatter: the lane's index, then the registers given (R185). -/
def gatherCoords (x : Ext) (idx : Reg) (s : State) (j : Nat) : List Nat :=
  padCoords (((s.vlanes idx).getD j 0).toNat :: if x.xm = 1 then (coordRegs x).map fun c => (s.sval c).toNat else [])

/-- The lanes enabled. -/
def enabledLanes (x : Ext) (s : State) : List Nat := (List.range 128).filter fun j => (s.me.mask x.mask.toNat).getLsbD j

/-- A gather's or scatter's record: an element size of at most 4, one coordinate for the index, and those of enabled lanes whose index
is in range must be in range where PAD says fault (R185). -/
def gatherable (x : Ext) (idx : Reg) (perm : Nat → Bool) (r : Nat) (s : State) : Prop :=
  typeSize (recFormat r) ≤ 4 ∧ usable x ((if x.xm = 1 then (coordRegs x).length else 0) + 1) perm r s ∧
    (recPad r = 0 → ∀ j ∈ (if enabledLanes x s = [] then [0] else enabledLanes x s),
      (gatherCoords x idx s j).headD 0 < recExt r 0 → inside r (gatherCoords x idx s j))

/-- The sign extension of a load (R147). -/
def loadSigned (x : Ext) (r : Nat) : Bool := let t := if x.type = 0 then recFormat r else x.type.toNat; 1 ≤ t && t ≤ 4

end Sys2Proof.Claims

/-- R182, R184. LD, ST, VLD and VST complete: one request for all the enabled elements; where no element is enabled, the address is
translated and nothing accessed. -/
def Sys2Proof.Claims.LoadsAndStoresIssue : Prop :=
  ∀ (f : RF) (x : Ext),
    RecordIssues (.ldDevice f x) f x .load (coordOpnds x) [.s f.d false]
      (fun r s => usable x (coordRegs x).length recR r s ∧ (recPad r = 0 → inside r (coordsOf x s)))
      (fun r s q => { q with
        dst := .scalar f.d, spin := f.qf.getLsbD 0, elems := [loadElem r (dieOf s.cur.core) 0 8 (loadSigned x r) (coordsOf x s)] })
      (fun _ _ q u => goOnSettle [.s f.d false] q u) ∧
    RecordIssues (.stDevice f x) f x .store (coordOpnds x ++ [.s f.a f.ta]) []
      (fun r s => usable x (coordRegs x).length recW r s ∧ (recPad r = 0 → inside r (coordsOf x s)))
      (fun r s q => { q with
        elems := storeElems r (dieOf s.cur.core) 0 (bytesOfNat (typeSize (recFormat r)) (s.sval f.a).toNat) (coordsOf x s) })
      (fun _ _ q u => goOnSettle [] q u) ∧
    RecordIssues (.vldDevice f x) f x .load (coordOpnds x) [.v f.d false]
      (fun r s => usable x (coordRegs x).length recR r s ∧ (recPad r = 0 → vectorInside x r s))
      (fun r s q =>
        let size := typeSize (recFormat r)
        let on := enabledElements x size s
        { q with
          dst := .space (s.me.place (.v f.d false)).1, spin := f.qf.getLsbD 0
          elems := if on = [] then zeroElem r (dieOf s.cur.core) (padCoords (coordsOf x s))
            else on.map fun j => loadElem r (dieOf s.cur.core) (j * size) size false (bumpCoord (coordsOf x s) 0 j) })
      (fun _ _ q u => goOnSettle [.v f.d false] q u) ∧
    RecordIssues (.vstDevice f x) f x .store (coordOpnds x ++ [.v f.a f.ta]) []
      (fun r s => usable x (coordRegs x).length recW r s ∧ (recPad r = 0 → vectorInside x r s))
      (fun r s q =>
        let size := typeSize (recFormat r)
        let on := enabledElements x size s
        { q with
          elems := if on = [] then zeroElem r (dieOf s.cur.core) (padCoords (coordsOf x s))
            else on.flatMap fun j =>
              storeElems r (dieOf s.cur.core) (j * size) (((s.vbytes f.a).drop (j * size)).take size) (bumpCoord (coordsOf x s) 0 j) })
      (fun _ _ q u => goOnSettle [] q u)

/-- R185, R114. GATHER and SCATTER complete; a gather's enabled lanes out of range take the pad value, or zero, and are counted in
GATHER_DROPS, which saturates; a scatter's are discarded. With XM 00 the other coordinates of a tensor of rank above 1 are 0 (DESIGN CHOICE, log 26). -/
def Sys2Proof.Claims.GatherAndScatterIssue : Prop :=
  ∀ (f : RF) (x : Ext),
    RecordIssues (.gather f x) f x .load (sideOpnds x ++ [.v f.a f.ta]) [.v f.d false] (gatherable x f.a recR)
      (fun r s q =>
        let size := typeSize (recFormat r)
        let on := enabledLanes x s
        { q with
          dst := .space (s.me.place (.v f.d false)).1, vec := s.vbytes f.a
          elems := if on = [] then zeroElem r (dieOf s.cur.core) (gatherCoords x f.a s 0)
            else on.map fun j =>
              if (gatherCoords x f.a s j).headD 0 < recExt r 0 then
                loadElem r (dieOf s.cur.core) (4 * j) 4 (loadSigned x r) (gatherCoords x f.a s j)
              else elemDone size (4 * j) 4 (loadSigned x r) (bytesOfNat size (if recPad r = 1 then recPadv r else 0)) })
      (fun r s q u => goOnSettle [.v f.d false] q (u.modMe fun st => { st with
        gatherDrops := BitVec.ofNat 32 (min (st.gatherDrops.toNat +
          (enabledLanes x s).countP fun j => recExt r 0 ≤ (gatherCoords x f.a s j).headD 0) (2 ^ 32 - 1)) })) ∧
    RecordIssues (.scatter f x) f x .store (sideOpnds x ++ [.v f.b f.tb, .v f.a f.ta]) [] (gatherable x f.b recW)
      (fun r s q =>
        let size := typeSize (recFormat r)
        let on := enabledLanes x s
        { q with
          elems := if on = [] then zeroElem r (dieOf s.cur.core) (gatherCoords x f.b s 0)
            else on.flatMap fun j =>
              storeElems r (dieOf s.cur.core) (4 * j) (((s.vbytes f.a).drop (4 * j)).take size) (gatherCoords x f.b s j) })
      (fun _ _ q u => goOnSettle [] q u)

/-- R194-R197. The atomic forms complete: one request with the operands' values; the strand goes on with the destination empty. That a leg of a chase
takes at most 40 cycles is the model's choice (log 2); so is that only the named element of ACAS4 and AENQ must be in range, and that an .i64 record
does under TYPE 0 (DESIGN CHOICE, log 26). -/
def Sys2Proof.Claims.AtomicsIssue : Prop :=
  (∀ (f : RF) (x : Ext) (p : Nat × (RF → Ext → Instr) × List Opnd),
    p ∈ [(0, Instr.aadd, []), (1, .amin, []), (2, .amax, []), (3, .aand, []), (4, .aor, []), (5, .axor, []), (6, .aswap, []),
      (7, .acas, [Opnd.s f.b f.tb])] →
    RecordIssues (p.2.1 f x) f x (.atomic p.1) (coordOpnds x ++ .s f.a f.ta :: p.2.2) [.s f.d false] (oneInside x atomicRecord [4, 8])
      (fun r s q => { q with
        dst := .scalar f.d, x := s.sval f.a, y := s.sval f.b
        elems := [elemAt (locate r (dieOf s.cur.core) (coordsOf x s)) (typeSize (recFormat r)) 0 8 (loadSigned x r) []] })
      (fun _ _ q u => goOn [.s f.d false] q u)) ∧
  (∀ (f : RF) (x : Ext),
    RecordIssues (.acas4 f x) f x (.atomic 8) (coordOpnds x ++ [.v f.a f.ta, .v f.b f.tb]) [.v f.d false]
      (fun r s => oneInside x atomicRecord [8] r s ∧ recStride r 0 = 8 ∧ locate r (dieOf s.cur.core) (coordsOf x s) % 64 ≤ 32)
      (fun r s q => { q with
        dst := .space (s.me.place (.v f.d false)).1, xs := (s.vbytes f.a).take 32, ys := (s.vbytes f.b).take 33
        vec := (s.vbytes f.a).take 32 ++ (s.vbytes f.b).take 33 ++ List.replicate 447 0
        elems := [elemAt (locate r (dieOf s.cur.core) (coordsOf x s)) 32 0 512 false []] })
      (fun _ _ q u => goOn [.v f.d false] q u) ∧
    RecordIssues (.aenq f x) f x (.atomic 9) (coordOpnds x ++ [.s f.a f.ta]) [.s f.d false]
      (fun r s => oneInside x atomicRecord [8] r s ∧ recStride r 0 = 8 ∧ locate r (dieOf s.cur.core) (coordsOf x s) % 16 = 0)
      (fun r s q => { q with
        dst := .scalar f.d, x := s.sval f.a, elems := [elemAt (locate r (dieOf s.cur.core) (coordsOf x s)) 16 0 8 false []] })
      (fun _ _ q u => goOn [.s f.d false] q u)) ∧
  ∀ (f : RF) (x : Ext) (s : State), s.canIssue [.s f.a f.ta, .s f.b f.tb] [.s f.d false, .s x.c0 false] → s.outstanding s.cur < 16 →
    let q : Req := { s.blankReq .chase x 0 s.serial with
      type := 8, dst := .scalar f.d, dst2 := x.c0, x := s.sval f.a, y := s.sval f.b, vals := keptVals f x s }
    let b := q.booked [.s f.d false, .s x.c0 false] (s.nextSerial.2.popAll [.s f.a f.ta, .s f.b f.tb])
    exec (.achase f x) s = .next (((((b.2.reserve (.s f.d false)).reserve (.s x.c0 false)).addReq b.1).postFree 40
      (.atomicHomeApply s.serial)).retire 3)

/-- R198-R201, R386. Lock, sync-word and wait forms complete their issue: RWRD, RWWR, LDSYNC, STSYNC (feature 4) and WAITNE wait in the
instruction for the reply, the destination of WAITNE reserved; the releases and RWTRY go on. That the destination of RWRD, RWWR and LDSYNC is not
emptied meanwhile is the model's reading (DEDUCED, log 20). -/
def Sys2Proof.Claims.LocksAndSyncWordsIssue : Prop :=
  ∀ (f : RF) (x : Ext),
    let element : Nat → State → List Elem := fun r s => [elemAt (locate r (dieOf s.cur.core) (coordsOf x s)) 8 0 8 false []]
    RecordIssues (.rwrd f x) f x (.lock 0 false) (coordOpnds x) [.s f.d false] (oneInside x atomicRecord [8])
      (fun r s q => { q with dst := .scalar f.d, elems := element r s }) (fun _ _ q u => goWait q u) ∧
    RecordIssues (.rwwr f x) f x (.lock 1 true) (coordOpnds x) [.s f.d false] (oneInside x atomicRecord [8])
      (fun r s q => { q with dst := .scalar f.d, elems := element r s }) (fun _ _ q u => goWait q u) ∧
    RecordIssues (.rwrdx f x) f x (.lock 2 false) (coordOpnds x) [] (oneInside x atomicRecord [8])
      (fun r s q => { q with dst := .none, elems := element r s }) (fun _ _ q u => goOn [] q u) ∧
    RecordIssues (.rwwrx f x) f x (.lock 3 true) (coordOpnds x) [] (oneInside x atomicRecord [8])
      (fun r s q => { q with dst := .none, elems := element r s }) (fun _ _ q u => goOn [] q u) ∧
    RecordIssues (.rwtry f x) f x (.lock 4 (f.qf.getLsbD 0)) (coordOpnds x) [.s f.d false] (oneInside x atomicRecord [8])
      (fun r s q => { q with dst := .scalar f.d, elems := element r s }) (fun _ _ q u => goOn [.s f.d false] q u) ∧
    RecordIssues (.ldsync f x) f x .ldsync (coordOpnds x) [.s f.d false] (fun r s => s.feature 4 = true ∧ oneInside x atomicRecord [8] r s)
      (fun r s q => { q with dst := .scalar f.d, elems := element r s }) (fun _ _ q u => goWait q u) ∧
    RecordIssues (.stsync f x) f x .stsync (coordOpnds x ++ [.s f.a f.ta]) []
      (fun r s => s.feature 4 = true ∧ oneInside x atomicRecord [8] r s)
      (fun r s q => { q with
        x := s.sval f.a, elems := [elemAt (locate r (dieOf s.cur.core) (coordsOf x s)) 8 0 0 false []] }) (fun _ _ q u => goWait q u) ∧
    RecordIssues (.waitne f x) f x .waitne (coordOpnds x ++ [.s f.a f.ta]) [.s f.d false] (oneInside x recR [1, 2, 4, 8])
      (fun r s q => { q with
        dst := .scalar f.d, x := s.sval f.a
        elems := [elemAt (locate r (dieOf s.cur.core) (coordsOf x s)) (typeSize (recFormat r)) 0 8 (loadSigned x r) []] })
      (fun _ _ q u => goWait q (u.reserve (.s f.d false)))

/-- R175-R177, R182. Where an element lies: the base plus the coordinates times the strides, modulo 2^58 (in the remote-slot space, a slot
address of the target core), the row of a hot tensor's last dimension being the issuing die's replica; a store of a hot row goes to all four;
a load out of range takes the pad value. That a remote-slot tensor with HOT is located by replica rows too is the model's choice (DESIGN CHOICE,
log 26). -/
def Sys2Proof.Claims.AddressOfAnElement : Prop :=
  ∀ (r die : Nat) (ks : List Nat),
    let t := recRank r - 1
    let k (i : Nat) : Nat := (padCoords ks).getD i 0
    let first : Int := if recSpace r = 3 then 16384 * recSlot r + recSlotOff r else recBase r
    let size : Int := if recSpace r = 3 then 2 ^ 22 else 2 ^ 58
    let address (row : Nat) : Int := (first + row * recStride r t + ((List.range t).map fun i => (k i : Int) * recStride r i).sum) % size
    ((locate r die ks : Int) = address (if k t < recHot r then die * recHot r + k t else 3 * recHot r + k t)) ∧
    (∀ (put : Nat) (data : List Byte), inside r ks →
      (storeElems r die put data ks).map (fun e => ((e.va : Int), e.size, e.put, e.data)) =
        (if k t < recHot r then (List.range 4).map fun d => (address (d * recHot r + k t), typeSize (recFormat r), put, data)
        else [(address (3 * recHot r + k t), typeSize (recFormat r), put, data)])) ∧
    (∀ (put : Nat) (data : List Byte), ¬inside r ks → storeElems r die put data ks = []) ∧
    ∀ (put width : Nat) (signed : Bool),
      (inside r ks → loadElem r die put width signed ks = elemAt (locate r die ks) (typeSize (recFormat r)) put width signed []) ∧
      (¬inside r ks → loadElem r die put width signed ks = elemDone (typeSize (recFormat r)) put width signed
        (bytesOfNat (typeSize (recFormat r)) (if recPad r = 1 then recPadv r else 0)))

/-- R174, R179-R181. LREAD reads a dword of the cached record; LWRITE stages seven dwords and writes the table entry with the eighth, and
every layout cache drops the record; LNARROW writes a derived record or traps (Narrow Invalid); a fetched record enters the cache. -/
def Sys2Proof.Claims.LayoutRecordForms : Prop :=
  (∀ (f : RF) (x : Ext) (s : State), x.handle ≠ 0xFFFF#16 →
    ∀ e, s.myCore.lcache.find? (fun e => e.1 == recKey (s.pidOf s.cur) x.handle.toNat) = some e → s.canWrite (.s f.d false) →
      exec (.lread f x) s = .next ((s.putS f.d (BitVec.ofNat 64 (e.2 / 2 ^ (64 * x.immA)))).retire 3)) ∧
  (∀ (f : RF) (x : Ext) (s : State), s.me.priv = true → s.oob = false → s.canIssue [.s f.a f.ta] [] → x.handle ≠ 0xFFFF#16 → x.immA < 7 →
    exec (.lwrite f x) s = .next (((s.popAll [.s f.a f.ta]).modMe fun st =>
      { st with stage := st.stage.setIfInBounds x.immA (s.sval f.a) }).retire 3)) ∧
  (∀ (f : RF) (x : Ext) (s : State) (at_ : Nat), s.cur.pos < 17 → s.me.priv = true → s.oob = false → s.canIssue [.s f.a f.ta] [] →
    x.handle ≠ 0xFFFF#16 → x.immA = 7 → s.layoutAt (s.pidOf s.cur) x.handle.toNat = some at_ →
    at_ + 64 ≤ 576 * 2 ^ 30 →
    ∃ t, exec (.lwrite f x) s = .next t ∧ (∀ i, i < 7 → t.mem.readNat (at_ + 8 * i) 8 = (s.me.stage.toList.getD i 0).toNat) ∧
      t.mem.readNat (at_ + 56) 8 = (s.sval f.a).toNat ∧ (∀ b, b < at_ ∨ at_ + 64 ≤ b → t.mem.read b = s.mem.read b) ∧
      ∀ c, ∀ e ∈ (t.core c).lcache, e.1 ≠ recKey (s.pidOf s.cur) x.handle.toNat) ∧
  (∀ (f : RF) (x : Ext) (s : State) (r at_ : Nat), s.oob = false → s.canIssue [.s f.a f.ta, .v f.b f.tb] [] →
    s.record s.cur.core (s.pidOf s.cur) x.handle.toNat = .ok r →
    let h := (s.sval f.a).toNat % 2 ^ 16
    s.layoutAt (s.pidOf s.cur) h = some at_ → at_ + 64 ≤ 576 * 2 ^ 30 →
    (narrowed r h (s.vbytes f.b) = none → exec (.lnarrow f x) s = .next (s.trapAt 0x2E (x.handle.setWidth 64) s.me.pc)) ∧
    ∀ n, narrowed r h (s.vbytes f.b) = some n →
      exec (.lnarrow f x) s = .next (((s.popAll [.s f.a f.ta, .v f.b f.tb]).storeRecord (s.pidOf s.cur) h n).retire 3) ∧
      recN r = true ∧ 0xF000 ≤ h ∧ h ≠ 0xFFFF ∧ recFormat n = recFormat r ∧ recRank n = recRank r ∧
      ∀ i, i < recRank r →
        recExt n i = natOfBytes (((s.vbytes f.b).drop (32 + 8 * i)).take 8) ∧ 0 < recExt n i ∧ recStride n i = recStride r i ∧
        natOfBytes (((s.vbytes f.b).drop (8 * i)).take 8) + recExt n i ≤ recExt r i) ∧
  ∀ (core pid handle at_ : Nat) (s : State), s.oob = false → s.layoutAt pid handle = some at_ → at_ + 64 ≤ 576 * 2 ^ 30 →
    ∃ t, exec (.layoutCacheFill core pid handle) s = .next t ∧ t.mem = s.mem ∧
      (t.core core).lcache.find? (fun e => e.1 == recKey pid handle) =
        some (recKey pid handle, s.mem.readNat at_ 64)

/-! ### Requests on their way and at their homes (spec 09 R183, R186-R201; 05 R93) -/

namespace Sys2Proof.Claims

open Sys2Proof.Machine

/-- Element k of a request that is under way. -/
def underWay (s : State) (id k : Nat) (r : Req) (e : Elem) : Prop := s.req? id = some r ∧ r.elems[k]? = some e

/-- A delivered element: its bytes sign-extended or zero-extended to a dword (R147, R182). -/
def loaded (signed : Bool) (size n : Nat) : Word :=
  if signed then (BitVec.ofNat (8 * size) n).signExtend 64 else BitVec.ofNat 64 n

/-- A request of one element for an unbound scalar of a strand on this device. -/
def plainRequest (s : State) (id : Nat) (r : Req) (e : Elem) (d : Reg) : Prop :=
  s.req? id = some r ∧ r.elems = [e] ∧ r.dst = .scalar d ∧ d ≠ 0 ∧ r.sid.pos < 17 ∧ (s.strand r.sid).bound (.s d false) = none ∧
    r.spin = false ∧ r.dead = false ∧ r.source = none ∧ r.app = none ∧ r.failed = 0 ∧ e.width = 8 ∧ (e.size = 1 ∨ e.size = 2 ∨ e.size = 4 ∨ e.size = 8) ∧ r.id = id

/-- A strand that waited inside an instruction of n words for a reply goes on at Next after the loop-back test; the issue was counted when it took
the turn (R88, R108, R114). -/
def goesOn (s t : State) (sid : SId) (serial n : Nat) : Prop :=
  (s.strand sid).wait = some (.reply serial) →
    (t.strand sid).wait = none ∧ (t.strand sid).issued = (s.strand sid).issued ∧
      (t.strand sid).pc = (loopedBack (s.strand sid).loops ((s.strand sid).pc + BitVec.ofNat 64 (4 * n))).2

/-- The request is answered: its scalar holds the value and is full, it is no longer under way, and a strand that waited for it goes on. -/
def answered (s t : State) (id : Nat) (r : Req) (d : Reg) (x : Word) : Prop :=
  (t.strand r.sid).get d = x ∧ (t.strand r.sid).isFull d = true ∧ t.req? id = none ∧ goesOn s t r.sid r.serial 3

/-- The value that an atomic leaves in an integer element of n bits (R194). -/
def atomicValue (op : Nat) (signed : Bool) (n old x y : Nat) : Nat :=
  let less (u v : Nat) : Prop := if signed then (BitVec.ofNat n u).toInt < (BitVec.ofNat n v).toInt else u < v
  let x := x % 2 ^ n
  match op with
  | 0 => (old + x) % 2 ^ n
  | 1 => if less x old then x else old
  | 2 => if less old x then x else old
  | 3 => old &&& x
  | 4 => old ||| x
  | 5 => old ^^^ x
  | 6 => x
  | _ => if old = y % 2 ^ n then x else old

/-- A reader may take a lock word, and a writer may (R198): bit 63 prefers writers, bit 62 is the writer's, bits [61:48] count waiting writers,
bits [47:0] readers. -/
def readerMay (w : Nat) : Prop := w.testBit 62 = false ∧ (w.testBit 63 = false ∨ w / 2 ^ 48 % 2 ^ 14 = 0)
def writerMay (w : Nat) : Prop := w.testBit 62 = false ∧ w % 2 ^ 48 = 0

/-- No attempt of another strand is parked on a word. -/
def noneParked (s : State) (pa : Nat) : Prop := ∀ r ∈ s.reqs, ∀ e ∈ r.elems, e.phase = .parked → e.pa + e.size ≤ pa ∨ pa + 8 ≤ e.pa

end Sys2Proof.Claims

/-- R186, R187. A walk through three valid table entries to a valid leaf of the last level gives that leaf, and the leaf's permission for the
access gives the frame with the offset in the page; a leaf without the permission is a fault of its kind, and an invalid entry means not
mapped. -/
def Sys2Proof.Claims.WalksReachThePage : Prop :=
  ∀ (m : Memory) (va root : Nat),
    let entry (level table : Nat) : Nat := m.readNat (table + 8 * (va / 2 ^ (47 - 11 * level) % 2 ^ 11)) 8
    let frame (e : Nat) : Nat := e / 2 ^ 14 % 2 ^ 38 * 16384
    let e0 := entry 0 root
    let e1 := entry 1 (frame e0)
    let e2 := entry 2 (frame e1)
    let e3 := entry 3 (frame e2)
    let table (level e : Nat) : Prop := e.testBit 0 = true ∧ e.testBit 1 = false ∧ entryMalformed level e = false
    (e0.testBit 0 = false → walkFrom m va 4 0 root = .error 0) ∧
    (table 0 e0 → table 1 e1 → table 2 e2 → e3.testBit 0 = true → entryMalformed 3 e3 = false →
      walkFrom m va 4 0 root = .ok (e3, 3) ∧
      (e3.testBit 7 = true → ∀ need, leafOutcome need va e3 16384 = .migrating) ∧
      (e3.testBit 7 = false → ∀ p ∈ [(Need.load, 3), (.store, 4), (.atomic, 5)],
        leafOutcome p.1 va e3 16384 = if e3.testBit p.2 then .ok (frame e3 + va % 16384) (e3.testBit 63) (e3.testBit 6) 16384 else .fault (p.2 - 2)))

/-- R188, R189, R193. A walk sends a translated element to its home, fails a sync form on a page without SYNC (Sync Page), and holds an element that faults
with one record to the fault buffer, in the place it had if it has been there before; the buffer merges, takes the lowest free entry or counts a drop; a
redirected element walks again. That the page's HOST bit says which home serves the access (log 26), that a held element keeps its place (log 24), and
the times (log 2) are the model's choices. -/
def Sys2Proof.Claims.TranslationAndFaults : Prop :=
  (∀ (s s' : State) (id k : Nat) (r : Req) (e : Elem) (out : Walk), underWay s id k r e → r.id = id → e.phase = .walk → r.space < 2 →
    s.notAccepted (dieOf r.sid.core) r.pid e.va = false → s.peerInTurn r = true → s.pageFaulted (dieOf r.sid.core) r.pid e.va = false → e.size ≠ 0 →
    s.translate (dieOf r.sid.core) r.pid e.va r.kind.need = (out, s') →
    (∀ pa host sync page, out = .ok pa host sync page → (r.kind.isSync = true → sync = true) →
      ∃ t due, exec (.translationWalk id k) s = .next t ∧ due ≤ s.cycle + legCycles ∧ t.pending = s.pending ++ [⟨due, r.homeEvent k host⟩] ∧
        t.mem = s.mem ∧ ∃ u : Req, t.req? id = some u ∧ u.elems[k]? = some { e with
          phase := .home, pa := pa, host := host, sync := sync, page := page, stamp := if e.stamp = 0 then s.serial else e.stamp }) ∧
    (∀ pa host page, out = .ok pa host false page → r.kind.isSync = true → r.elems = [e] → r.source = none → r.dead = false → r.sid.pos < 17 →
      (s.strand r.sid).late = [] →
      ∃ (t : State) (f : LateFault), exec (.translationWalk id k) s = .next t ∧ t.req? id = none ∧ (t.strand r.sid).late = [f] ∧ f.code = 0x43 ∧
        f.info = r.pc ∧ t.mem = s.mem ∧ t.syncEmpty = s.syncEmpty) ∧
    (∀ fault, out = .fault fault → (s.die (dieOf r.sid.core)).pfe.length < 256 → dieOf r.sid.core < 4 →
      ∃ t due, exec (.translationWalk id k) s = .next t ∧ due ≤ s.cycle + 64 ∧
        t.pending = s.pending ++ [⟨due, .faultBufferRecord (dieOf r.sid.core) r.pid (e.va / 16384) fault⟩] ∧
        t.pageFaulted (dieOf r.sid.core) r.pid e.va = true ∧
        ∃ u : Req, t.req? id = some u ∧ u.elems[k]? = some { e with
          phase := .held, pa := e.va, stamp := if e.stamp = 0 then s.serial else e.stamp })) ∧
  (∀ (die pid page kind : Nat) (s : State), die < 4 → kind < 6 →
    let hit (i : Nat) : Prop := ∃ f, s.faults[i]? = some f ∧ f.valid = true ∧ f.pid = pid ∧ f.page = page
    let free (i : Nat) : Prop := ∃ f, s.faults[i]? = some f ∧ f.valid = false
    (∀ (i : Nat) (f : FaultEntry), i < 8 → s.faults[i]? = some f → hit i → (∀ j, j < i → ¬hit j) →
      let g := { f with dies := f.dies ||| BitVec.ofNat 4 (2 ^ die), kinds := f.kinds ||| BitVec.ofNat 6 (2 ^ kind) }
      exec (.faultBufferRecord die pid page kind) s = .next { s with faults := s.faults.setIfInBounds i g }) ∧
    ((∀ i, i < 8 → ¬hit i) → (∀ i, i < 8 → ¬free i) → exec (.faultBufferRecord die pid page kind) s =
      .next { s with dropped := true, dropCount := BitVec.ofNat 16 (min (s.dropCount.toNat + 1) 65535) }) ∧
    ∀ i, i < 8 → (∀ j, j < 8 → ¬hit j) → free i → (∀ j, j < i → ¬free j) →
      ∃ t, exec (.faultBufferRecord die pid page kind) s = .next t ∧
        t.faults[i]? = some ⟨true, false, page, pid, BitVec.ofNat 4 (2 ^ die), BitVec.ofNat 6 (2 ^ kind)⟩ ∧
        (s.faultHost = true → t.msix = s.msix ||| 2#4) ∧ t.mem = s.mem) ∧
  ∀ (s : State) (id k : Nat) (r : Req) (e : Elem), underWay s id k r e → e.phase = .home →
    ∃ t : State, exec (.redirect id k) s = .next t ∧ t.pending = s.pending ++ [⟨s.cycle, .translationWalk id k⟩] ∧ t.mem = s.mem ∧
      ∃ u : Req, t.req? id = some u ∧ u.elems[k]? = some { e with phase := .walk }

/-- R183, R144, R177, R200. A store's element writes its bytes at its home and no other byte, in device memory, where it sets the sync bits of the dwords
it touches full on a page with SYNC, in host memory, or in the slot store of the target core, where it sets the granules full; a load's element is delivered and changes no byte. -/
def Sys2Proof.Claims.AccessesAtTheHome : Prop :=
  (∀ (s : State) (id k : Nat) (r : Req) (e : Elem), underWay s id k r e → r.kind = .store → e.phase = .home → s.actsNow r k e = true → r.order ≠ 4 →
    (e.host = false → s.handedOff e.pa = false → ∃ t, exec (.homeApply id k) s = .next t ∧ t.mem.readBytes e.pa e.data.length = e.data ∧
      (∀ a, a < e.pa ∨ e.pa + e.data.length ≤ a → t.mem.read a = s.mem.read a) ∧ t.host = s.host ∧
      (e.data ≠ [] → ∀ n, n ∈ t.syncEmpty ↔ n ∈ s.syncEmpty ∧ ¬(e.sync = true ∧ e.pa / 8 ≤ n ∧ n ≤ (e.pa + e.data.length - 1) / 8))) ∧
    (s.handedOff e.pa = true → exec (.homeApply id k) s = .next { s with pending := s.pending ++ [⟨s.cycle, .redirect id k⟩] }) ∧
    (e.host = true → ∃ t, exec (.hostSpaceAccess id k) s = .next t ∧ t.host.readBytes e.pa e.data.length = e.data ∧
      (∀ a, a < e.pa ∨ e.pa + e.data.length ≤ a → t.host.read a = s.host.read a) ∧ t.mem = s.mem) ∧
    (s.coreRuns r.rcore r.pid = true → e.size ≠ 0 → e.data ≠ [] → s.causal r (some (dieOf r.rcore)) = true →
      (∀ x ∈ s.rowsBefore r, ∀ y ∈ x.elems, y.phase = .done) →
      ∃ t : State, exec (.remoteSlotAccess id k) s = .next t ∧ (t.core r.rcore).slots.readBytes e.va e.data.length = e.data ∧
        (∀ a, a < e.va ∨ e.va + e.data.length ≤ a → (t.core r.rcore).slots.read a = (s.core r.rcore).slots.read a) ∧ t.mem = s.mem ∧
        ∀ g, g ∈ (t.core r.rcore).empty ↔ g ∈ (s.core r.rcore).empty ∧ ¬(e.va / 16 ≤ g ∧ g ≤ (e.va + e.data.length - 1) / 16))) ∧
  ∀ (s : State) (id : Nat) (r : Req) (e : Elem) (d : Reg), plainRequest s id r e d → r.kind = .load → e.phase = .home → s.actsNow r 0 e = true →
    (s.handedOff e.pa = false → ∃ t, exec (.homeApply id 0) s = .next t ∧ t.mem = s.mem ∧
      answered s t id r d (loaded e.signed e.size (s.mem.readNat e.pa e.size))) ∧
    (∃ t, exec (.hostSpaceAccess id 0) s = .next t ∧ t.mem = s.mem ∧ t.host = s.host ∧
      answered s t id r d (loaded e.signed e.size (s.host.readNat e.pa e.size))) ∧
    (s.coreRuns r.rcore r.pid = true → (s.core r.rcore).someEmpty e.va e.size = false → (s.core r.rcore).slotBad e.va e.size = false →
      (s.core r.rcore).storageSlot (e.va / 16384) = false →
      ∃ t : State, exec (.remoteSlotAccess id 0) s = .next t ∧ t.mem = s.mem ∧
        answered s t id r d (loaded e.signed e.size ((s.core r.rcore).slots.readNat e.va e.size)))

/-- R194, R195. An atomic takes effect at its home as one action: the element holds the new value, no other byte changes, no sync bit does, and the old value
is delivered. ACAS4 writes the enabled dwords when all of them match, and nothing otherwise. -/
def Sys2Proof.Claims.AtomicsAtTheHome : Prop :=
  (∀ (s : State) (id op : Nat) (r : Req) (e : Elem) (d : Reg), plainRequest s id r e d → r.kind = .atomic op → op < 8 → e.phase = .home →
    s.actsNow r 0 e = true → e.host = false → s.handedOff e.pa = false → s.linking id = false → 1 ≤ r.type → r.type ≤ 8 →
    ∃ t, exec (.atomicHomeApply id) s = .next t ∧
      t.mem.readNat e.pa e.size = atomicValue op (decide (r.type ≤ 4)) (8 * e.size) (s.mem.readNat e.pa e.size) r.x.toNat r.y.toNat ∧
      (∀ a, a < e.pa ∨ e.pa + e.size ≤ a → t.mem.read a = s.mem.read a) ∧ t.syncEmpty = s.syncEmpty ∧
      answered s t id r d (loaded e.signed e.size (s.mem.readNat e.pa e.size))) ∧
  ∀ (s : State) (id : Nat) (r : Req) (e : Elem), s.req? id = some r → r.elems = [e] → r.kind = .atomic 8 → e.phase = .home →
    s.actsNow r 0 e = true → e.host = false → s.handedOff e.pa = false → s.linking id = false → e.size = 32 → r.xs.length = 32 → r.ys.length = 33 →
    let on (i : Nat) : Bool := (r.ys.getD 32 0).getLsbD i
    let matched : Prop := ∀ i, i < 4 → on i = true → s.mem.readBytes (e.pa + 8 * i) 8 = (r.ys.drop (8 * i)).take 8
    ∃ t, exec (.atomicHomeApply id) s = .next t ∧
      (∀ i, i < 4 → (matched ∧ on i = true → t.mem.readBytes (e.pa + 8 * i) 8 = (r.xs.drop (8 * i)).take 8) ∧
        (¬(matched ∧ on i = true) → t.mem.readBytes (e.pa + 8 * i) 8 = s.mem.readBytes (e.pa + 8 * i) 8)) ∧
      t.syncEmpty = s.syncEmpty ∧ ∀ a, a < e.pa ∨ e.pa + 32 ≤ a → t.mem.read a = s.mem.read a

/-- R198, R199. An attempt on a lock word that no other attempt waits for: a reader or writer that may take it does; a release takes its part
out, and is a Lock State fault where it has none; RWTRY delivers 1 or 0; an attempt that fails is sent again or parks. -/
def Sys2Proof.Claims.LockAttempts : Prop :=
  (∀ (s : State) (id op : Nat) (wr : Bool) (r : Req) (e : Elem), s.req? id = some r → r.id = id → r.elems = [e] → r.kind = .lock op wr → op < 5 →
    (op = 1 → wr = true) → (op = 0 → wr = false) → e.phase = .home →
    s.actsNow r 0 e = true → e.host = false → e.size = 8 → s.handedOff e.pa = false → noneParked s e.pa →
    let w := s.mem.readNat e.pa 8
    let writer : Prop := op = 1 ∨ (op = 4 ∧ wr = true)
    let reader : Prop := op = 0 ∨ (op = 4 ∧ wr = false)
    let counted := if r.counted = true ∧ 0 < w / 2 ^ 48 % 2 ^ 14 then 2 ^ 48 else 0
    let sets (new : Nat) : Prop := ∃ t, exec (.lockAttempt id) s = .next t ∧ t.mem.readNat e.pa 8 = new ∧
      ∀ a, a < e.pa ∨ e.pa + 8 ≤ a → t.mem.read a = s.mem.read a
    (reader → readerMay w → w % 2 ^ 48 + 1 < 2 ^ 48 → sets (w + 1)) ∧ (writer → writerMay w → sets (w + 2 ^ 62 - counted)) ∧
    (op = 2 → w % 2 ^ 48 ≠ 0 → sets (w - 1)) ∧ (op = 3 → w.testBit 62 = true → sets (w - 2 ^ 62)) ∧
    ((op = 2 ∧ w % 2 ^ 48 = 0) ∨ (op = 3 ∧ w.testBit 62 = false) → sets w ∧
      (r.source = none → r.dead = false → r.sid.pos < 17 → r.dst = .none → (s.strand r.sid).late = [] →
        ∃ (t : State) (f : LateFault), exec (.lockAttempt id) s = .next t ∧ (t.strand r.sid).late = [f] ∧ f.code = 0x42 ∧ f.info = r.pc)) ∧
    (op = 4 → (reader ∧ ¬readerMay w) ∨ (writer ∧ ¬writerMay w) → sets w) ∧
    (op = 0 → ¬readerMay w → sets w) ∧ (op = 0 → ¬readerMay w → r.source = none → ∃ (t : State) (u : Req), exec (.lockAttempt id) s = .next t ∧ t.req? id = some u ∧ u.attempts = r.attempts + 1) ∧
    (op = 1 → ¬writerMay w → r.counted = false → w / 2 ^ 48 % 2 ^ 14 < 2 ^ 14 - 1 → sets (w + 2 ^ 48)) ∧
    (∀ d, plainRequest s id r e d → (op = 0 ∧ readerMay w) ∨ (op = 1 ∧ writerMay w) → ∃ t, exec (.lockAttempt id) s = .next t ∧
      answered s t id r d (BitVec.ofNat 64 w)) ∧
    (op = 4 → plainRequest s id r e (match r.dst with | .scalar d => d | _ => 0) → ∃ t, exec (.lockAttempt id) s = .next t ∧
      answered s t id r (match r.dst with | .scalar d => d | _ => 0)
        (if (wr = true ∧ w.testBit 62 = false ∧ w % 2 ^ 48 = 0) ∨
          (wr = false ∧ w.testBit 62 = false ∧ (w.testBit 63 = false ∨ w / 2 ^ 48 % 2 ^ 14 = 0)) then 1 else 0))) ∧
  ∀ (s : State) (id : Nat) (r : Req) (e : Elem), s.req? id = some r → r.id = id → r.elems = [e] → e.phase = .walk → r.source = none →
    ∃ t due, exec (.lockRetry id) s = .next t ∧ due ≤ s.cycle + legCycles ∧ t.pending = s.pending ++ [⟨due, .translationWalk id 0⟩] ∧
      t.mem = s.mem ∧ t.reqs = s.reqs

/-- R200, R201, R93. LDSYNC takes a full dword and leaves it empty; STSYNC fills an empty one; a parked WAITNE reads again when its home reports
a write, or after its 256 cycles; a strand that lends while it spins is ready again on a wake or after its 256 cycles. -/
def Sys2Proof.Claims.SyncWordsAndWakes : Prop :=
  (∀ (s : State) (id : Nat) (r : Req) (e : Elem) (d : Reg), plainRequest s id r e d → r.kind = .ldsync → e.phase = .home → s.actsNow r 0 e = true →
    e.size = 8 → s.handedOff e.pa = false → noneParked s e.pa → e.pa / 8 ∉ s.syncEmpty →
    ∃ t, exec (.syncAttempt id) s = .next t ∧ t.mem = s.mem ∧ e.pa / 8 ∈ t.syncEmpty ∧
      answered s t id r d (loaded e.signed 8 (s.mem.readNat e.pa 8))) ∧
  (∀ (s : State) (id : Nat) (r : Req) (e : Elem), s.req? id = some r → r.id = id → r.elems = [e] → r.kind = .stsync → e.phase = .home →
    s.actsNow r 0 e = true → e.size = 8 → e.pa % 8 = 0 → s.handedOff e.pa = false → noneParked s e.pa → e.pa / 8 ∈ s.syncEmpty →
    ∃ t, exec (.syncAttempt id) s = .next t ∧ t.mem.readNat e.pa 8 = r.x.toNat ∧ e.pa / 8 ∉ t.syncEmpty ∧
      (r.source = none → r.dead = false → r.failed = 0 → r.dst = .none → r.sid.pos < 17 → goesOn s t r.sid r.serial 3) ∧
      ∀ a, a < e.pa ∨ e.pa + 8 ≤ a → t.mem.read a = s.mem.read a) ∧
  (∀ (s : State) (id : Nat) (r : Req) (e : Elem) (d : Reg), plainRequest s id r e d → r.kind = .waitne → e.phase = .home → s.actsNow r 0 e = true →
    s.handedOff e.pa = false →
    let v := s.mem.readNat e.pa e.size
    (v ≠ r.x.toNat % 2 ^ (8 * e.size) → ∃ t, exec (.homeApply id 0) s = .next t ∧ t.mem = s.mem ∧ answered s t id r d (loaded e.signed e.size v)) ∧
    (v = r.x.toNat % 2 ^ (8 * e.size) → ∃ (t : State) (u : Req), exec (.homeApply id 0) s = .next t ∧ t.mem = s.mem ∧ t.req? id = some u ∧
      (∀ e ∈ u.elems, e.phase = .parked) ∧ t.pending = s.pending ++ [⟨s.cycle + 256, .waitneTimeout id u.attempts⟩])) ∧
  (∀ (s : State) (id serial : Nat) (r : Req) (e : Elem), s.req? id = some r → r.id = id → r.elems = [e] → r.kind = .waitne → e.phase = .parked →
    r.space ≠ 3 →
    let again : Prop := ∀ i, (i = Instr.waitneWake id ∧ r.counted = true) ∨ (i = .waitneTimeout id serial ∧ r.attempts = serial) →
      ∃ (t : State) (u : Req), exec i s = .next t ∧ t.mem = s.mem ∧ t.req? id = some u ∧ u.elems = [{ e with phase := .walk }] ∧
        t.pending = s.pending ++ [⟨s.cycle, .translationWalk id 0⟩]
    again) ∧
  ∀ (s : State) (sid : SId) (w : Spin), sid.pos < 17 → (s.strand sid).spin = some w →
    (∃ t, exec (.spinWake sid) s = .next t ∧ t.strand sid = { s.strand sid with spin := none } ∧ t.mem = s.mem) ∧
    (∃ t, exec (.spinTimeout sid w.serial) s = .next t ∧ t.strand sid = { s.strand sid with spin := none } ∧ t.mem = s.mem) ∧
    ∀ serial, serial ≠ w.serial → ∃ t, exec (.spinTimeout sid serial) s = .next t ∧ t.strand sid = s.strand sid

/-- R190, R191. REPLAY, at device scope, and the host's replay clear the fault buffer and every pending-fault entry and open every station, and REPLAY clears its strand's interrupt-pending bit; TLBINV drops the cached
translations it names once none of them is still in use by a request on its way; both are privileged. -/
def Sys2Proof.Claims.ReplayAndInvalidate : Prop :=
  (∀ s : State,
    (∃ t, exec .hostReplay s = .next t ∧ (∀ f ∈ t.faults.toList, f.valid = false ∧ f.abort = false) ∧ t.dropped = false ∧ t.dropCount = 0 ∧
      (∀ d ∈ t.dies.toList, d.pfe = [] ∧ d.shut = 0) ∧ t.mem = s.mem) ∧
    (s.me.priv = true → s.quiet s.cur = true → ∃ t, exec .replay s = .next t ∧
      (∀ f ∈ t.faults.toList, f.valid = false ∧ f.abort = false) ∧ t.dropped = false ∧ t.dropCount = 0 ∧
      (∀ d ∈ t.dies.toList, d.pfe = [] ∧ d.shut = 0) ∧ t.mem = s.mem ∧ (s.cur.pos < 17 → t.me.irq = false)) ∧
    (s.me.priv = false → exec .replay s = .next (s.trapAt 0x04 0 s.me.pc))) ∧
  ∀ (f : RF) (s : State),
    let a := s.sval f.a
    let b := s.sval f.b
    let p := s.popAll [.s f.a f.ta, .s f.b f.tb]
    let named (pid va size : Nat) : Prop := (a = BitVec.allOnes 64 ∨ a.toNat % 2 ^ 16 = pid) ∧
      (b = BitVec.allOnes 64 ∨ (va ≤ b.toNat ∧ b.toNat < va + size))
    (s.me.priv = false → exec (.tlbinv f) s = .next (s.trapAt 0x04 0 s.me.pc)) ∧
    (s.me.priv = true → s.canIssue [.s f.a f.ta, .s f.b f.tb] [] →
      (∀ r ∈ s.reqs, ∀ e ∈ r.elems, r.space < 2 → e.phase = .home → ¬named r.pid (e.va / e.page * e.page) e.page) →
      ∃ u : State, exec (.tlbinv f) s = .next (u.retire 1) ∧ u.mem = p.mem ∧ u.cores = p.cores ∧
        (∀ d, ∀ e, e ∈ (u.die d).tlb ↔ e ∈ (p.die d).tlb ∧ ¬named e.pid e.va e.size) ∧
        ∀ (d station : Nat) (e : TlbEntry), e ∈ ((u.die d).tlb1[station]?.getD []) ↔ e ∈ ((p.die d).tlb1[station]?.getD []) ∧ ¬named e.pid e.va e.size)

/-! ### Chains and engines (spec 10 R203-R218; 11 R220-R237; 21 R356) -/

namespace Sys2Proof.Claims

open Sys2Proof.Machine

/-- The chain that a form names (R205). -/
def chainOf (f : RF) : Nat := f.b.toNat % 8

/-- The running strand's instance of a chain. -/
def myChain (s : State) (f : RF) : Chain := s.myCore.chain (s.ownerOf s.cur) (chainOf f)

/-- A strand that may use the chain: a supervisor strand has none, and chain 7 asks for privilege (R205, R206, R400). -/
def mayUseChain (s : State) (f : RF) : Prop := s.cur.core < 256 ∧ (chainOf f = 7 → s.me.priv = true)

/-- Ticket n is not ahead of a count: (count - n) mod 2^32 is below 2^31 (R208, R210). -/
def counted (count : BitVec 32) (n : Word) : Prop := (count - n.setWidth 32).toNat < 2 ^ 31

/-- Nobody's leftovers stand on a core: no crew has gone while entries of its own still run. -/
def noneGone (s : State) (core : Nat) : Prop := ∀ w ∈ (s.core core).crews, w.gone = false

/-- The instance of an entry. -/
def chainAt (s : State) (e : EntryRef) : Chain := (s.core e.core).chain e.owner e.chain

/-- Every byte of device and host memory, and of every slot store, is as before. -/
def bytesKept (s t : State) : Prop :=
  (∀ a, t.mem.read a = s.mem.read a) ∧ (∀ a, t.host.read a = s.host.read a) ∧ ∀ c a, (t.core c).slots.read a = (s.core c).slots.read a

end Sys2Proof.Claims

/-- R206, R210, R211. CHAPP of a crew: an entry that passes its checks is stored at the tail, in a slot that has room or in the lowest free one,
and its ticket A + 1 goes to d; one that fails traps (Chain Entry). CHWAIT goes on once S has passed the ticket and traps on one not yet
appended (Chain Future). CHSEQ reads HALT, OUT and SEQ. A strand that has joined entries so follows what they had read (R337, R344), and changes in nothing
else by it. -/
def Sys2Proof.Claims.ChainForms : Prop :=
  (∀ (f : RF) (s : State) (sl used : Nat), s.cur.pos < 16 → s.placed → mayUseChain s f → chainOf f < 7 → s.unbound (.v f.a f.ta) →
    s.unbound (.s f.d false) → s.canIssue [.v f.a f.ta] [.s f.d false] →
    let entry := (s.vbytes f.a).take 64
    let x := myChain s f
    s.entryOk s.cur.core (s.ownerOf s.cur) (s.pidOf s.cur) (chainOf f) s.me.priv entry = true →
    ((x.storage.getLast? = some sl ∧ x.used = used ∧ used < 256) ∨
      ((x.storage = [] ∨ 256 ≤ x.used) ∧ used = 0 ∧ s.myCharge < s.myCrew.hold.sl ∧ sl < 248 ∧ s.myCore.slotBusy sl = false ∧
        ∀ k, k < sl → s.myCore.slotBusy k = true)) →
    ∃ (t : State) (e : Entry), exec (.chapp f) s = .next t ∧
      (myChain t f).a = x.a + 1 ∧ (myChain t f).s = x.s ∧ (myChain t f).entries = x.entries ++ [e] ∧ (myChain t f).used = used + 1 ∧
      e.ticket = (x.a + 1).toNat ∧ e.stage = 0 ∧ e.addr = some (16384 * sl + 64 * used) ∧
      t.myCore.slots.readBytes (16384 * sl + 64 * used) 64 = entry ∧
      (∀ b, b < 16384 * sl + 64 * used ∨ 16384 * sl + 64 * used + 64 ≤ b → t.myCore.slots.read b = s.myCore.slots.read b) ∧
      (f.d ≠ 0 → t.me.get f.d = (x.a + 1).setWidth 64) ∧ t.mem = s.mem) ∧
  (∀ (f : RF) (s : State), mayUseChain s f → s.canIssue [.v f.a f.ta] [.s f.d false] →
    s.entryOk s.cur.core (s.ownerOf s.cur) (s.pidOf s.cur) (chainOf f) s.me.priv ((s.vbytes f.a).take 64) = false →
    exec (.chapp f) s = .next (s.trapAt 0x30 0 s.me.pc)) ∧
  (∀ (f : RF) (s : State), mayUseChain s f → s.canIssue [.s f.a f.ta] [] →
    (¬counted (myChain s f).a (s.sval f.a) → exec (.chwait f) s = .next (s.trapAt 0x32 0 s.me.pc)) ∧
    (counted (myChain s f).a (s.sval f.a) → counted (myChain s f).s (s.sval f.a) →
      exec (.chwait f) s = .next (((s.popAll [.s f.a f.ta]).follow (myChain s f).heard).retire 1))) ∧
  (∀ (f : RF) (s : State), mayUseChain s f → s.canIssue [] [.s f.d false] →
    let x := myChain s f
    exec (.chseq f) s = .next (done (s.follow x.heard) [] f.d
      (BitVec.ofNat 64 ((if x.halt then 2 ^ 63 else 0) + (x.a - x.s).toNat % 2 ^ 16 * 2 ^ 32 + x.s.toNat)) 1)) ∧
  (∀ (s : State) (l : List Heard), s.cur.pos < 17 → OnlyMe s (s.follow l) ∧ (s.follow l).me = { s.me with heard := (s.follow l).me.heard } ∧
    ∀ h ∈ s.stillOpen l, h ∈ (s.follow l).me.heard) ∧
  ∀ (f : RF) (s : State), s.cur.core < 256 → chainOf f = 7 → s.me.priv = false →
    exec (.chapp f) s = .next (s.trapAt 0x04 0 s.me.pc) ∧ exec (.chwait f) s = .next (s.trapAt 0x04 0 s.me.pc) ∧
    exec (.chseq f) s = .next (s.trapAt 0x04 0 s.me.pc)

/-- R204, R212, R214, R356. An entry whose last movement has landed, or a marker, completes: S passes it once every earlier entry has completed.
A late fault halts its instance with S below it; RETRY starts the entry again, SKIP passes it, CANCEL passes everything unstarted as well; a
write to an instance that is not halted does nothing. A grant of chain-7 storage is an examination by the Tumbler. -/
def Sys2Proof.Claims.EntriesCompleteAndHalt : Prop :=
  (∀ (s : State) (e : EntryRef) (x : Entry) (i : Instr), noneGone s e.core → e.chain < 7 → s.entry? e = some x → x.stage = 1 →
    i = .markerComplete e ∨ (i = .entryComplete e ∧ x.todo = [] ∧ x.flight = 0) →
    ∃ t, exec i s = .next t ∧ bytesKept s t ∧ (chainAt t e).a = (chainAt s e).a ∧
      (∀ rest, (chainAt s e).entries = x :: rest → x.ticket = ((chainAt s e).s + 1).toNat → (∀ y ∈ rest.head?, y.stage ≠ 2) →
        (chainAt t e).s = (chainAt s e).s + 1 ∧ ((∀ y ∈ rest, y.stage ≠ 3) → (chainAt t e).entries = rest)) ∧
      (∀ y rest, (chainAt s e).entries = y :: rest → y.stage ≠ 2 → y.ticket ≠ e.ticket → (chainAt t e).s = (chainAt s e).s)) ∧
  (∀ (s : State) (e : EntryRef) (x : Entry) (code : Nat), noneGone s e.core → s.entry? e = some x → x.stage = 1 →
    ∃ t, exec (.lateFault e code) s = .next t ∧ bytesKept s t ∧ (chainAt t e).halt = true ∧ (chainAt t e).s = (chainAt s e).s ∧
      ∃ y, t.entry? e = some y ∧ y.stage = 3 ∧ y.code = code) ∧
  (∀ (s : State) (core chain : Nat) (o : Owner), ((s.core core).chain o chain).halt = false →
    exec (.chainCtlRetry core o chain) s = .next s ∧ exec (.chainCtlSkip core o chain) s = .next s ∧
    exec (.chainCtlCancel core o chain) s = .next s) ∧
  (∀ (s : State) (e : EntryRef) (x : Entry) (rest : List Entry), noneGone s e.core → e.chain < 7 → (chainAt s e).halt = true →
    (chainAt s e).entries = x :: rest → x.ticket = e.ticket → x.stage = 3 → x.told = true → x.ticket = ((chainAt s e).s + 1).toNat →
    (∀ y ∈ rest, y.stage = 0) →
    (∃ t, exec (.chainCtlRetry e.core e.owner e.chain) s = .next t ∧ bytesKept s t ∧ (chainAt t e).halt = false ∧
      (chainAt t e).s = (chainAt s e).s ∧ ∃ y, (chainAt t e).entries = y :: rest ∧ y.stage = 0 ∧ y.ticket = x.ticket) ∧
    (∃ t, exec (.chainCtlSkip e.core e.owner e.chain) s = .next t ∧ bytesKept s t ∧ (chainAt t e).halt = false ∧
      (chainAt t e).s = (chainAt s e).s + 1 ∧ (chainAt t e).entries = rest) ∧
    ((∀ k y, rest[k]? = some y → y.ticket = ((chainAt s e).s + 2 + BitVec.ofNat 32 k).toNat) →
      ∃ t, exec (.chainCtlCancel e.core e.owner e.chain) s = .next t ∧ bytesKept s t ∧ (chainAt t e).halt = false ∧
        (chainAt t e).entries = [] ∧ (chainAt t e).s = (chainAt s e).s + 1 + BitVec.ofNat 32 rest.length)) ∧
  ∀ (s : State) (core : Nat), exec (.chain7StorageGrant core) s = .next (s.tumble core) ∧ bytesKept s (s.tumble core) ∧
    ((s.core core).acqs = [] → ∀ c, (s.tumble core).core c = s.core c)

namespace Sys2Proof.Claims

open Sys2Proof.Machine

/-- Swz(o) of R213. -/
def swizzled (mask o : Nat) : Nat := o ^^^ (o / 1024 % 32 &&& mask) * 32

/-- A copy entry's element size, bytes of a row in whole granules, swizzle and record (R213). -/
def copySize (x : Entry) (b : List Byte) : Nat := if cpDir b = 2 then 1 else typeSize (recFormat (x.copyOf (cpHandle b)))
def copyLen (x : Entry) (b : List Byte) : Nat := (cpN0 b * copySize x b + 15) / 16 * 16
def copySwz (x : Entry) (b : List Byte) : Nat := if cpDir b = 2 then 0 else recSwz (x.copyOf (cpHandle b))

/-- Unit u of a copy: its row, where in the row it begins, and its bytes, 64 at most (R213). -/
def unitRow (x : Entry) (b : List Byte) (u : Nat) : Nat := u / ((copyLen x b + 63) / 64)
def unitFrom (x : Entry) (b : List Byte) (u : Nat) : Nat := 64 * (u % ((copyLen x b + 63) / 64))
def unitLength (x : Entry) (b : List Byte) (u : Nat) : Nat := min 64 (copyLen x b - unitFrom x b u)

/-- The elements of a unit that lie in the row: place in the unit and coordinates (R213). -/
def unitParts (x : Entry) (b : List Byte) (u : Nat) : List (Nat × List Nat) :=
  (List.range (unitLength x b u / copySize x b)).filterMap fun t =>
    let i := unitFrom x b u / copySize x b + t
    let k (n : Nat) : Nat := (cpK b).getD n 0
    if i < cpN0 b then some (t * copySize x b, [k 0 + i, k 1 + unitRow x b u, k 2, k 3]) else none

/-- A granule as a copy reads it: as it read it ahead, or as it stands (R145, R213). -/
def granuleRead (c : Core) (x : Entry) (a : Nat) : List Byte := ((x.ahead.find? fun p => p.1 == a).map (·.2)).getD (c.slots.readBytes a 16)

/-- It has been read, or it is full, and the code finds no error in it. -/
def granuleReady (c : Core) (x : Entry) (a : Nat) : Prop := (x.ahead.any fun p => p.1 == a) = true ∨ (a / 16 ∉ c.empty ∧ c.slotBad a 16 = false)

/-- Bytes land later at a logical offset of a slot, granule by granule, each in its own event (R144, R213). -/
def landsAt (s t : State) (e : EntryRef) (slot off mask : Nat) (bytes : List Byte) : Prop :=
  ∀ i, i < bytes.length / 16 → ∃ due, due ≤ s.cycle + 64 ∧
    ⟨due, .engineGranuleLand e.core ((16384 * slot + swizzled mask (off + 16 * i)) / 16) ((bytes.drop (16 * i)).take 16) e⟩ ∈ t.pending

/-- The row that an index entry of a gather names is the next to be asked for, alone: index `i` names row `row` of record `r`, whose handle is
`handle`, and nothing is wrong with it (R215, R216). -/
structure RowIsNext (s : State) (e : EntryRef) (x : Entry) (b : List Byte) (i handle row r : Nat) : Prop where
  here : s.entry? e = some x
  running : x.stage = 1
  todo : x.todo = [i]
  small : i < 4096
  few : s.rowsOut e < 64
  full : (16384 * gaIslot b + gaIoff b + 4 * i) / 16 ∉ (s.core e.core).empty
  sound : (s.core e.core).slotErrors = [] ∧ (s.core e.core).slotErased = 0
  aligned : gaIoff b % 4 = 0
  index : (s.core e.core).slots.readNat (16384 * gaIslot b + gaIoff b + 4 * i) 4 = row + (handle - gaHandle b) * 2 ^ 24
  named : gaHandle b ≤ handle ∧ handle - gaHandle b < 256 ∧ handle < 0xFFFF ∧ row < 2 ^ 24
  part : x.recs.find? (fun p => p.1 == handle) = some (handle, r)
  format : recFormat r = recFormat (x.copyOf (gaHandle b)) ∧ typeSize (recFormat r) ∈ [1, 2, 4, 8]
  readable : recR r = true ∧ (recSpace r = 1 → s.feature 9 = true)
  rank : (∀ d, d < 3 → recRank r ≤ d + 1 → (gaK b).getD d 0 = 0) ∧ (recRank r = 1 → gaN0 b = 1)

/-- The coordinates of element j of a row (R215). -/
def rowElement (r row j : Nat) (b : List Byte) : List Nat :=
  (List.range 4).map fun d => if d = recRank r - 1 then row else if d = 0 then (gaK b).getD 0 0 + j else (gaK b).getD d 0

end Sys2Proof.Claims

/-- R144, R203, R204, R206, R212, R213, R216, R217. The engine that finds no entry to start does nothing, or, where a head waits for what
precedes its CHAPP, looks again; one that starts a marker records it in the
dispatch ring and completes it; a slot-to-slot copy starts with its units to move; the movers change no byte themselves: bytes change when a
granule lands, which writes its 16 bytes, sets it full and changes no other byte. -/
def Sys2Proof.Claims.EnginesMoveGranules : Prop :=
  (∀ (core k : Nat) (s : State),
    ((∀ x ∈ (s.core core).round (engineChains k), s.startNext core x.2.1 x.2.2 = none) → exec (.chainEntryStart core k) s = .next s) ∧
    (pickFrom ((s.core core).roundAt k) ((s.core core).round (engineChains k)) (fun x => (s.startable core x.1 x.2).isSome) = none →
      (∃ x ∈ (s.core core).round (engineChains k), s.startNext core x.2.1 x.2.2 ≠ none) →
      exec (.chainEntryStart core k) s = .next { s with pending := s.pending ++ [⟨s.cycle, .chainEntryStart core k⟩] }) ∧
    ∀ (key chain : Nat) (o : Owner) (x : Entry),
      pickFrom ((s.core core).roundAt k) ((s.core core).round (engineChains k)) (fun x => (s.startable core x.1 x.2).isSome) =
        some (key, o, chain) → s.startable core o chain = some x →
      let b := (s.core core).entryBytes x
      let e : EntryRef := ⟨core, o, chain, x.ticket⟩
      (∀ a, x.addr = some a → (s.core core).slotBad a 64 = false) → s.entryOk core x.watch x.pid chain x.priv b = true → (s.core core).dringHead < 32 →
      enKind b = 6 ∨ (enKind b = 2 ∧ cpDir b = 2) →
      ∃ (t : State) (y : Entry), exec (.chainEntryStart core k) s = .next t ∧ bytesKept s t ∧ t.entry? e = some y ∧ y.stage = 1 ∧
        (enKind b = 6 → ⟨s.cycle, .markerComplete e⟩ ∈ t.pending) ∧
        (enKind b = 2 → y.todo = List.range ((cpN0 b + 63) / 64)) ∧
        (∀ g, g ∈ (t.core core).empty ↔ g ∈ (s.core core).empty ∨ (enKind b = 2 ∧ cpEf b = true ∧
          1024 * cpSlot b + cpSoff b / 16 ≤ g ∧ g < 1024 * cpSlot b + cpSoff b / 16 + cpN0 b / 16)) ∧
        (t.core core).dringHead = ((s.core core).dringHead + 1) % 32 ∧
        (t.core core).dring[(s.core core).dringHead]? = some
          { ticket := x.ticket, kind := enKind b, engine := if enKind b = 6 then 5 else k, pos := (s.core core).ringPos o, chain := chain, valid := true }) ∧
  (∀ (core : Nat) (s : State), (∃ t, exec (.copyTransfer core) s = .next t ∧ bytesKept s t) ∧
    (s.copyReplies core = [] → (s.core core).copyAt = some s.cycle → exec (.copyTransfer core) s = .next s)) ∧
  (∀ (e : EntryRef) (row : Nat) (s : State), ∃ t, exec (.gatherRowLand e row) s = .next t ∧ bytesKept s t) ∧
  ∀ (core granule : Nat) (data : List Byte) (e : EntryRef) (s : State), data.length = 16 →
    ∃ t : State, exec (.engineGranuleLand core granule data e) s = .next t ∧ (t.core core).slots.readBytes (16 * granule) 16 = data ∧
      (∀ a, a < 16 * granule ∨ 16 * granule + 16 ≤ a → (t.core core).slots.read a = (s.core core).slots.read a) ∧
      (∀ c, c ≠ core → ∀ a, (t.core c).slots.read a = (s.core c).slots.read a) ∧ t.mem = s.mem ∧
      (∀ g, g ∈ (t.core core).empty ↔ g ∈ (s.core core).empty ∧ g ≠ granule) ∧
      ∀ x, s.entry? e = some x → ∃ y, t.entry? e = some y ∧ y.flight = x.flight - 1 ∧
        (x.stage = 1 → x.todo = [] → x.flight ≤ 1 → ⟨s.cycle, .entryComplete e⟩ ∈ t.pending)

/-- R145, R204, R213, R337. The units of a copy that is the only one in progress on its core: from slot to slot, the bytes of the unit's granules, each read
once it is full, land in the destination; out of a slot they are stored, element by element, where the record locates them; into a slot the elements
in range are loaded. A unit with an empty source granule is not moved. A unit that has been loaded lands with pad values for the elements out of
range and zeros behind the row. -/
def Sys2Proof.Claims.CopiesMoveUnits : Prop :=
  (∀ (core key u : Nat) (us : List Nat) (e : EntryRef) (x : Entry) (s : State), s.copyReplies core = [] → (s.core core).copyAt ≠ some s.cycle →
    (s.core core).copies = [(key, e, x)] → s.entry? e = some x → x.todo = u :: us →
    let b := (s.core core).entryBytes x
    let r := x.copyOf (cpHandle b)
    let at_ := cpSoff b + unitRow x b u * cpRp b + unitFrom x b u
    let n := unitLength x b u
    let sources := (List.range (n / 16)).map fun i =>
      if cpDir b = 2 then 16384 * cpSlot2 b + cpSoff2 b + unitFrom x b u + 16 * i else 16384 * cpSlot b + swizzled (copySwz x b) (at_ + 16 * i)
    let bytes := sources.flatMap (granuleRead (s.core core) x)
    cpDir b < 3 → copySize x b ∈ [1, 2, 4, 8] → cpSoff b % 16 = 0 → cpSoff2 b % 16 = 0 → cpRp b % 16 = 0 → copyLen x b ≠ 0 → (s.core core).slotErrors = [] →
    (∀ p ∈ x.ahead, p.2.length = 16) →
    ∃ t, exec (.copyTransfer core) s = .next t ∧ bytesKept s t ∧
      (cpDir b = 2 → cpN0 b % 16 = 0 → unitRow x b u = 0 → (∀ a ∈ sources, granuleReady (s.core core) x a) → landsAt s t e (cpSlot b) at_ 0 bytes ∧
        ∃ y, t.entry? e = some y ∧ u ∉ y.todo) ∧
      (cpDir b ≠ 0 → us = [] → (∃ a ∈ sources, (x.ahead.any fun p => p.1 == a) = false ∧ a / 16 ∈ (s.core core).empty) →
        ∃ y, t.entry? e = some y ∧ y.todo = x.todo ∧ y.flight = x.flight ∧ t.pending = s.pending ++ [⟨s.cycle, .copyTransfer core⟩]) ∧
      (cpDir b = 1 → (∀ a ∈ sources, granuleReady (s.core core) x a) → (2 ≤ s.spaceOf r → (s.core core).cannotSend = false) →
        ∃ q ∈ t.reqs, q.kind = .engine e true ∧ q.x = BitVec.ofNat 64 u ∧ q.elems = ((unitParts x b u).flatMap fun p =>
          storeElems r (dieOf core) p.1 ((bytes.drop p.1).take (copySize x b)) p.2).map (engineElem r)) ∧
      (cpDir b = 0 → (2 ≤ s.spaceOf r → (s.core core).cannotSend = false) →
        ∃ q ∈ t.reqs, q.kind = .engine e false ∧ q.x = BitVec.ofNat 64 u ∧ q.elems = ((unitParts x b u).filterMap fun p =>
          if inRange r p.2 then some (elemAt (locate r (dieOf core) p.2) (copySize x b) p.1 (copySize x b) false []) else none).map (engineElem r))) ∧
  (∀ (core : Nat) (e : EntryRef) (x : Entry) (q : Req) (s : State), s.copyReplies core = [(q, e)] → (s.core core).copyAt = some s.cycle →
    s.entry? e = some x → q.kind = .engine e false →
    let b := (s.core core).entryBytes x
    let u := q.x.toNat
    let r := x.copyOf (cpHandle b)
    let size := copySize x b
    let n := unitLength x b u
    cpDir b = 0 → size ∈ [1, 2, 4, 8] → (∀ y ∈ q.elems, y.put % size = 0 ∧ y.put + size ≤ n ∧ y.data.length = size) → (q.elems.map (·.put)).Nodup →
    ∃ (t : State) (bytes : List Byte), exec (.copyTransfer core) s = .next t ∧ bytesKept s t ∧ bytes.length = n ∧
      (∀ y ∈ q.elems, (bytes.drop y.put).take size = y.data) ∧
      (∀ i, i < n / size → (∀ y ∈ q.elems, y.put ≠ i * size) → (bytes.drop (i * size)).take size =
        if unitFrom x b u / size + i < cpN0 b then bytesOfNat size (if recPad r = 1 then recPadv r else 0) else List.replicate size 0) ∧
      landsAt s t e (cpSlot b) (cpSoff b + unitRow x b u * cpRp b + unitFrom x b u) (recSwz r) bytes) ∧
  ∀ (r : Nat) (y : Elem), engineElem r y = { y with
    va := if recSpace r = 3 then y.va / 16384 * 16384 + swizzled (recSwz r) (y.va % 16384) else y.va }

/-- R117, R213, R215, R216. The next row of an indexed gather: its index is read in the list once its granule is full; a row in the part record is asked
for, element by element; one beyond it lands as pad values, and the appender counts it. A row that has been read lands, through the swizzle of the base
record, at the place that its index gives it. -/
def Sys2Proof.Claims.GathersAskAndLand : Prop :=
  (∀ (e : EntryRef) (n i handle row r : Nat) (x : Entry) (s : State), s.rowReply e n = none →
    let b := (s.core e.core).entryBytes x
    let h := x.copyOf (gaHandle b)
    let size := typeSize (recFormat r)
    RowIsNext s e x b i handle row r →
    ∃ t, exec (.gatherRowLand e n) s = .next t ∧ bytesKept s t ∧
      (row < recExt r (recRank r - 1) → (recPad r = 0 → ∀ j, j < gaN0 b → inside r (rowElement r row j b)) →
        (2 ≤ s.spaceOf r → (s.core e.core).cannotSend = false) →
        ∃ q ∈ t.reqs, q.kind = .engine e false ∧ q.x = BitVec.ofNat 64 i ∧ q.y = BitVec.ofNat 64 handle ∧
          q.elems = ((List.range (gaN0 b)).filterMap fun j => if inRange r (rowElement r row j b) then
            some (elemAt (locate r (dieOf e.core) (rowElement r row j b)) size (j * size) size false []) else none).map (engineElem r) ∧
          ∃ y, t.entry? e = some y ∧ y.todo = [] ∧ y.stage = 1) ∧
      (recExt r (recRank r - 1) ≤ row →
        landsAt s t e (gaDslot b) (gaDoff b + i * gaRp b) (recSwz h)
          ((List.replicate (gaN0 b) (bytesOfNat size (if recPad r = 2 then 0 else recPadv r))).flatten ++
            List.replicate ((gaN0 b * size + 15) / 16 * 16 - gaN0 b * size) 0) ∧
        (∃ y, t.entry? e = some y ∧ y.todo = [] ∧ y.stage = 1) ∧
        ∀ sid, (s.core e.core).appender x = some sid → sid.pos < 17 → (t.strand sid).gatherDrops =
          BitVec.ofNat 32 (min ((s.strand sid).gatherDrops.toNat + 1) (2 ^ 32 - 1)))) ∧
  ∀ (e : EntryRef) (row : Nat) (x : Entry) (q : Req) (s : State), s.entry? e = some x → s.rowReply e row = some q →
    let b := (s.core e.core).entryBytes x
    let h := x.copyOf (gaHandle b)
    let r := x.copyOf q.y.toNat
    let size := typeSize (recFormat h)
    let len := (gaN0 b * size + 15) / 16 * 16
    size ∈ [1, 2, 4, 8] → (∀ y ∈ q.elems, y.put % size = 0 ∧ y.put + size ≤ len ∧ y.data.length = size) → (q.elems.map (·.put)).Nodup →
    ∃ (t : State) (bytes : List Byte), exec (.gatherRowLand e row) s = .next t ∧ bytesKept s t ∧ bytes.length = len ∧
      (∀ y ∈ q.elems, (bytes.drop y.put).take size = y.data) ∧
      (∀ j, j < len / size → (∀ y ∈ q.elems, y.put ≠ j * size) → (bytes.drop (j * size)).take size =
        if j < gaN0 b then bytesOfNat size (if recPad r = 2 then 0 else recPadv r) else List.replicate size 0) ∧
      landsAt s t e (gaDslot b) (gaDoff b + row * gaRp b) (recSwz h) bytes

/-- R75, R224, R226-R229, R231, R234. The scheduler starts a ready record on a free engine, with the crew's tables as its append found them; a
K-group whose cycles have passed updates its accumulator slot and no other, in one action; a drain writes row after row, each row's bytes alone, and sets their granules full; a side drain writes m, L and E. -/
def Sys2Proof.Claims.MatrixEngines : Prop :=
  (∀ (core : Nat) (s : State), (s.core core).nextSuspended = none →
    ((∀ x ∈ (s.core core).round [0, 1], s.tileNext core x.2.1 x.2.2 = false) → exec (.tileRecordStart core) s = .next s) ∧
    (pickFrom (s.core core).rrTile ((s.core core).round [0, 1]) (fun x => s.tileReady core x.1 x.2) = none →
      (∃ x ∈ (s.core core).round [0, 1], s.tileNext core x.2.1 x.2.2 = true) →
      exec (.tileRecordStart core) s = .next { s with pending := s.pending ++ [⟨s.cycle, .tileRecordStart core⟩] }) ∧
    ∀ (key chain k : Nat) (o : Owner) (x : Entry),
      pickFrom (s.core core).rrTile ((s.core core).round [0, 1]) (fun x => s.tileReady core x.1 x.2) = some (key, o, chain) →
      ((s.core core).chain o chain).head = some x → (s.core core).freeEngine = some k →
      let b := (s.core core).entryBytes x
      let e : EntryRef := ⟨core, o, chain, x.ticket⟩
      (∀ a, x.addr = some a → (s.core core).slotBad a 64 = false) → s.entryOk core x.watch x.pid chain x.priv b = true → enKind b = 1 → tkNok b = false →
      ∃ (t : State) (y : Entry), exec (.tileRecordStart core) s = .next t ∧ bytesKept s t ∧ t.entry? e = some y ∧ y.stage = 1 ∧
        ((t.core core).engine k).entry = some e ∧ ((t.core core).engine k).stage = 1 ∧ ⟨s.cycle - 1, .kGroupApply core k⟩ ∈ t.pending ∧
        ((t.core core).engine k).beam = x.beam ∧ ((t.core core).engine k).beamOn = x.beamOn ∧ ((t.core core).engine k).budget = x.budget ∧
        ∀ n, n < 8 → (t.core core).acs[n]? = (s.core core).acs[n]?.map fun a =>
          if tkClr b = true ∧ n = tkAcc b then { a with els := [], e := -200 } else a) ∧
  (∀ (core k : Nat) (s : State) (e : EntryRef), noneGone s core → e.core = core → e.chain < 2 → ((s.core core).engine k).entry = some e →
    ((s.core core).engine k).stage = 3 → ((s.core core).engine k).due ≤ s.cycle →
    let b := s.recordBytes e
    let g := (s.core core).engine k
    ∃ t, exec (.kGroupApply core k) s = .next t ∧ bytesKept s t ∧
      ∀ n, n < 8 → (t.core core).acs[n]? = (s.core core).acs[n]?.map fun a =>
        if n = tkAcc b then a.applyGroup (groupContribution b g.latch g.index g.budget g.g) else a) ∧
  (∀ (core k : Nat) (s : State) (e : EntryRef), ((s.core core).engine k).entry = some e →
    let b := s.recordBytes e
    ∃ t, exec (.drainStart core k) s = .next t ∧ bytesKept s t ∧
      t.pending = s.pending ++ [if tkDm b = 3 then ⟨s.cycle + 1, .sideDrain core k⟩ else ⟨s.cycle, .drainRow core k⟩] ∧
      ∀ g, g ∈ (t.core core).empty ↔ g ∈ (s.core core).empty ∨ (tkOef b = true ∧ 1024 * tkOslot b ≤ g ∧
        g < 1024 * tkOslot b + (if tkDm b = 3 then 33 else 512 * outSize (tkOfmt b)))) ∧
  (∀ (core k : Nat) (s : State) (e : EntryRef), ((s.core core).engine k).entry = some e → ((s.core core).engine k).stage = 4 → k < 2 →
    ((s.core core).engine k).row < 63 →
    let b := s.recordBytes e
    let i := ((s.core core).engine k).row
    let place := outAddr b i
    let n := 128 * outSize (tkOfmt b)
    tkDm b ≠ 2 → ∃ t : State, exec (.drainRow core k) s = .next t ∧ ((t.core core).engine k).row = i + 1 ∧ ⟨s.cycle, .drainRow core k⟩ ∈ t.pending ∧
      (∀ j, j < 128 → (t.core core).slots.readNat (place + outSize (tkOfmt b) * j) (outSize (tkOfmt b)) =
        (((((s.core core).acs[tkAcc b]?).getD {}).row i).getD j {}).drain (((s.core core).acs[tkAcc b]?).getD {}).e (outFmt (tkOfmt b)) (tkSat b) %
          2 ^ (8 * outSize (tkOfmt b))) ∧
      (∀ a, a < place ∨ place + n ≤ a → (t.core core).slots.read a = (s.core core).slots.read a) ∧ t.mem = s.mem ∧
      ∀ g, g ∈ (t.core core).empty ↔ g ∈ (s.core core).empty ∧ ¬(place / 16 ≤ g ∧ g ≤ (place + n - 1) / 16)) ∧
  ∀ (core k : Nat) (s : State) (e : EntryRef), noneGone s core → e.core = core → e.chain < 2 → ((s.core core).engine k).entry = some e →
    ((s.core core).engine k).stage = 4 →
    let b := s.recordBytes e
    let acc := ((s.core core).acs[tkAcc b]?).getD {}
    let place := 16384 * tkOslot b
    ∃ t : State, exec (.sideDrain core k) s = .next t ∧
      (∀ i, i < 64 → (t.core core).slots.readNat (place + 8 * i) 4 = (acc.m[i]?.getD 0).toNat ∧
        (t.core core).slots.readNat (place + 8 * i + 4) 4 = (acc.l[i]?.getD 0).toNat) ∧
      (∀ a, a < place ∨ place + 528 ≤ a → (t.core core).slots.read a = (s.core core).slots.read a) ∧ t.mem = s.mem

/-- R235-R237, R386. BTSET, BTEN and RBSET (feature 2) change the crew's tables when none of its tile records waits to start; MZERO resets the
slots of a mask; MSAVE writes a slot's image to memory and MLOAD reads one, both privileged; a strand without a crew traps (Tile State). -/
def Obligations.TablesAndAccumulatorImages : Prop :=
  (∀ (f : RF) (s : State), s.placed → s.cur.pos < 16 → s.cur.core < 256 → s.tilesUnstarted = false →
    (s.canIssue [.v f.a f.ta] [] → ∃ t : State, exec (.btset f) s = .next t ∧ bytesKept s t ∧
      ∀ i, i < 64 → t.myCrew.beam[i]? = some (BitVec.ofNat 16 (natOfBytes (((s.vbytes f.a).drop (2 * i)).take 2)))) ∧
    (s.canIssue [.s f.a f.ta] [.s f.d false] → s.unbound (.s f.d false) → ∃ t : State, exec (.bten f) s = .next t ∧ bytesKept s t ∧
      t.myCrew.beamOn = (s.sval f.a).getLsbD 0 ∧ (f.d ≠ 0 → t.me.get f.d = if s.myCrew.beamOn then 1 else 0)) ∧
    (s.feature 2 = true → s.canIssue [.v f.a f.ta] [] → (∀ b ∈ (s.vbytes f.a).take 64, b.toNat ≤ 8) →
      ∃ t : State, exec (.rbset f) s = .next t ∧ bytesKept s t ∧ ∀ i, i < 64 → t.myCrew.budget[i]? = some ((s.vbytes f.a).getD i 0).toNat)) ∧
  (∀ (f : RF) (s : State), s.cur.pos = 16 → s.cur.core < 256 → s.canIssue [.v f.a f.ta] [] →
    exec (.btset f) s = .next (s.trapAt 0x33 0 s.me.pc)) ∧
  (∀ (f : RF) (s : State), s.cur.pos < 16 → s.cur.core < 256 → s.canIssue [.s f.a f.ta] [] →
    let mask := (s.sval f.a).setWidth 8
    (mask &&& ~~~s.myCrew.acMask ≠ 0 → exec (.mzero f) s = .next (s.trapAt 0x33 0 s.me.pc)) ∧
    (mask &&& ~~~s.myCrew.acMask = 0 → s.myCore.tileNames (s.ownerOf s.cur) mask = false →
      ∃ t : State, exec (.mzero f) s = .next t ∧ bytesKept s t ∧
        ∀ i, i < 8 → t.myCore.acs[i]? = if mask.getLsbD i then some {} else s.myCore.acs[i]?)) ∧
  ∀ (f : RF) (s : State), s.oob = false → s.cur.core < 256 → s.cur.pos < 17 →
    (s.me.priv = false → exec (.msave f) s = .next (s.trapAt 0x04 0 s.me.pc) ∧ exec (.mload f) s = .next (s.trapAt 0x04 0 s.me.pc)) ∧
    (s.me.priv = true → s.canIssue [.s f.a f.ta, .s f.b f.tb] [.s f.d false] →
      let n := (s.sval f.a).toNat % 8
      let place := (s.sval f.b).toNat
      place % 1024 = 0 → place + 66560 ≤ 576 * 2 ^ 30 → s.myCore.slotInUse n = false → s.clearOf place 66560 = true →
      (∃ t : State, exec (.msave f) s = .next t ∧ t.mem.readBytes place 66560 = ((s.myCore.acs[n]?).getD {}).image ∧
        ∀ a, a < place ∨ place + 66560 ≤ a → t.mem.read a = s.mem.read a) ∧
      (s.unbound (.s f.d false) → s.unbound (.s f.a f.ta) → s.unbound (.s f.b f.tb) →
        ∃ (t : State) (due : Nat), exec (.mload f) s = .next t ∧ bytesKept s t ∧ due < s.cycle + 4096 ∧
          t.myCore.acs[n]? = some ((AccSlot.ofImage (s.mem.readBytes place 66560)).getD {}) ∧
          t.pending = s.pending ++ [⟨due, .deliver (s.scalarDelivery
            [(f.d, if (AccSlot.ofImage (s.mem.readBytes place 66560)).isSome then 0 else 1)])⟩]))

/-! ### Channels, parks, barriers and the dispatchers (spec 14 R271-R290) -/

namespace Sys2Proof.Claims

open Sys2Proof.Machine

/-- The strand belongs to a crew, and so to a task (R278, R283, R287). -/
def hasTask (s : State) : Prop := s.cur.core < 256 ∧ s.cur.pos < 16

/-- Half the time of an operation between a core and a home on this device (R275). -/
def halfTime (core homeDie : Nat) : Nat := if core / 64 = homeDie then 12 else 40

/-- The instruction has issued, and its strand waits inside it for the reply numbered `serial` (R87, R88, R275). -/
def waiting (s : State) (serial : Nat) : State := s.stay (.reply serial)

/-- A channel of a job on this device, homed here. -/
def homed (s : State) (pid n : Nat) (ch : Channel) : Prop := s.chan? pid n = some ch ∧ ch.num = n ∧ ch.cdev = s.device

/-- A channel with nothing waiting and nothing to wake. -/
def calm (ch : Channel) : Prop := ch.sends = [] ∧ ch.recvs = [] ∧ ch.parked = false ∧ ch.sink = false ∧ ch.lostEos = false ∧ ch.marker = none

/-- The ring of a channel lies in device memory. -/
def ringInMemory (s : State) (ch : Channel) : Prop := s.oob = false ∧ ch.base + 8 * ch.cap ≤ 576 * 2 ^ 30 ∧ ch.head < ch.cap ∧ ch.tail < ch.cap

/-- The state of a barrier after an arrival (R290). -/
def afterArrival (b : Barrier) (member : Nat × Nat) (drop : Bool) : Barrier :=
  let d := if drop then b.d + 1 else b.d
  let gone := if drop then member :: b.drop else b.drop
  if b.n + 1 = b.e then { b with ph := (b.ph + 1) % 2 ^ 32, e := b.e - d, n := 0, d := 0, arr := [], drop := gone }
  else { b with n := b.n + 1, d := d, arr := member :: b.arr, drop := gone }

end Sys2Proof.Claims

/-- R275, R278, R61. SEND, RECV, RECVNB and EOS of a channel of the task homed on this device leave for the home, SEND and EOS once the strand's
earlier accesses are visible, and the strand waits; a strand without a task traps (Task State), a channel that is not the task's or has the
other direction traps (Channel Invalid). The home's reply writes the registers once they are free and the strand goes on, or traps (Channel Closed). -/
def Sys2Proof.Claims.ChannelInstructions : Prop :=
  (∀ (f : RF) (s : State) (n : Nat) (ch : Channel), hasTask s → homed s (s.pidOf s.cur) n ch →
    let limit := ((s.job? (s.pidOf s.cur)).map (·.sendStall)).getD 0
    let home (send : Bool) (mk : ChanOp → Instr) (val : Word) (u : State) : State :=
      let op : ChanOp := ⟨s.cur, s.pidOf s.cur, n, val, f.d, f.a, s.serial⟩
      waiting { u with pending := u.pending ++ (if send = true ∧ limit ≠ 0 then [⟨u.cycle + limit * 1024, .sendStall op⟩] else []) ++
        [⟨u.cycle + halfTime s.cur.core ch.homeDie, mk op⟩] } s.serial
    (s.myChan f.b.toNat = some (false, n) → s.quiet s.cur = true →
      (s.canIssue [.s f.a f.ta] [] → exec (.send f) s =
        .next (home true .sendAtHome (s.sval f.a &&& 0x7FFFFFFFFFFFFFFF#64) (s.nextSerial.2.popAll [.s f.a f.ta]))) ∧
      exec (.eos f) s = .next (home false .eosAtHome 0x8000000000000000#64 s.nextSerial.2)) ∧
    (s.myChan f.b.toNat = some (true, n) → s.holdsLater s.cur = false →
      exec (.recv f) s = .next (home false .recvAtHome 0 s.nextSerial.2) ∧
      exec (.recvnb f) s = .next (home false .recvnbAtHome 0 s.nextSerial.2))) ∧
  (∀ (f : RF) (s : State), hasTask s →
    (s.myChan f.b.toNat = none ∨ (∃ n, s.myChan f.b.toNat = some (true, n)) →
      exec (.send f) s = .next (s.trapAt 0x3B 0 s.me.pc) ∧ exec (.eos f) s = .next (s.trapAt 0x3B 0 s.me.pc)) ∧
    (s.myChan f.b.toNat = none ∨ (∃ n, s.myChan f.b.toNat = some (false, n)) →
      exec (.recv f) s = .next (s.trapAt 0x3B 0 s.me.pc) ∧ exec (.recvnb f) s = .next (s.trapAt 0x3B 0 s.me.pc))) ∧
  (∀ (f : RF) (s : State) (i : Instr), s.cur.pos = 16 ∨ 256 ≤ s.cur.core →
    i ∈ [Instr.send f, .recv f, .recvnb f, .eos f, .parkRes, .parkPool, .barrive f, .bwait f, .bsync f, .bdrop f] →
    exec i s = .next (s.trapAt 0x38 0 s.me.pc)) ∧
  ∀ (s : State) (r : ChanReply), r.sid.pos < 17 → (s.strand r.sid).wait = some (.reply r.serial) →
    (r.closed = true → (s.strand r.sid).trapCause.getLsbD 61 = false → ∃ t, exec (.channelReply r) s = .next t ∧
      (t.strand r.sid).trapCause.toNat % 256 = 0x3C ∧ (t.strand r.sid).trapPc = (s.strand r.sid).pc ∧
      (t.strand r.sid).pc = (s.core r.sid.core).handlerEntry ∧ (∀ x, (t.strand r.sid).get x = (s.strand r.sid).get x)) ∧
    (r.closed = false → ∀ d x, r.regs = [(d, x)] → (s.strand r.sid).bound (.s d false) = none →
      ((s.strand r.sid).isFree d = false → exec (.channelReply r) s = .next { s with pending := s.pending ++ [⟨s.cycle, .channelReply r⟩] }) ∧
      ((s.strand r.sid).isFree d = true → ∃ t, exec (.channelReply r) s = .next t ∧
      (d ≠ 0 → (t.strand r.sid).get d = x) ∧ (∀ y, y ≠ d → (t.strand r.sid).get y = (s.strand r.sid).get y) ∧
      goesOn s t r.sid r.serial 1 ∧ bytesKept s t)) ∧
    (r.closed = false → ∀ d a x y, r.regs = [(d, x), (a, y)] → a ≠ 0 → (s.strand r.sid).bound (.s d false) = none →
      (s.strand r.sid).bound (.s a false) = none → (s.strand r.sid).isFree d = true → (s.strand r.sid).isFree a = true → ∃ t, exec (.channelReply r) s = .next t ∧
        (t.strand r.sid).get a = y ∧ (d ≠ 0 → d ≠ a → (t.strand r.sid).get d = x) ∧ goesOn s t r.sid r.serial 1)

/-- R277, R278, R281, R282, R285. At a channel's home: a token enters a ring with room, and nothing else in memory changes; SEND on a closed
channel is answered so; a full ring makes it wait; the end of the stream closes the producer's side. RECV takes the oldest token or waits;
RECVNB answers at once. A SEND that has stalled, and every SEND on a ring of still edges, traps and leaves. -/
def Sys2Proof.Claims.ChannelHomes : Prop :=
  (∀ (s : State) (op : ChanOp) (ch : Channel), homed s op.pid op.chan ch → peerOf op.sid.pos = none → ringInMemory s ch →
    let replied (t : State) (closed : Bool) (regs : List (Reg × Word)) : Prop :=
      ⟨s.cycle + (halfTime (64 * dieOf op.sid.core) ch.homeDie - 1), .channelReply ⟨op.sid, op.serial, closed, regs⟩⟩ ∈ t.pending
    let tokenGoes (i : Instr) : Prop :=
      (ch.closedP = true → ∃ t, exec i s = .next t ∧ replied t true [] ∧ t.mem = s.mem ∧ t.jobs = s.jobs) ∧
      (ch.closedP = false → calm ch → ch.count < ch.cap → ∃ (t : State) (c : Channel), exec i s = .next t ∧ replied t false [] ∧
        t.mem.readNat (ch.base + 8 * ch.tail) 8 = op.val.toNat ∧
        (∀ a, a < ch.base + 8 * ch.tail ∨ ch.base + 8 * ch.tail + 8 ≤ a → t.mem.read a = s.mem.read a) ∧
        t.chan? op.pid op.chan = some c ∧ c.count = ch.count + 1 ∧ c.tail = (ch.tail + 1) % ch.cap ∧ c.head = ch.head ∧
        c.closedP = op.val.getLsbD 63) ∧
      (ch.closedP = false → ch.sink = false → ch.cap ≤ ch.count → ∃ (t : State) (c : Channel), exec i s = .next t ∧ t.mem = s.mem ∧
        t.chan? op.pid op.chan = some c ∧ c.sends.map (·.1) = ch.sends.map (·.1) ++ [op] ∧ c.count = ch.count)
    tokenGoes (.sendAtHome op) ∧ tokenGoes (.eosAtHome op) ∧
    (calm ch →
      let x := BitVec.ofNat 64 (s.mem.readNat (ch.base + 8 * ch.head) 8)
      let took (t : State) : Prop := t.mem = s.mem ∧ ∃ c, t.chan? op.pid op.chan = some c ∧ c.count = ch.count - 1 ∧
        c.head = (ch.head + 1) % ch.cap ∧ c.tail = ch.tail ∧ c.closedC = (ch.closedC || x.getLsbD 63) ∧ c.recvs = []
      (ch.closedC = true → (∃ t, exec (.recvAtHome op) s = .next t ∧ replied t true []) ∧
        ∃ t, exec (.recvnbAtHome op) s = .next t ∧ replied t false [(op.d, 0x8000000000000000#64), (op.a, 2)] ∧ t.jobs = s.jobs) ∧
      (ch.closedC = false → ch.count ≠ 0 → (∃ t, exec (.recvAtHome op) s = .next t ∧ replied t false [(op.d, x)] ∧ took t) ∧
        ∃ t, exec (.recvnbAtHome op) s = .next t ∧ replied t false [(op.d, x), (op.a, 1)] ∧ took t) ∧
      (ch.closedC = false → ch.count = 0 →
        (∃ (t : State) (c : Channel), exec (.recvAtHome op) s = .next t ∧ t.mem = s.mem ∧ t.chan? op.pid op.chan = some c ∧ c.recvs = [op]) ∧
        ∃ t, exec (.recvnbAtHome op) s = .next t ∧ replied t false [(op.d, 0), (op.a, 0)] ∧ t.jobs = s.jobs))) ∧
  (∀ (s : State) (pid n : Nat) (ch : Channel), homed s pid n ch → ringInMemory s ch → calm { ch with lostEos := false } → ch.closedP = false →
    ch.count < ch.cap → ∃ (t : State) (c : Channel), exec (.lostEosEnqueue pid n) s = .next t ∧
      t.mem.readNat (ch.base + 8 * ch.tail) 8 = 2 ^ 63 + 1 ∧ t.chan? pid n = some c ∧ c.closedP = true ∧ c.lostEos = false ∧ c.count = ch.count + 1) ∧
  (∀ (s : State) (op : ChanOp) (ch : Channel), s.chan? op.pid op.chan = some ch → ch.cdev = s.device → peerOf op.sid.pos = none → op.sid.pos < 17 →
    ((∀ p ∈ ch.sends, p.1 ≠ op) → exec (.sendStall op) s = .next s) ∧
    ((∃ p ∈ ch.sends, p.1 = op) → (s.strand op.sid).wait = some (.reply op.serial) → (s.strand op.sid).trapCause.getLsbD 61 = false →
      ∃ t, exec (.sendStall op) s = .next t ∧ (t.strand op.sid).trapCause.toNat % 256 = 0x3E ∧
        (t.strand op.sid).pc = (s.core op.sid.core).handlerEntry ∧ ∃ c, t.chan? op.pid op.chan = some c ∧ ∀ p ∈ c.sends, p.1 ≠ op)) ∧
  ∀ (s : State) (pid n : Nat) (j : Job) (ch : Channel), s.job? pid = some j → j.chan? n = some ch →
    (ch.edge = false → exec (.channelCycle pid n) s = .next s) ∧
    ∀ ns, j.ring (s.cycle - 1) ch = some ns → ∃ t, exec (.channelCycle pid n) s = .next t ∧ t.mem = s.mem ∧
      ∀ k ∈ ns, ∀ c, t.chan? pid k = some c → ∀ p ∈ c.sends, p.1.val.getLsbD 63 = true

/-- R283. PARK waits until the whole crew waits in one, and then takes effect; each input's home registers the park, the last one's answer lets it
go on; a token that stands at some input ends it, and the strands go on; otherwise the crew parks in place, and a
token that came while the homes registered the park then wakes it. -/
def Obligations.Parks : Prop :=
  (∀ (s : State) (i : Instr), hasTask s → i = .parkRes ∨ i = .parkPool →
    ∃ (t : State) (p : Park), exec i s = .next t ∧ (t.strand s.cur).wait = some (.reply s.serial) ∧ bytesKept s t ∧
      (t.core s.cur.core).parks.find? (fun p => p.task == s.myCrew.task) = some p ∧ s.cur ∈ p.strands ∧ (i = .parkPool → p.pooled = true) ∧
      (s.myCrew.pos = [s.cur.pos] → ⟨s.cycle, .parkTakeEffect s.cur.core s.myCrew.task⟩ ∈ t.pending)) ∧
  (∀ (s : State) (core task n : Nat) (p : Park) (ch : Channel), (s.core core).parks.find? (fun p => p.task == task) = some p →
    s.chan? (s.owned core (.crew task)).pid n = some ch → p.stage = 2 → n ∈ p.waiting →
    ∃ (t : State) (c : Channel) (q : Park), exec (.parkRegister core task n) s = .next t ∧
      t.chan? (s.owned core (.crew task)).pid n = some c ∧ c.parked = true ∧
      (t.core core).parks.find? (fun p => p.task == task) = some q ∧ q.waiting = p.waiting.filter (· != n) ∧
      q.token = (p.token || decide (ch.marker.getD ch.count ≠ 0)) ∧
      ((∀ m ∈ p.waiting, m = n) → ⟨s.cycle + (halfTime (64 * dieOf core) ch.homeDie - 1), .parkTakeEffect core task⟩ ∈ t.pending)) ∧
  ∀ (s : State) (core task : Nat) (p : Park) (t : Task), (s.core core).parks.find? (fun p => p.task == task) = some p →
    (s.job? (s.owned core (.crew task)).pid).bind (fun j => j.task? task) = some t → p.gathered (s.owned core (.crew task)) = true →
    (s.owned core (.crew task)).stopped = false → p.stage = 2 → p.waiting = [] →
    (p.token = true → p.strands.Nodup → (∀ sid ∈ p.strands, sid.pos < 17 ∧ sid.core = core) →
      ∃ u : State, exec (.parkTakeEffect core task) s = .next u ∧ bytesKept s u ∧
        (∀ sid ∈ p.strands, ∀ n, (s.strand sid).wait = some (.reply n) → goesOn s u sid n 1) ∧
        ∀ q ∈ (u.core core).parks, q.task ≠ task) ∧
    (p.token = false → s.streamsOver (s.owned core (.crew task)).pid t = false → p.pooled = false →
      ∃ (u : State) (q : Park) (v : Task), exec (.parkTakeEffect core task) s = .next u ∧ bytesKept s u ∧
        (u.core core).parks.find? (fun p => p.task == task) = some q ∧ q.stage = 3 ∧
        (u.job? (s.owned core (.crew task)).pid).bind (fun j => j.task? task) = some v ∧ v.phase = .parkedResident ∧
        q.token = p.woken.isSome ∧ ∀ die, p.woken = some die → ⟨s.cycle + (halfTime (64 * dieOf core) die - 1), .parkTakeEffect core task⟩ ∈ u.pending)

/-- R285, R287-R290. The barrier instructions leave for the group's home, arrivals once the strand's earlier accesses are visible, and the strand waits;
BWAIT before any arrival gives all ones. At the home an arrival counts once for each member, the last one completes the phase and releases
its waiters, and a second one is refused; an implicit drop is never refused. The reply gives the phase once d is free, or traps
(Barrier Over-Arrival). -/
def Obligations.Barriers : Prop :=
  (∀ (f : RF) (s : State) (n : Nat) (g : Group), hasTask s → s.myTask?.bind (fun t => (t.memb[f.b.toNat]?).getD none) = some n →
    s.group? (s.pidOf s.cur) n = some g → g.kind = 1 → g.homeDev = s.device → s.myCrew.synced = [] →
    let last := (s.myCrew.lastPhase[f.b.toNat]?).getD none
    let home (drop sync : Bool) (phase : Option Nat) : State :=
      waiting { s.nextSerial.2 with pending := s.pending ++ [⟨s.cycle + halfTime s.cur.core g.homeDie, .barrierArriveAtHome
        { sid := s.cur, pid := s.pidOf s.cur, task := s.myCrew.task, group := n, memb := f.b.toNat, drop := drop, sync := sync, phase := phase,
          d := f.d, serial := s.serial }⟩] } s.serial
    (s.quiet s.cur = true → exec (.barrive f) s = .next (home false false none) ∧ exec (.bdrop f) s = .next (home true false none) ∧
      exec (.bsync f) s = .next (home false true none)) ∧
    (∀ p, last = some p → s.holdsLater s.cur = false → exec (.bwait f) s = .next (home false false (some p))) ∧
    (last = none → s.canWrite (.s f.d false) → exec (.bwait f) s = .next ((s.putS f.d (BitVec.allOnes 64)).retire 1))) ∧
  (∀ (s : State) (op : BarOp) (j : Job) (b : Barrier), s.job? op.pid = some j → j.barriers.find? (fun b => b.group == op.group) = some b →
    peerOf op.sid.pos = none →
    let member := (s.device, op.task)
    let replies (t : State) (o : BarOp) (refused arrival ends : Bool) (p : Nat) : Prop :=
      ⟨s.cycle + (homeTime o.sid.core (((s.group? o.pid o.group).map (·.homeDie)).getD 0) - 1),
        .barrierReply ⟨o.sid, o.memb, refused, p, arrival, ends, o.d, o.serial⟩⟩ ∈ t.pending
    let barrier (t : State) : Option Barrier := (t.job? op.pid).bind fun j => j.barriers.find? fun b => b.group == op.group
    (op.phase = none → member ∈ b.arr ∨ member ∈ b.drop →
      ∃ t, exec (.barrierArriveAtHome op) s = .next t ∧ replies t op true false true 0 ∧ barrier t = some b) ∧
    (op.phase = none → member ∉ b.arr → member ∉ b.drop → ∃ (t : State) (c : Barrier), exec (.barrierArriveAtHome op) s = .next t ∧
      replies t op false true (!(op.sync && b.n + 1 ≠ b.e)) b.ph ∧ barrier t = some c ∧
      { c with waiters := [] } = { afterArrival b member op.drop with waiters := [] } ∧
      c.waiters = (if b.n + 1 = b.e then b.waiters.filter (fun w => w.2 ≠ b.ph) else b.waiters ++ if op.sync then [(op, b.ph)] else []) ∧
      (b.n + 1 = b.e → ∀ w ∈ b.waiters, w.2 = b.ph → peerOf w.1.sid.pos = none → replies t w.1 false false true b.ph)) ∧
    (∀ p, op.phase = some p → b.ph ≠ p → ∃ t, exec (.barrierArriveAtHome op) s = .next t ∧ replies t op false false true p ∧ barrier t = some b) ∧
    (∀ p, op.phase = some p → b.ph = p →
      ∃ t, exec (.barrierArriveAtHome op) s = .next t ∧ barrier t = some { b with waiters := b.waiters ++ [(op, p)] })) ∧
  (∀ (s : State) (pid task memb n : Nat) (j : Job) (t : Task) (g : Group) (b : Barrier), s.job? pid = some j → j.task? task = some t →
    t.memb[memb]? = some (some n) → j.group? n = some g → g.kind = 1 → g.homeDev = s.device → g.index = n →
    j.barriers.find? (fun b => b.group == n) = some b →
    let member := (s.device, task)
    ∃ u c, exec (.implicitDrop pid task memb) s = .next u ∧ bytesKept s u ∧
      ((u.job? pid).bind fun j => j.barriers.find? fun b => b.group == n) = some c ∧
      (member ∈ b.drop → c = b) ∧
      (member ∉ b.drop → member ∈ b.arr → c = { b with drop := member :: b.drop, d := b.d + 1 }) ∧
      (member ∉ b.drop → member ∉ b.arr → { c with waiters := [] } = { afterArrival b member true with waiters := [] })) ∧
  ∀ (s : State) (r : BarReply), r.sid.pos < 16 → r.memb < 4 → (s.strand r.sid).wait = some (.reply r.serial) →
    (∃ w, (s.core r.sid.core).crewAt r.sid.pos = some w) →
    (r.refused = true → (s.strand r.sid).trapCause.getLsbD 61 = false → ∃ t, exec (.barrierReply r) s = .next t ∧
      (t.strand r.sid).trapCause.toNat % 256 = 0x3F ∧ (t.strand r.sid).pc = (s.core r.sid.core).handlerEntry) ∧
    (r.refused = false → r.ends = true → (s.strand r.sid).bound (.s r.d false) = none → (s.strand r.sid).isFree r.d = true →
      ∃ t, exec (.barrierReply r) s = .next t ∧
      (r.d ≠ 0 → (t.strand r.sid).get r.d = BitVec.ofNat 64 r.phase) ∧ goesOn s t r.sid r.serial 1 ∧
      (t.owned r.sid.core (t.ownerOf r.sid)).lastPhase[r.memb]? =
        some (if r.arrival then some r.phase else ((s.owned r.sid.core (s.ownerOf r.sid)).lastPhase[r.memb]?).getD none))

/-- R86, R120, R142, R271, R273, R275. A dispatcher with nothing to place does nothing; a first placement gives the crew the lowest free positions, its floor
and its starting registers; a job-change clear leaves the slots zero, full and unbound; an entry that has waited 2^20 cycles is held. -/
def Obligations.Dispatch : Prop :=
  (∀ (d : Nat) (s : State), (∀ i, i < 4 → (s.die i).pool = []) → exec (.dispatchPlace d) s = .next s) ∧
  (∀ (d core : Nat) (s : State) (e : PoolEntry) (j : Job) (t : Task), d < 4 → s.bar.sec = 1 → s.bar.pwr = 0 → s.pickOwn d = some (e, core) →
    s.job? e.pid = some j → j.task? e.task = some t → t.ran = false → t.saved = none → t.bound = false → t.index = e.task →
    (s.core core).clearing = false → (∀ p, (s.core core).lastJob = some p → p = e.pid) →
    ∃ (u : State) (w : Crew), exec (.dispatchPlace d) s = .next u ∧ bytesKept s u ∧
      (u.core core).crews.find? (fun w => w.task == e.task) = some w ∧ w.pid = e.pid ∧ w.hold = t.floor ∧ w.floor = t.floor ∧ w.claim = t.claim ∧
      w.pos = ((List.range 16).filter fun p => ((s.core core).crewAt p).isNone).take (t.nsm1 + 1) ∧ w.stopped = false ∧
      (∀ k p, w.pos[k]? = some p →
        let st := u.strand ⟨core, p⟩
        st.pc = t.entry ∧ st.priv = false ∧ st.get 1 = t.arg ∧ st.get 2 = BitVec.ofNat 64 e.task ∧ st.get 3 = BitVec.ofNat 64 k ∧
        st.get 4 = BitVec.ofNat 64 (t.nsm1 + 1) ∧ st.get 31 = BitVec.ofNat 64 (1024 * t.floor.rq) ∧ st.lent = 0 ∧
        ∀ r, r ≠ 1 → r ≠ 2 → r ≠ 3 → r ≠ 4 → r ≠ 31 → st.get r = 0 ∧ st.isFull r = true)) ∧
  (∀ (core : Nat) (s : State), (s.core core).clearing = true → (s.core core).chain7.s = (s.core core).chain7.a →
    (s.core core).clearFrom + 8192 ≤ s.cycle →
    ∃ t : State, exec (.jobChangeClearDone core) s = .next t ∧ t.mem = s.mem ∧ (t.core core).clearing = false ∧ (t.core core).keys = [] ∧
      (t.core core).lastKvict = 247 ∧ (∀ a, a < 248 * 16384 → (t.core core).slots.read a = 0) ∧
      (∀ a, 248 * 16384 ≤ a → (t.core core).slots.read a = (s.core core).slots.read a) ∧ ∀ g, g ∈ (t.core core).empty → 248 * 1024 ≤ g) ∧
  ∀ (d pid task : Nat) (s : State) (e : PoolEntry) (t : Task), d < 4 → (s.die d).pool.find? (fun e => e.pid == pid && e.task == task) = some e →
    (s.cycle < e.since + 2 ^ 20 → exec (.poolEntryHold d pid task) s = .next s) ∧
    (e.since + 2 ^ 20 ≤ s.cycle → s.entryTask e = some t → (s.placeFor d pid t).isSome = true →
      ∃ u, exec (.poolEntryHold d pid task) s = .next u ∧ bytesKept s u ∧ { e with held := true } ∈ (u.die d).pool)

/-! ### Groups and the fabric (spec 18 R313-R333) -/

namespace Sys2Proof.Claims

open Sys2Proof.Machine

/-- The group of a membership of the running strand's task (R286). -/
def member (s : State) (m : Nat) (g : Group) : Prop :=
  hasTask s ∧ ∃ n, s.myTask?.bind (fun t => (t.memb[m]?).getD none) = some n ∧ s.group? (s.pidOf s.cur) n = some g

/-- Every device of a group is this one. -/
def allHere (s : State) (g : Group) : Prop := s.memberDevs g = [s.device]

/-- The largest value of a counter that holds there. -/
def held32 (n : Nat) : BitVec 32 := BitVec.ofNat 32 (min n (2 ^ 32 - 1))

/-- The fabric changed, and nothing else but events to come, free values and numbers given. -/
def onlyFabric (s t : State) : Prop :=
  t = { s with fabric := t.fabric, pending := t.pending, freeCtr := t.freeCtr, serial := t.serial }

/-- A message as it stands in the switch that it has just entered. -/
def entered (s : State) (m : Msg) : Hop := ⟨m, m.detours, none, 0, false, s.cycle, s.serial, 0⟩

end Sys2Proof.Claims

/-- R324, R326, R329, R333, R386. MCST (feature 6) sends its store to the group's sequencer, once no access of the strand to its bytes is outstanding; REDUCE (feature 7; 8 for a Sleet group) sends its vector
as the device's next round and empties its destinations; SLSEND (feature 8) builds a Sleet message and awaits no reply; DEVNUM reads the
device's shape and number. Where a message holds its operands, and the bits of ADDR that name a core and a slot address, are the model's choice
(log 12), as is information 0xFFFF and the budget taken as a signed number into its range (log 23). -/
def Obligations.GroupInstructions : Prop :=
  (∀ (f : RF) (x : Ext) (s : State) (g : Group), s.feature 6 = true → member s x.immA g → g.kind = 2 →
    (g.rwords ≤ x.immB → exec (.mcst f x) s = .next (s.trapAt 0x3A 0xFFFF s.me.pc)) ∧
    (x.immB < g.rwords → s.canIssue [.s f.a f.ta] [.s f.d false] → s.unbound (.s f.d false) → s.holdsLater s.cur = false → s.storesMeet g x.immB = false → (x.order = 0 ∨ s.quiet s.cur = true) →
      (g.homeDev = s.device ∨ s.myCore.cannotSend = false) →
      let op : McstOp :=
        { sid := s.cur, pid := s.pidOf s.cur, group := g.index, word := x.immB, val := s.sval f.a, rel := x.order != 0, d := f.d, serial := s.serial }
      let before (i : Instr) : Bool := match i with
        | .mcstSequence y => y.sid.core == s.cur.core
        | _ => false
      ∃ u v : State, u = (s.nextSerial.2.popAll [.s f.a f.ta]).reserve (.s f.d false) ∧
        v = { u with unapplied := u.unapplied ++ [⟨s.cur, s.serial, some g.index, x.immB, none⟩] } ∧
        exec (.mcst f x) s = .next ((if g.homeDev = s.device then v.postOrdered 188 before (.mcstSequence op)
          else v.sendMsg s.cur.core { v.blankMsg g.homeDev 7 (s.pidOf s.cur) with
            group := g.index, tag := reqTag s.cur s.serial 0
            opnd := (s.sval f.a).toNat + s.me.pc.toNat * 2 ^ 64 + (x.immB + f.d.toNat * 2 ^ 16 + boolNat (x.order != 0) * 2 ^ 24) * 2 ^ 128 }).retire 3))) ∧
  (∀ (f : RF) (x : Ext) (s : State) (g : Group) (j : Job), s.feature 7 = true → member s x.immA g → g.kind = 3 →
    (g.homeDev = s.device ∨ s.myCore.cannotSend = false) →
    s.job? (s.pidOf s.cur) = some j → j.earlyParts g.index (lookupD j.nextRound g.index 0) = [] → s.roundsOut (s.pidOf s.cur) g.index < 8 →
    (g.sleet = true → s.feature 8 = true ∧ f.d.toNat < 8 ∧ x.type ≠ 11 ∧ s.windowBusy f.d = false) →
    let d : Opnd := if g.sleet then .w f.d false else .v f.d false
    s.canIssue [.v f.b f.tb] [d, .s f.a false] → s.unbound (.v f.b f.tb) → s.unbound d → s.unbound (.s f.a false) → s.placed → f.a ≠ 0 →
    ∃ (t : State) (k : Job) (w : RoundWait), exec (.reduce f x) s = .next t ∧ bytesKept s t ∧ t.me.isFull f.a = false ∧
      t.isFull d = false ∧ t.job? (s.pidOf s.cur) = some k ∧ k.waits = j.waits ++ [w] ∧ w.sid = some s.cur ∧ w.app = none ∧ w.app2 = none ∧ w.group = g.index ∧
      w.round = lookupD j.nextRound g.index 0 ∧ lookupD k.nextRound g.index 0 = lookupD j.nextRound g.index 0 + 1 ∧
      (g.homeDev = s.device → ∃ due, due ≤ s.cycle + 188 ∧ ⟨due, .reduceCombine {
        pid := s.pidOf s.cur, group := g.index, round := lookupD j.nextRound g.index 0, member := (s.membersOn g s.device).headD 0
        bf16 := x.type == 11, lanes := elementsOf (x.type == 11) (s.vbytes f.b), blocks := BitVec.allOnes 8 }⟩ ∈ t.pending) ∧
      (g.homeDev ≠ s.device → ∃ m ∈ (t.core s.cur.core).inject, m.dst = g.homeDev ∧ m.op = 9 ∧ m.cls = (if g.sleet then 3 else 1) ∧
        m.group = g.index ∧ m.gseq = lookupD j.nextRound g.index 0 ∧ m.pay = flitsOf (s.vbytes f.b))) ∧
  (∀ (f : RF) (x : Ext) (s : State) (r : Nat), s.feature 8 = true → s.record s.cur.core (s.pidOf s.cur) x.handle.toNat = .ok r →
    s.canIssue (coordOpnds x ++ [.v f.a f.ta, .s f.b f.tb]) [] → s.myCore.cannotSend = false →
    let place := locate r (dieOf s.cur.core) (coordsOf x s)
    recSpace r = 3 → recW r = true → (coordRegs x).length ≤ recRank r → recStride r 0 = typeSize (recFormat r) → inside r (coordsOf x s) →
    place % 16384 + 512 ≤ 16384 → place % 64 = 0 →
    ∃ u : State, u = s.nextSerial.2.popAll (coordOpnds x ++ [.v f.a f.ta, .s f.b f.tb]) ∧
      exec (.slsend f x) s = .next ((({ u with unapplied := u.unapplied ++ [⟨s.cur, s.serial, none, 0, none⟩] } : State).sendMsg s.cur.core
        { s.blankMsg (recPeer r) 11 (s.pidOf s.cur) with
          cls := 3, pseq := s.serial, budget := (max 0 (min (s.sval f.b).toInt 65535)).toNat, addr := 2 ^ 63 + recCore r % 256 * 2 ^ 22 + place % 2 ^ 22
          tag := reqTag s.cur s.serial 0, pay := flitsOf (s.vbytes f.a) }).retire 3)) ∧
  ∀ (f : RF) (s : State), s.canWrite (.s f.d false) → exec (.devnum f) s = .next ((s.putS f.d (s.fabric.shape.setWidth 64)).retire 1)

/-- R326-R328. The sequencer stamps the next number, or answers GROUP_FAIL with the stable number from a frozen group; a member applies the next store
in sequence, word and SEQ together, keeps an early one and applies nothing for a repeated one; a member that has not acknowledged a store
for 1 ms freezes the group. -/
def Obligations.OrderedGroups : Prop :=
  (∀ (s : State) (op : McstOp) (g : Group) (q : Sequencer), s.group? op.pid op.group = some g → s.seq? op.pid op.group = some q →
    peerOf op.sid.pos = none → op.sid.pos < 17 → (∃ x, s.unapplied.find? (fun u => u.sid == op.sid && u.serial == op.serial) = some x ∧ x.app = none) → op.d ≠ 0 →
    (q.frozen = true → ∃ t, exec (.mcstSequence op) s = .next t ∧ bytesKept s t ∧
      (t.strand op.sid).get op.d = BitVec.ofNat 64 (2 ^ 56 + q.stable % 2 ^ 32) ∧ (t.strand op.sid).isFull op.d = true ∧
      t.seq? op.pid op.group = some q ∧ ∀ u ∈ t.unapplied, u.serial ≠ op.serial) ∧
    (q.frozen = false → q.queue = [] → q.room = true → ∃ t, exec (.mcstSequence op) s = .next t ∧ bytesKept s t ∧
      (t.strand op.sid).get op.d = BitVec.ofNat 64 ((q.n + 1) % 2 ^ 32) ∧ (t.strand op.sid).isFull op.d = true ∧
      t.seq? op.pid op.group = some { q with n := (q.n + 1) % 2 ^ 32, stores := q.stores ++ [((q.n + 1) % 2 ^ 32, op, s.cycle)] } ∧
      ∃ x ∈ t.unapplied, x.sid = op.sid ∧ x.serial = op.serial)) ∧
  (∀ (s : State) (pid gi n w base : Nat) (x : Word) (j : Job) (g : Group) (m : GroupMember) (i : Nat), s.job? pid = some j → j.group? gi = some g →
    g.index = gi → j.members.find? (fun m => m.group == gi) = some m → g.homeDev ≠ s.device → s.membersOn g s.device = [i] →
    s.orderedMember g i = (base, s.device) → s.oob = false → base + 8 * w + 8 ≤ 576 * 2 ^ 30 → 1 ≤ w → n < 2 ^ 32 → m.early = [] →
    let after (t : State) : Option GroupMember := (t.job? pid).bind fun j => j.members.find? fun m => m.group == gi
    (n = (m.applied + 1) % 2 ^ 32 → m.applied < 2 ^ 32 → ∃ t, exec (.multicastApply pid gi n w x) s = .next t ∧
      t.mem.readNat (base + 8 * w) 8 = x.toNat ∧ t.mem.readNat base 8 = n ∧
      (∀ a, ¬(base + 8 * w ≤ a ∧ a < base + 8 * w + 8) → ¬(base ≤ a ∧ a < base + 8) → t.mem.read a = s.mem.read a) ∧
      after t = some { m with applied := n }) ∧
    (n ≠ (m.applied + 1) % 2 ^ 32 → 2 ^ 31 ≤ ((m.applied : Int) - n) % 2 ^ 32 → ∃ t, exec (.multicastApply pid gi n w x) s = .next t ∧
      t.mem = s.mem ∧ after t = some { m with early := [(n, w, x)] }) ∧
    (((m.applied : Int) - n) % 2 ^ 32 < 2 ^ 31 → ∃ t, exec (.multicastApply pid gi n w x) s = .next t ∧ t.mem = s.mem ∧ after t = some m)) ∧
  ∀ (s : State) (pid gi member : Nat) (q : Sequencer) (g : Group), s.oob = false → s.seq? pid gi = some q → s.group? pid gi = some g →
    let missed (i : Nat) (x : Nat × McstOp × Nat) : Prop := 2 ^ 31 ≤ (((q.acked.getD i 0 : Nat) : Int) - x.1) % 2 ^ 32
    ((∀ x ∈ q.stores, ¬(x.2.2 + 1250000 ≤ s.cycle ∧ missed member x)) → exec (.multicastAckTimeout pid gi member) s = .next s) ∧
    ((∃ x ∈ q.stores, x.2.2 + 1250000 ≤ s.cycle ∧ missed member x) → q.frozen = false →
      (∃ x ∈ q.stores, ∃ i, i < q.acked.length ∧ s.memberDev g i ≠ s.memberDev g member ∧ missed i x) →
      ∃ t r, exec (.multicastAckTimeout pid gi member) s = .next t ∧ t.mem = s.mem ∧ t.seq? pid gi = some r ∧ r.frozen = true ∧ r.failed = member ∧
        r.n = q.n ∧ r.queue = [])

/-- R329-R331. The first contribution opens a round at its root, with the group's time running; the last one of a reliable round ends it with each
element rounded once; a round whose time is over fails, with the bitmap of missing members in REPORT; a result lands with its status, a
failed one leaves the destination's bytes; the contributions that a switch holds of a Sleet round go on as their exact sum; a bulk reduction (R332) sends its next source vector as a
round while fewer than 8 of the group's rounds are outstanding. -/
def Obligations.Reductions : Prop :=
  (∀ (s : State) (op : RedOp) (g : Group), s.oob = false → s.group? op.pid op.group = some g → g.index = op.group →
    let more := if op.part.isSome then op.more else []
    (s.round? op.pid op.group op.round = none → more.length + 1 ≠ g.nmemb ∨ g.sleet = true → ∃ t r, exec (.reduceCombine op) s = .next t ∧ bytesKept s t ∧
      t.round? op.pid op.group op.round = some r ∧ r.got = op.member :: more ∧ r.since = s.cycle ∧ r.failed = false ∧
      t.pending = s.pending ++ [⟨s.cycle + 1250 * g.tmo, .reduceRoundTimeout op.pid op.group op.round⟩]) ∧
    (∀ r, s.round? op.pid op.group op.round = some r → r.round = op.round → op.member ∈ r.got → exec (.reduceCombine op) s = .next s) ∧
    (∀ r, s.round? op.pid op.group op.round = some r → r.group = op.group → r.round = op.round → (∀ m ∈ op.member :: op.more, m ∉ r.got) → r.failed = false →
      g.sleet = false → r.got.length + more.length + 1 = g.nmemb → allHere s g →
      ∃ t due, exec (.reduceCombine op) s = .next t ∧ bytesKept s t ∧ due ≤ s.cycle + 188 ∧ t.round? op.pid op.group op.round = none ∧
        t.pending = s.pending ++ [⟨due, .reduceResultDeliver { pid := op.pid, group := g.index, round := op.round, failed := false, missing := 0
                                                               lanes := (r.add op).lanes.map fun p => BitVec.ofNat 32
                                                                 ((WVal.mk p.1 p.2).roundTo (if r.bf16 then .bf16 else .f32))
                                                               image := [], counts := [] }⟩])) ∧
  (∀ (s : State) (pid gi k : Nat) (g : Group) (r : Round), s.oob = false → s.group? pid gi = some g → g.index = gi → s.round? pid gi k = some r →
    r.round = k → r.group = gi →
    (r.failed = true → exec (.reduceRoundTimeout pid gi k) s = .next s) ∧
    (r.failed = false → g.sleet = false → allHere s g →
      let map := bitmapBytes g.nmemb ((List.range g.nmemb).filter fun i => i ∉ r.got)
      g.report + map.length ≤ 576 * 2 ^ 30 →
      ∃ t u, exec (.reduceRoundTimeout pid gi k) s = .next t ∧ t.mem.readBytes g.report map.length = map ∧
        (∀ a, a < g.report ∨ g.report + map.length ≤ a → t.mem.read a = s.mem.read a) ∧ t.round? pid gi k = some u ∧ u.failed = true ∧
        ⟨s.cycle, .reduceResultDeliver { pid := pid, group := gi, round := k, failed := true
                                         missing := ((List.range g.nmemb).filter fun i => i ∉ r.got).length
                                         lanes := [], image := [], counts := [] }⟩ ∈ t.pending)) ∧
  (∀ (s : State) (res : RedResult) (j : Job) (g : Group) (w : RoundWait) (sid : SId), s.job? res.pid = some j → j.group? res.group = some g →
    j.waits.find? (fun w => w.group == res.group && w.round == res.round) = some w → w.sid = some sid → w.win = false → w.a ≠ 0 →
    sid.pos < 16 → (∃ c, (s.core sid.core).crewAt sid.pos = some c) → w.app = none → w.app2 = none → w.base % 64 = 0 → res.lanes.length = (if w.bf16 then 256 else 128) →
    ∃ t : State, exec (.reduceResultDeliver res) s = .next t ∧ bytesKept s t ∧
      (t.strand sid).get w.a = (if res.failed then BitVec.ofNat 64 (2 ^ 56 + res.missing % 2 ^ 16 * 2 ^ 8) else 0) ∧ (t.strand sid).isFull w.a = true ∧
      (t.owned sid.core (s.ownerOf sid)).window.readBytes w.base 512 =
        (if res.failed then (s.owned sid.core (s.ownerOf sid)).window.readBytes w.base 512 else elementBytes w.bf16 res.lanes) ∧
      (∀ l, w.base / 64 ≤ l → l < w.base / 64 + 8 → l ∉ (t.owned sid.core (s.ownerOf sid)).empty) ∧
      ∀ k, t.job? res.pid = some k → ∀ x ∈ k.waits, ¬(x.group = res.group ∧ x.round = res.round)) ∧
  (∀ (s : State) (pid gi k : Nat),
    let found := s.fabric.hops.find? fun h => h.held && h.msg.pid == pid && h.msg.group == gi && h.msg.gseq == k
    (found = none → exec (.sleetPartialForward pid gi k) s = .next s) ∧
    ∀ h, found = some h → h.port = none → ∃ t x, exec (.sleetPartialForward pid gi k) s = .next t ∧ onlyFabric s t ∧
      x ∈ t.fabric.hops ∧ x.id = h.id ∧ x.held = false ∧ ⟨s.cycle, .switchForward⟩ ∈ t.pending ∧
      (∀ y ∈ t.fabric.hops, y.id ≠ h.id → y ∈ s.fabric.hops ∧ h.meets y = false) ∧
      ∀ a b, s.fabric.hops.filter (fun y => h.meets y) = [a, b] → x.msg.part = some (plusPart (asPart a.msg) (asPart b.msg))) ∧
  ∀ (s : State) (e : EntryRef) (x : Entry) (task : Nat) (g : Group), s.entry? e = some x → e.owner = .crew task → x.stage = 1 →
    let b := (s.core e.core).entryBytes x
    s.memberGroup x.pid task (brMemb b) = some g → g.homeDev = s.device →
    (x.todo = [] → exec (.bulkReduceVector e) s = .next s) ∧
    (x.todo ≠ [] → 8 ≤ s.roundsOut x.pid g.index → exec (.bulkReduceVector e) s = .next (s.post 64 (.bulkReduceVector e))) ∧
    ∀ v rest bytes j, x.todo = v :: rest → s.roundsOut x.pid g.index < 8 → s.job? x.pid = some j →
      (s.core e.core).sourceBytes [] (sourcePlaces (brSslot b) (brSoff b + 512 * v) 512 0) 512 = .bytes bytes →
      ∃ (t : State) (k : Job) (w : RoundWait) (due : Nat), exec (.bulkReduceVector e) s = .next t ∧ bytesKept s t ∧
        t.entry? e = some { x with todo := rest, flight := x.flight + 1 } ∧ t.job? x.pid = some k ∧ k.waits = j.waits ++ [w] ∧ w.entry = some e ∧
        w.base = v ∧ w.group = g.index ∧ w.round = lookupD j.nextRound g.index 0 ∧ due ≤ s.cycle + 188 ∧ ⟨due, .reduceCombine {
          pid := x.pid, group := g.index, round := lookupD j.nextRound g.index 0, member := (s.membersOn g s.device).headD 0
          bf16 := brBf16 b, lanes := elementsOf (brBf16 b) bytes, blocks := BitVec.allOnes 8 }⟩ ∈ t.pending

/-- R314-R319. A core's oldest message enters the switch, a reliable one with the next number of its pair and a copy kept; the switch delivers at
home, sends along the dimension order, or drops where no way is left; a link that fails 16 replays goes down; a kept message is sent
again three times and then given up, and an acknowledgement ends that; an arrival with a reserved field or a poison tail is counted. The mark of a
message sent again, the key of a kept copy (interface and class), and the series number that tells the pair numbers before an interface reset
from those after it, are the model's choices (log 12), and so is that a flit with a bad link check is one without validity that holds bytes. -/
def Obligations.MessagesTravel : Prop :=
  (∀ (core : Nat) (s : State), (s.core core).niBusy = false → (s.core core).inject = [] → ∃ t : State, exec (.messageInject core) s = .next t ∧ t.mem = s.mem ∧
    (t.core core).inject = (s.core core).spilled.take 1 ∧ (t.core core).spilled = (s.core core).spilled.drop 1 ∧ t.fabric = s.fabric) ∧
  (∀ (core : Nat) (s : State) (m : Msg) (rest : List Msg), (s.core core).niBusy = false → (s.core core).inject = m :: rest → m.cls ≠ 3 →
    ∃ (t : State) (n : Nat), exec (.messageInject core) s = .next t ∧ t.mem = s.mem ∧ n = lookupD (s.core core).pairNext (m.dst * 4 + m.cls) 0 ∧
      (t.core core).inject = rest ++ (s.core core).spilled.take (if rest.length < 16 then 1 else 0) ∧ (t.core core).kept = (s.core core).kept ++ [({ m with pseq := n, series := (s.core core).series }, s.cycle, 0)] ∧
      lookupD (t.core core).pairNext (m.dst * 4 + m.cls) 0 = (n + 1) % 2 ^ 32 ∧
      t.fabric.hops = s.fabric.hops ++ [entered s { m with pseq := n, series := (s.core core).series }] ∧
      ⟨s.cycle + 80000, .endToEndResend (core + m.cls * 2 ^ 16) m.dst n⟩ ∈ t.pending) ∧
  (∀ (core : Nat) (s : State) (m : Msg) (rest : List Msg), (s.core core).niBusy = false → (s.core core).inject = m :: rest → m.cls = 3 →
    ∃ (t : State) (h : Hop), exec (.messageInject core) s = .next t ∧ t.mem = s.mem ∧ (t.core core).kept = (s.core core).kept ∧
      t.unapplied = s.unapplied.filter (fun u => u.serial != m.pseq) ∧ t.fabric.hops = s.fabric.hops ++ [h] ∧ h.msg = m ∧ h.port = none ∧
      (h.held = true ↔ m.op = 9)) ∧
  (∀ (s : State), ((∀ h ∈ s.fabric.hops, h.waiting = false) → exec .switchForward s = .next s) ∧
    ∀ h, s.fabric.hops.find? Hop.waiting = some h →
      let left (t : State) : Prop := exec .switchForward s = .next t ∧ onlyFabric s t
      let gone (t : State) : Prop := (∀ x ∈ t.fabric.hops, x ∈ s.fabric.hops ∧ x.id ≠ h.id) ∧
        t.fabric.sleetDrop = if h.msg.cls = 3 then held32 (s.fabric.sleetDrop.toNat + 1 + h.msg.pay.length) else s.fabric.sleetDrop
      let sent (t : State) (p n : Nat) : Prop := ∃ x ∈ t.fabric.hops, x.id = h.id ∧ x.port = some p ∧ x.detours = n
      (s.routePort h.msg.dst = none → ∃ t, left t ∧
        t.pending = s.pending ++ [⟨s.cycle, .messageArrive h.msg⟩] ∧ t.fabric.hops = s.fabric.hops.filter fun x => x.id != h.id) ∧
      ∀ p, s.routePort h.msg.dst = some p →
        (s.portUp p = true → s.replayRoom p h.msg = true → ∃ t, left t ∧ sent t p h.detours) ∧
        (s.portUp p = false → (2 ≤ h.detours ∨ s.detourPort = none) → ∃ t, left t ∧ gone t) ∧
        ∀ q, s.portUp p = false → h.detours < 2 → s.detourPort = some q → s.replayRoom q h.msg = true → ∃ t, left t ∧ sent t q (h.detours + 1)) ∧
  (∀ (port : Nat) (s : State) (h : Hop), port < 8 → s.fabric.hops.find? (fun h => h.port == some port) = some h → h.msg.cls ≠ 3 →
    (∃ t, exec (.linkReplay port true) s = .next t ∧ onlyFabric s t ∧ t.fabric.hops.length + 1 = s.fabric.hops.length) ∧
    (16 ≤ h.replays → ∃ t, exec (.linkReplay port false) s = .next t ∧ onlyFabric s t ∧ t.fabric.linkDown.getLsbD port = true ∧
      (∀ x ∈ t.fabric.hops, x.port ≠ some port) ∧
      ∀ x ∈ s.fabric.hops, x.port = some port → x.msg.cls ≠ 3 → { x with port := none, replays := 0 } ∈ t.fabric.hops)) ∧
  (∀ (core dst pseq : Nat) (s : State) (m : Msg) (at_ n : Nat), core < 0xFFFF →
    let mine (x : Msg × Nat × Nat) : Bool := x.1.dst == dst && x.1.cls == 0 && x.1.pseq == pseq
    s.oob = false → (s.core core).kept.find? mine = some (m, at_, n) → n < 3 →
    ∃ t, exec (.endToEndResend core dst pseq) s = .next t ∧ t.mem = s.mem ∧ (t.core core).kept.find? mine = some (m, s.cycle, n + 1) ∧
      t.fabric.hops = s.fabric.hops ++ [entered s { m with again := true }] ∧ ⟨s.cycle + 80000, .endToEndResend core dst pseq⟩ ∈ t.pending) ∧
  (∀ (core dst pseq : Nat) (s : State), core < 0xFFFF → s.oob = false → ∃ t : State, exec (.acknowledgeArrive core dst pseq) s = .next t ∧ t.mem = s.mem ∧
    (t.core core).kept = (s.core core).kept.filter fun x => !(x.1.dst == dst && x.1.cls == 0 && x.1.pseq == pseq)) ∧
  ∀ (s : State) (m : Msg), s.oob = false → s.bar.pwr = 0 → s.bar.sec ≠ 0 →
    (15 < m.op ∨ 8 < m.pay.length ∨ m.resv ≠ 0 ∨ m.poisoned = true → exec (.messageArrive m) s = .next { s with fabric := { s.fabric with poison := held32 (s.fabric.poison.toNat + 1) } }) ∧
    (m.op ≤ 15 → m.pay.length ≤ 8 → m.resv = 0 → m.poisoned = false → m.dst ≠ s.device →
      ∃ (t : State) (b : Nat) (h : Hop), exec (.messageArrive m) s = .next t ∧ onlyFabric s t ∧ b ≤ m.budget ∧ m.budget ≤ b + 2 ∧
        (m.cls ≠ 3 → b = m.budget) ∧ t.fabric.hops = s.fabric.hops ++ [h] ∧ h.msg = { m with
          budget := b, pay := if m.cls = 3 then m.pay.map (fun p => if p.1 then p else (false, 0)) else m.pay } ∧ h.detours = m.detours ∧ h.port = none ∧
        (h.held = true ↔ m.cls = 3 ∧ m.op = 9))

/-- R316, R319, R323. Links leave and re-enter service; a read of FAB_COUNT clears it; a Sleet header held past its budget drops the message, a payload
flit becomes a zero flit; a Sleet write's valid flits land full, its invalid ones as zeros with no granule bit changed. That DOWN reads 0 at the
write, while the link still retrains, is the model's choice (log 25), and so is where ADDR names the core (log 12). -/
def Obligations.LinksAndSleet : Prop :=
  (∀ (port : Nat) (s : State), port < 8 →
    (∃ t, exec (.linkStateDown port) s = .next t ∧ onlyFabric s t ∧ t.fabric.linkDown.getLsbD port = true ∧ t.fabric.retrain.getLsbD port = false ∧
      ∀ q, q ≠ port → t.fabric.linkDown.getLsbD q = s.fabric.linkDown.getLsbD q) ∧
    (s.fabric.linkDown.getLsbD port = true → ∃ t due, exec (.linkStateRetrain port) s = .next t ∧
      onlyFabric s t ∧ t.fabric.linkDown.getLsbD port = false ∧ t.fabric.retrain.getLsbD port = true ∧ t.portUp port = false ∧ due ≤ s.cycle + 250000 ∧
      t.pending = s.pending ++ [⟨due, .linkRetrainDone port⟩]) ∧
    (s.fabric.linkDown.getLsbD port = false → exec (.linkStateRetrain port) s = .next s) ∧
    ∃ t, exec (.linkRetrainDone port) s = .next t ∧ onlyFabric s t ∧ t.fabric.retrain.getLsbD port = false ∧ t.fabric.linkDown = s.fabric.linkDown ∧
      ∀ q, q ≠ port → t.fabric.retrain.getLsbD q = s.fabric.retrain.getLsbD q) ∧
  (∀ s : State, exec .fabCountRead s = .next { s with fabric := { s.fabric with sleetDrop := 0, poison := 0 } }) ∧
  (∀ (n flit : Nat) (s : State) (h : Hop), s.fabric.hops.find? (fun h => h.id == n) = some h → h.msg.cls = 3 → h.held = false →
    (h.port = none → ∃ t, exec (.sleetBudgetExpire n 0) s = .next t ∧ onlyFabric s t ∧ t.fabric.hops = s.fabric.hops.filter (fun x => x.id != n) ∧
      t.fabric.sleetDrop = held32 (s.fabric.sleetDrop.toNat + 1 + h.msg.pay.length)) ∧
    (∀ p, h.port = some p → exec (.sleetBudgetExpire n 0) s = .next s ∧ (flit < h.msg.pay.length →
      ∃ t x, exec (.sleetBudgetExpire n (flit + 1)) s = .next t ∧ onlyFabric s t ∧ t.fabric.sleetDrop = held32 (s.fabric.sleetDrop.toNat + 1) ∧
        t.fabric.hops.find? (fun h => h.id == n) = some x ∧ x.msg.pay = h.msg.pay.set flit (false, 0)))) ∧
  ∀ (s : State) (m : Msg) (core : Nat) (valid : Bool) (v : Nat), m.addr / 2 ^ 22 % 256 = core → m.pay = [(valid, v)] →
    let place := m.addr % 2 ^ 22
    ((s.core core).job ≠ some m.pid →
      exec (.sleetWriteLand m) s = .next { s with fabric := { s.fabric with sleetDrop := held32 (s.fabric.sleetDrop.toNat + 1) } }) ∧
    ((s.core core).job = some m.pid → ∃ t : State, exec (.sleetWriteLand m) s = .next t ∧ t.mem = s.mem ∧
      (t.core core).slots.readNat place 64 = (if valid then v % 2 ^ 512 else 0) ∧
      (∀ a, a < place ∨ place + 64 ≤ a → (t.core core).slots.read a = (s.core core).slots.read a) ∧
      ∀ g, g ∈ (t.core core).empty ↔ g ∈ (s.core core).empty ∧ ¬(valid = true ∧ place / 16 ≤ g ∧ g ≤ (place + 63) / 16))

/-! ### Control registers, fences, the supervisor's controls (spec 05 R113-R118; 07 R152, R153; 09 R192, R193; 19 R342; 21 R357-R376) -/

namespace Sys2Proof.Claims

open Sys2Proof.Machine

/-- CR_TARGET selects the strand itself (R361). -/
def ownTarget (s : State) : Prop := s.me.crTarget.getLsbD 15 = false

/-- A Hasp or supervisor strand (R400). -/
def taskless (s : State) : Prop := s.cur.pos = 16 ∨ 256 ≤ s.cur.core

/-- A request of the running strand is one whose completion a FENCE at a scope waits for: on the device's own memory and slots at every
scope, on host memory from .host on, on other devices from .chs on (R336, R342). -/
def fencedBy (s : State) (scope : Nat) (r : Req) : Prop :=
  r.ofStrand s.cur = true ∧ if r.space = 1 ∨ (∃ e ∈ r.elems, e.host = true) then 6 ≤ scope
    else r.space = 0 ∨ (r.space = 3 ∧ r.peer = s.device) ∨ 7 ≤ scope

/-- What a FENCE of an order, a scope and a group orders has not all taken effect; among it, but under .acq, a REDUCE that has not been delivered
(R307, R329, R340, R342). -/
def fenceOpen (s : State) (order scope : Nat) (group : Option Nat) : Prop :=
  scope ≠ 0 ∧ order ≠ 0 ∧ (s.mapPending s.cur = true ∨ (∃ r ∈ s.reqs, fencedBy s scope r ∧ (order = 1 → r.kind.reads = true)) ∨
    (order ≠ 1 ∧ ∃ j ∈ s.jobs, ∃ w ∈ j.waits, w.sid = some s.cur) ∨ (order ≠ 1 ∧ 7 ≤ scope ∧ (s.unacknowledged = true ∨ ∃ u ∈ s.unapplied, u.sid = s.cur)) ∨
    (scope = 10 ∧ group ≠ none ∧ ∃ u ∈ s.unapplied, u.sid = s.cur ∧ u.group = group))

/-- What a relaxed load has read of a store counts behind an acquire FENCE whose scope holds the store's strand, or if the store is over (R305, R338). -/
def countsNow (s : State) (scope : Nat) (group : Option Nat) (h : Heard) : Heard :=
  (h.1, h.2.bind fun v => if ∀ x, s.req? v = some x → s.oneInstance scope group x (s.reqOf s.cur .load 0) = true then none else some v)

/-- The state behind a FENCE: an acquire side makes what relaxed loads have read count, a release side the stores after it, at its scope (R338); .i
discards the core's fetched words. -/
def fencePast (s : State) (f : RF) (order scope : Nat) (group : Option Nat) : State :=
  let s := if scope = 0 ∨ order = 0 then s else s.modMe fun st =>
    { st with heard := if order = 2 then st.heard else s.me.heard.map (countsNow s scope group),
              fenced := if order = 1 then st.fenced else ((scope, group) :: st.fenced).eraseDups }
  if f.qf.getLsbD 0 then s.modMyCore fun c => { c with icache := [] } else s

/-- A message to a die's mailbox is on its way (R358, R359): its kind and its INFO word. -/
def mailed (t : State) (due die kind : Nat) (info : Word) : Prop :=
  ∃ m : MboxMsg, ⟨due, .mailboxPost die m⟩ ∈ t.pending ∧ m.d0.toNat % 256 = kind ∧ m.info = info

/-- The strands of a crew wait for nothing. -/
def calmCrew (s : State) (core : Nat) (w : Crew) : Prop :=
  ∀ p ∈ w.pos, p < 16 ∧ (s.strand ⟨core, p⟩).wait = none ∧ s.parkOf ⟨core, p⟩ = none

/-- A task of a job, and its descriptor. -/
def taskOfJob (s : State) (pid task : Nat) : Option Task := (s.job? pid).bind fun j => j.task? task

/-- The task names no channel. -/
def noChannels (x : Task) : Prop := ∀ c ∈ x.chans, c = none

end Sys2Proof.Claims

/-- R113-R118, R360, R361, R5. CRRD reads the register of the strand that CR_TARGET selects, and clears FAB_COUNT by reading it; CRWR writes
one, once the strand's earlier accesses have taken effect where the number is privileged; read-only registers keep their values. In user mode
a privileged number traps (Privileged Instruction), and a number that names no register traps (Illegal Instruction). -/
def Obligations.ControlRegisters : Prop :=
  (∀ (f : RF) (x : Ext) (s : State) (t : SId), s.crAccess x.immA = .ok t → s.canIssue [] [.s f.d false] →
    let read := s.putS f.d (s.crRead t (dieOf s.cur.core) x.immA)
    (x.immA ≠ 0x300 → exec (.crrd f x) s = .next (read.retire 3)) ∧
    (x.immA = 0x300 → exec (.crrd f x) s =
      .next ({ read with fabric := { read.fabric with sleetDrop := 0, poison := 0 } }.retire 3))) ∧
  (∀ (f : RF) (x : Ext) (s : State), s.me.priv = true → ownTarget s → s.canIssue [] [.s f.d false] →
    ∀ r ∈ [(0x002, s.cycleOf (dieOf s.cur.core)), (0x003, s.me.issued), (0x004, s.me.lent), (0x005, s.me.retryLimit.setWidth 64),
      (0x006, s.me.gatherDrops.setWidth 64), (0x00E, BitVec.ofNat 64 s.me.loops.length), (0x010, s.bar.drvLo &&& 0x7FF#64), (0x100, s.me.trapPc),
      (0x101, s.me.trapCause), (0x102, s.me.trapInfo), (0x104, s.me.hscratch[0]), (0x107, s.me.hscratch[3]), (0x108, s.me.crTarget),
      (0x110, s.myCore.handlerEntry), (0x121, s.myCore.haspEntry), (0x180, s.myCore.slotErased.setWidth 64), (0x190, s.myCore.ppointDefer),
      (0x302, s.fabric.shape.setWidth 64)],
      x.immA = r.1 → exec (.crrd f x) s = .next ((s.putS f.d r.2).retire 3)) ∧
  (∀ (f : RF) (x : Ext) (s : State), s.me.priv = true → ownTarget s → s.canIssue [.s f.a f.ta] [] → s.quiet s.cur = true → s.oob = false →
    let v := s.sval f.a
    let p := (s.popAll [.s f.a f.ta]).retire 3
    ∀ r ∈ [(0x003, p), (0x101, p), (0x010, p), (0x005, p.modMe fun st => { st with retryLimit := v.setWidth 16 }),
      (0x006, p.modMe fun st => { st with gatherDrops := v.setWidth 32 }), (0x100, p.modMe fun st => { st with trapPc := v }),
      (0x104, p.modMe fun st => { st with hscratch := st.hscratch.set 0 v }), (0x110, p.modMyCore fun c => { c with handlerEntry := v }),
      (0x121, p.modMyCore fun c => { c with haspEntry := v }),
      (0x140, p.modDie (dieOf s.cur.core) fun d => { d with mboxBase := v &&& 0xFFFFFFFFFF000#64 }), (0x211, { p with faultHost := v.getLsbD 0 }),
      (0x302, { p with fabric := { p.fabric with shape := v.setWidth 26 } })],
      x.immA = r.1 → exec (.crwr f x) s = .next r.2) ∧
  (∀ (f : RF) (x : Ext) (s : State), s.me.priv = true → ownTarget s → s.canIssue [.s f.a f.ta] [] → s.quiet s.cur = true → s.oob = false →
    x.immA = 0x190 → ∃ p t : State, p = (s.popAll [.s f.a f.ta]).retire 3 ∧ exec (.crwr f x) s = .next t ∧
      t = { p.modMyCore fun c => { c with ppointDefer := s.sval f.a &&& 0x1FFFF#64 } with pending := t.pending } ∧
      ∀ e ∈ p.pending, e ∈ t.pending) ∧
  (∀ (f : RF) (x : Ext) (s : State), s.oob = false → s.me.priv = false → 0x100 ≤ x.immA →
    exec (.crrd f x) s = .next (s.trapAt 0x04 0 s.me.pc) ∧ exec (.crwr f x) s = .next (s.trapAt 0x04 0 s.me.pc)) ∧
  (∀ (f : RF) (x : Ext) (s : State), s.oob = false → s.me.priv = true → x.immA ∈ [0x007, 0x00F, 0x012, 0x103, 0x303, 0xFFF] →
    exec (.crrd f x) s = .next (s.trapAt 0x02 0 s.me.pc) ∧ exec (.crwr f x) s = .next (s.trapAt 0x02 0 s.me.pc)) ∧
  ∀ (sid : SId) (v : Word) (s : State), sid.pos < 17 →
    let foreign : Prop := sid.core < 256 ∧ sid.pos < 16 ∧ v.getLsbD 15 = true ∧ (v.getLsbD 13 = true ∨ v.toNat % 256 ≠ sid.core)
    (foreign → exec (.crTargetWrite sid v) s = .next (s.trapOf sid 0x04)) ∧
    (¬foreign → exec (.crTargetWrite sid v) s = .next (s.modStrand sid fun st => { st with crTarget := v &&& 0xBFFF#64 }))

/-- R239, R307, R342, R362, R376. FENCE goes on once what its order and scope name has taken effect, and waits until then; it discards the
core's fetched instruction words under .i; one at scope .grp without the membership traps. PPOINT completes, and the first one after a request
decides the live mask. HALT completes in privileged mode: a crew strand halts, the Hasp strand stops, a pending interrupt is taken instead. That
.acq passes a REDUCE, and that at .grp a FENCE waits for the group's multicast stores under any order, are the model's choices (log 8), as is how
what a strand has heard of is kept (log 13). -/
def Obligations.FencesPointsAndHalts : Prop :=
  (∀ (f : RF) (s : State),
    (¬fenceOpen s 4 5 none → exec (.fence f) s = .next ((fencePast s f 4 5 none).retire 1)) ∧
    (fenceOpen s 4 5 none → exec (.fence f) s = .next (s.lend .poll))) ∧
  (∀ (f : RF) (x : Ext) (s : State),
    let group := s.myTask?.bind fun t => (t.memb[x.immA]?).getD none
    x.scope ≠ 10 ∨ (hasTask s ∧ group.isSome = true) →
    (¬fenceOpen s x.order.toNat x.scope.toNat group → exec (.fenceExt f x) s = .next ((fencePast s f x.order.toNat x.scope.toNat group).retire 3)) ∧
    (fenceOpen s x.order.toNat x.scope.toNat group → exec (.fenceExt f x) s = .next (s.lend .poll))) ∧
  (∀ (f : RF) (x : Ext) (s : State), x.scope = 10 → taskless s ∨ (s.myTask?.bind fun t => (t.memb[x.immA]?).getD none) = none →
    exec (.fenceExt f x) s = .next (s.trapAt 0x02 0 s.me.pc)) ∧
  (∀ (f : RF) (s : State),
    (taskless s → exec (.ppoint f) s = .next (s.retire 1)) ∧
    (hasTask s → s.canIssue [.s f.a f.ta] [] →
      let p := (s.popAll [.s f.a f.ta]).retire 1
      (s.myCrew.preempt = none → exec (.ppoint f) s = .next p) ∧
      ∀ q, s.myCrew.preempt = some q → s.myCrew.stopped = false → q.mask = none →
        exec (.ppoint f) s = .next ((p.modMyCrew fun w => { w with preempt := some { q with mask := some ((s.sval f.a).setWidth 8) } }).post 0
          (.preemptTakeEffect s.cur.core s.myCrew.task)))) ∧
  ∀ s : State, s.me.priv = true →
    (hasTask s → exec .halt s = .next ((s.retire 1).modMe fun st => { st with halted := true })) ∧
    (s.cur.core < 256 → s.cur.pos = 16 →
      exec .halt s = .next (((s.retire 1).modMe fun st => { st with halted := true }).modMyCore fun c => { c with haspOn := false })) ∧
    (256 ≤ s.cur.core → s.cur.pos < 16 → exec .halt s = .next ((s.retire 1).modMe fun st =>
      if s.me.irq then { st with irq := false } else { st with halted := true }))

/-- R357, R364. PREEMPT is deferred while the crew holds accumulator slots, for at most PPOINT_DEFER cycles, and ignored for a free position;
KILL ends the crew, which leaves its core, and its task; RESUME ends the hold and the halts of its strands. -/
def Sys2Proof.Claims.CrewControls : Prop :=
  (∀ (core pos : Nat) (s : State), (s.core core).crewAt pos = none → s.oob = false →
    exec (.crewCtlPreempt core pos) s = .next s ∧ exec (.crewCtlKill core pos) s = .next s ∧ exec (.crewCtlResume core pos) s = .next s) ∧
  ∀ (core pos : Nat) (s : State) (w : Crew), (s.core core).crewAt pos = some w →
    (w.stopped = false → w.preempt = none → w.acMask = 0 → exec (.crewCtlPreempt core pos) s = .next ((s.modCrew core w.task fun w =>
      { w with preempt := some ⟨s.cycle, some (BitVec.allOnes 8)⟩ }).post 0 (.preemptTakeEffect core w.task))) ∧
    (w.stopped = false → w.preempt = none → w.acMask ≠ 0 → exec (.crewCtlPreempt core pos) s = .next ((s.modCrew core w.task fun w =>
      { w with preempt := some ⟨s.cycle, none⟩ }).post (min ((s.core core).ppointDefer.toNat % 2 ^ 17) 125000) (.preemptDeferExpire core w.task))) ∧
    (w.stopped = true ∨ w.preempt ≠ none → exec (.crewCtlPreempt core pos) s = .next s) ∧
    (∀ x, s.oob = false → calmCrew s core w → taskOfJob s w.pid w.task = some x → noChannels x → x.finished = false →
      ∃ t u, exec (.crewCtlKill core pos) s = .next t ∧ bytesKept s t ∧ (t.owned core (.crew w.task)).pos = [] ∧
        taskOfJob t w.pid w.task = some u ∧ u.phase = .killed) ∧
    ∃ t, exec (.crewCtlResume core pos) s = .next t ∧ bytesKept s t ∧ (t.owned core (.crew w.task)).held = false ∧
      ∀ p ∈ w.pos, p < 17 → t.strand ⟨core, p⟩ = { s.strand ⟨core, p⟩ with halted := false }

/-- R358, R359, R363, R369. A message posted to a die's mailbox is written at the slot of HEAD mod 64 with its die's CYCLE as the fifth dword,
HEAD advances, and the supervisor strand's halt ends; MSI-X is raised where FAULT_CTL.HOST is 1. A full ring makes the poster wait. A reset of
an interface that holds no reliable message empties it and starts its pair numbers again, and is over within 256 cycles, when spilled messages that
have come back take the free places; one of its own accord also reports unit 2. GO starts the Hasp strand at HASP_ENTRY in the mode that MODE names; that a GO for a strand already runnable changes
nothing is the model's choice (log 26). STOP takes it off its core. -/
def Sys2Proof.Claims.InterfaceAndHaspControls : Prop :=
  (∀ (die : Nat) (m : MboxMsg) (s : State), die < 4 → s.oob = false → (s.die die).mboxWait = [] →
    let d := s.die die
    let at_ := d.mboxBase.toNat / 2 ^ 12 % 2 ^ 40 * 4096 + 64 * (d.mboxHead.toNat % 64)
    ((d.mboxHead - d.mboxTail).toNat = 64 →
      exec (.mailboxPost die m) s = .next (s.modDie die fun x => { x with mboxWait := [m] })) ∧
    ((d.mboxHead - d.mboxTail).toNat ≠ 64 → at_ + 64 ≤ 576 * 2 ^ 30 → ∃ t, exec (.mailboxPost die m) s = .next t ∧
      (∀ i, i < 8 → t.mem.readNat (at_ + 8 * i) 8 = ([m.d0, m.pc, m.info, m.info2, s.cycleOf die].getD i 0).toNat) ∧
      (∀ a, a < at_ ∨ at_ + 64 ≤ a → t.mem.read a = s.mem.read a) ∧ (t.die die).mboxHead = d.mboxHead + 1 ∧
      (t.die die).mboxTail = d.mboxTail ∧ (t.strand ⟨256 + die, 0⟩).halted = false ∧
      t.msix = (if s.faultHost then s.msix ||| 4#4 else s.msix))) ∧
  (∀ (core : Nat) (s : State), s.oob = false → (s.core core).kept = [] → (∀ m ∈ (s.core core).inject ++ (s.core core).spilled, m.cls = 3) →
    let empty (t : State) : Prop := bytesKept s t ∧ (t.core core).inject = [] ∧ (t.core core).spilled = [] ∧ (t.core core).pairNext = [] ∧ (t.core core).niBusy = true ∧
      ∃ due, due ≤ s.cycle + 256 ∧ ⟨due, .niResetDone core⟩ ∈ t.pending
    (∃ t, exec (.niCtlReset core) s = .next t ∧ empty t) ∧
    ∃ t, exec (.niSelfReset core) s = .next t ∧ empty t ∧ mailed t s.cycle (dieOf core) 5 0x20000#64) ∧
  (∀ (core : Nat) (s : State),
    ((s.core core).spilled = [] → exec (.niResetDone core) s = .next (s.modCore core fun c => { c with niBusy := false })) ∧
    ((s.core core).inject = [] → ∃ t, exec (.niResetDone core) s = .next t ∧ bytesKept s t ∧ (t.core core).niBusy = false ∧
      (t.core core).inject = (s.core core).spilled.take 16 ∧ (t.core core).spilled = (s.core core).spilled.drop 16) ∧
    exec (.haspRunnable core) s = .next (s.modCore core fun c => { c with haspOn := true })) ∧
  (∀ (core : Nat) (v : Word) (s : State), core < 256 →
    ((s.core core).haspOn = true ∨ (∃ p ∈ s.pending, p.ev = .haspRunnable core) → exec (.haspCtlGo core v) s = .next s) ∧
    ((s.core core).haspOn = false → (∀ p ∈ s.pending, p.ev ≠ .haspRunnable core) → ∃ t due, exec (.haspCtlGo core v) s = .next t ∧
      bytesKept s t ∧ due ≤ s.cycle + 64 ∧ t.pending = s.pending ++ [⟨due, .haspRunnable core⟩] ∧
      (t.strand ⟨core, 16⟩).pc = (s.core core).haspEntry ∧ (t.strand ⟨core, 16⟩).priv = v.getLsbD 62 ∧
      (t.core core).haspCtl = v &&& 0x600000000000FFFF#64)) ∧
  ∀ (core : Nat) (s : State), (s.strand ⟨core, 16⟩).wait = none → ∃ t, exec (.haspCtlStop core) s = .next t ∧ bytesKept s t ∧
    (t.core core).haspOn = false ∧ ∀ p ∈ t.pending, p.ev ≠ .haspRunnable core

/-- R152, R153. A write of SLOT_ERASED that names at most two banks changes the banks and starts a pass, one of more banks nothing; the end of the
pass makes the rewritten symbols right; the scrubber visits the stores in turn, a row every 4 cycles, so that each store's next row follows after 1,024 cycles; the order of
the visits is the model's reading (log 19). -/
def Sys2Proof.Claims.BankErasureAndScrub : Prop :=
  (∀ (core : Nat) (v : Word) (s : State),
    (2 < ((List.range 34).filter v.getLsbD).length → exec (.slotErasedWrite core v) s = .next s) ∧
    (((List.range 34).filter v.getLsbD).length ≤ 2 → ∃ t due, exec (.slotErasedWrite core v) s = .next t ∧ bytesKept s t ∧
      (t.core core).slotErased = v.setWidth 34 ∧ due ≤ s.cycle + 4194304 ∧ ⟨due, .slotErasedPassDone core⟩ ∈ t.pending)) ∧
  (∀ (core : Nat) (s : State), exec (.slotErasedPassDone core) s = .next (s.modCore core fun c =>
    { c with erasedDone := c.slotErased, slotErrors := c.slotErrors.filter fun e => c.rowBad e.row || c.slotErased.getLsbD e.bank })) ∧
  ∀ (core : Nat) (s : State), let row := (s.core core).scrubRow
    ∃ t, exec (.patrolScrub core) s = .next t ∧ bytesKept s t ∧ ⟨s.cycle + 3, .patrolScrub ((core + 1) % 256)⟩ ∈ t.pending ∧
      (t.core core).scrubRow = (if s.bar.pwr = 0 then (row + 1) % 4096 else row) ∧
      ((s.core core).rowBad row = true ∨ s.bar.pwr ≠ 0 → (t.core core).slotErrors = (s.core core).slotErrors) ∧
      ((s.core core).rowBad row = false → s.bar.pwr = 0 → ∀ e, e ∈ (t.core core).slotErrors ↔
        e ∈ (s.core core).slotErrors ∧ (e.row ≠ row ∨ (s.core core).slotErased.getLsbD e.bank = true))

/-- R192, R193, R386. A write of MIG_SRC marks the frame handed off, redirects what is parked there and starts its copy, unless one runs or feature 10 is not accepted; when it is
done the new frame holds the old frame's bytes and sync bits and nothing else has changed; a write of MIG_FREE lets the mark be cleared, which
waits for the requests translated to the frame. -/
def Obligations.MigrationMovesAFrame : Prop :=
  (∀ (v : Word) (s : State), s.migBusy = true ∨ s.feature 10 = false → exec (.migSrcWrite v) s = .next s) ∧
  (∀ (v : Word) (s : State), s.migBusy = false → s.feature 10 = true → ∃ t due, exec (.migSrcWrite v) s = .next t ∧ bytesKept s t ∧
    t.migSrc = v &&& 0xFFFFFFFFFC000#64 ∧ t.migBusy = true ∧ t.migDone = false ∧ (v &&& 0xFFFFFFFFFC000#64).toNat / 16384 ∈ t.marks ∧
    due ≤ s.cycle + 65536 ∧ ⟨due, .migrationDone⟩ ∈ t.pending ∧ (∀ e ∈ s.pending, e ∈ t.pending) ∧
    ∀ r ∈ s.reqs, r.space < 2 → ∀ (k : Nat) (e : Elem), r.elems[k]? = some e → e.phase = .parked → e.host = false →
      e.pa / 16384 = (v &&& 0xFFFFFFFFFC000#64).toNat / 16384 → ⟨s.cycle, .redirect r.id k⟩ ∈ t.pending) ∧
  (∀ s : State, s.oob = false → s.migSrc.toNat % 16384 = 0 → s.migDst.toNat % 16384 = 0 → s.migSrc.toNat + 16384 ≤ 576 * 2 ^ 30 →
    s.migDst.toNat + 16384 ≤ 576 * 2 ^ 30 →
    ∃ t, exec .migrationDone s = .next t ∧ t.migDone = true ∧ t.migBusy = false ∧
      (∀ i, i < 16384 → t.mem.read (s.migDst.toNat + i) = s.mem.read (s.migSrc.toNat + i)) ∧
      (∀ a, a < s.migDst.toNat ∨ s.migDst.toNat + 16384 ≤ a → t.mem.read a = s.mem.read a) ∧
      (∀ i, i < 2048 → (s.migDst.toNat / 8 + i ∈ t.syncEmpty ↔ s.migSrc.toNat / 8 + i ∈ s.syncEmpty)) ∧
      ∀ d, d < s.migDst.toNat / 8 ∨ s.migDst.toNat / 8 + 2048 ≤ d → (d ∈ t.syncEmpty ↔ d ∈ s.syncEmpty)) ∧
  (∀ (v : Word) (s : State), let frame := (v &&& 0xFFFFFFFFFC000#64).toNat / 16384
    ∃ t, exec (.migFreeWrite v) s = .next t ∧ bytesKept s t ∧ t.marks = s.marks ∧ t.migFree = v &&& 0xFFFFFFFFFC000#64 ∧
      (frame ∈ s.marks → ¬(s.migBusy = true ∧ s.migSrc.toNat / 16384 = frame) → ∃ p ∈ t.pending, p.ev = .migrationMarkClear frame)) ∧
  ∀ (frame : Nat) (s : State),
    (s.frameBusy frame = true → exec (.migrationMarkClear frame) s = .next (s.post 0 (.migrationMarkClear frame))) ∧
    (s.frameBusy frame = false → exec (.migrationMarkClear frame) s = .next { s with marks := s.marks.filter (· != frame) })

/-- R373-R375. START begins a cut, in which a task without inputs records at once; a second START does nothing. A task with markers on all its
inputs records: a settled one writes an image 1 with KIND 2 and S, a killed or lost one writes nothing, and one that is still leaving its core waits. A marker on a port counts for the cut of
its number, also where it comes before START. RELEASE and ABORT end the cut; ABORT writes KIND 0 to each image 1. -/
def Obligations.CutsRecordTasks : Prop :=
  (∀ (v : Word) (s : State), s.oob = false →
    (s.cut.active = true → exec (.cutCtlStart v) s = .next s) ∧
    (s.cut.active = false → ∃ t, exec (.cutCtlStart v) s = .next t ∧ bytesKept s t ∧ t.cut.active = true ∧ t.cut.epoch = v.setWidth 32 ∧
      (∀ p, p < 8 → (t.cut.ports.getLsbD p = true ↔ (p, v.toNat % 2 ^ 32) ∈ s.cut.early)) ∧
      ∀ j ∈ s.jobs, ∀ x ∈ j.tasks, x.inputs = [] → ⟨s.cycle, .cutTaskRecord j.pid x.index⟩ ∈ t.pending)) ∧
  (∀ (pid task : Nat) (s : State) (j : Job) (x : Task), s.oob = false → s.job? pid = some j → j.task? task = some x →
    (s.cut.active = false ∨ x.recorded = true ∨ j.marked x = false → exec (.cutTaskRecord pid task) s = .next s) ∧
    (s.cut.active = true → x.recorded = false → j.marked x = true → s.leaving x = true → x.phase = .parkedPooled ∨ x.phase = .ready →
      exec (.cutTaskRecord pid task) s = .next (s.post 64 (.cutTaskRecord pid task))) ∧
    (s.cut.active = true → x.recorded = false → noChannels x →
      (x.phase = .killed ∨ x.phase = .lost → ∃ t, exec (.cutTaskRecord pid task) s = .next t ∧ bytesKept s t ∧
        taskOfJob t pid task = some { x with recorded := true }) ∧
      (x.phase = .settled → x.ctx + 2 * 921600 ≤ 576 * 2 ^ 30 → pid < 2 ^ 16 → task < 2 ^ 14 → x.nsm1 < 16 →
        ∃ t, exec (.cutTaskRecord pid task) s = .next t ∧ taskOfJob t pid task = some { x with recorded := true } ∧
          t.mem.readNat (x.ctx + 921600) 8 = pid + task * 2 ^ 16 + 2 * 2 ^ 30 + x.nsm1 * 2 ^ 32 + 2 ^ 36 ∧
          ∀ a, a < x.ctx + 921600 ∨ x.ctx + 2 * 921600 ≤ a → t.mem.read a = s.mem.read a))) ∧
  (∀ (port epoch : Nat) (s : State),
    (s.cut.active = true → s.cut.epoch.toNat = epoch → ∃ t, exec (.cutPortMarker port epoch) s = .next t ∧ bytesKept s t ∧
      t.cut.ports = s.cut.ports ||| (1#8 <<< port)) ∧
    (¬(s.cut.active = true ∧ s.cut.epoch.toNat = epoch) →
      exec (.cutPortMarker port epoch) s = .next { s with cut := { s.cut with early := (port, epoch) :: s.cut.early } })) ∧
  ∀ s : State, s.oob = false →
    (s.cut.active = false → exec .cutCtlRelease s = .next s ∧ exec .cutCtlAbort s = .next s) ∧
    (s.cut.active = true → (∀ j ∈ s.jobs, j.chans = []) → (∀ core, ∀ w ∈ (s.core core).crews, w.cutting = false) →
      let over_ (t : State) : Prop := t.cut.active = false ∧ ∀ j ∈ t.jobs, ∀ x ∈ j.tasks, x.recorded = false
      (∃ t, exec .cutCtlRelease s = .next t ∧ bytesKept s t ∧ over_ t) ∧
      ((∀ j ∈ s.jobs, ∀ x ∈ j.tasks, x.ctx % 4096 = 0 ∧ x.ctx + 2 * 921600 ≤ 576 * 2 ^ 30) → ∃ t, exec .cutCtlAbort s = .next t ∧ over_ t ∧
        ∀ j ∈ s.jobs, ∀ x ∈ j.tasks, t.mem.readNat (x.ctx + 921600) 8 / 2 ^ 30 % 4 = 0))

/-! ### Leaving a core and coming back (spec 11 R239, R240; 21 R364-R372) -/

/-- R240, R364, R367, R370-R372. A deferral whose bound has passed decides on every held slot; a pre-emption that takes effect stops the crew; when its image stands
the header holds KIND 1 with the next epoch, the crew is off its positions, and its task keeps what it held; an image that passes its checks
gives the crew its strands back, and one that does not makes the task LOST, with a report. -/
def Sys2Proof.Claims.PreemptionPath : Prop :=
  (∀ (core task : Nat) (s : State),
    let w := s.owned core (.crew task)
    let bound := min ((s.core core).ppointDefer.toNat % 2 ^ 17) 125000
    (w.preempt = none → exec (.preemptDeferExpire core task) s = .next s) ∧
    ∀ p, w.preempt = some p →
      (w.stopped = true ∨ p.mask ≠ none → exec (.preemptDeferExpire core task) s = .next s) ∧
      (w.stopped = false → p.mask = none → s.cycle < p.since + bound →
        exec (.preemptDeferExpire core task) s = .next (s.post (p.since + bound - s.cycle) (.preemptDeferExpire core task))) ∧
      (w.stopped = false → p.mask = none → p.since + bound ≤ s.cycle → exec (.preemptDeferExpire core task) s = .next ((s.modCrew core task fun w =>
        { w with preempt := some { p with mask := some (BitVec.allOnes 8) } }).post 0 (.preemptTakeEffect core task)))) ∧
  (∀ (core task : Nat) (s : State), let w := s.owned core (.crew task)
    (w.pos = [] ∨ w.stopped = true → exec (.preemptTakeEffect core task) s = .next s) ∧
    (w.pos ≠ [] → w.stopped = false → calmCrew s core w → ∃ t due, exec (.preemptTakeEffect core task) s = .next t ∧ bytesKept s t ∧
      (t.owned core (.crew task)).stopped = true ∧ (t.owned core (.crew task)).pos = w.pos ∧ ⟨due, .contextSaveDone core task⟩ ∈ t.pending)) ∧
  (∀ (core task : Nat) (s : State) (x : Task), s.oob = false → let w := s.owned core (.crew task)
    (w.pos = [] ∨ w.stopped = false → exec (.contextSaveDone core task) s = .next s) ∧
    (w.pos ≠ [] → w.pos.length ≤ 16 → w.stopped = true → s.saveReady core w = true → taskOfJob s w.pid task = some x →
      x.phase = .placed → calmCrew s core w → (∀ p ∈ w.pos, (s.strand ⟨core, p⟩).images.length = 6144) → (s.core core).inject = [] →
      (s.core core).spilled = [] → (∀ r ∈ s.reqs, ∀ p ∈ w.pos, r.sid ≠ ⟨core, p⟩) → w.hold.rq ≤ 252 → x.ctx + 921600 ≤ 576 * 2 ^ 30 → w.pid < 2 ^ 16 → task < 2 ^ 14 →
      x.nsm1 < 16 →
      ∃ t u, exec (.contextSaveDone core task) s = .next t ∧ (t.owned core (.crew task)).pos = [] ∧
        t.mem.readNat x.ctx 8 = w.pid + task * 2 ^ 16 + 2 ^ 30 + x.nsm1 * 2 ^ 32 + (if w.held then 2 ^ 37 else 0) ∧
        t.mem.readNat (x.ctx + 8) 8 = (x.epoch + 1).toNat ∧
        taskOfJob t w.pid task = some u ∧ u.epoch = x.epoch + 1 ∧ u.saved = some (w.hold, w.acMask) ∧ u.bound = true)) ∧
  ∀ (core pid task : Nat) (s : State) (x : Task), s.oob = false → taskOfJob s pid task = some x →
    let w := s.owned core (.crew task)
    w.pos ≠ [] → w.stopped = true → w.pos.Nodup → (∀ p ∈ w.pos, p < 16) →
    (s.imageBad x pid x.image = none → ∃ t, exec (.contextRestore core pid task) s = .next t ∧ bytesKept s t ∧
      (t.owned core (.crew task)).stopped = false ∧ (t.owned core (.crew task)).pos = w.pos ∧
      ∀ (r p : Nat), w.pos[r]? = some p → (t.strand ⟨core, p⟩).pc =
        BitVec.ofNat 64 (s.mem.readNat (x.ctx + 921600 * (if x.fromCut then 1 else 0) + 12288 + 6144 * r + 264) 8)) ∧
    (∀ reason, s.imageBad x pid x.image = some reason → x.crit = false → w.pid = pid → w.task = task → noChannels x → x.finished = false →
      calmCrew s core w → ∃ t u, exec (.contextRestore core pid task) s = .next t ∧ bytesKept s t ∧
        taskOfJob t pid task = some u ∧ u.phase = .lost ∧ mailed t s.cycle (dieOf core) 3 (BitVec.ofNat 64 reason))

/-- R370. The 6 KiB that a strand's image takes hold all that the strand comes back with. -/
def Sys2Proof.Claims.StrandImageRoundTrip : Prop :=
  ∀ (st : Strand) (recordOf : Nat → Nat), st.annul < 4 → st.loops.length ≤ 2 → st.replays = [] →
    st.vView.base < 2 ^ 64 → st.vView.stride < 2 ^ 64 → st.aView.base < 2 ^ 64 → st.aView.stride < 2 ^ 64 → st.tView.base < 2 ^ 64 →
    st.tView.stride < 2 ^ 64 →
    let u := Strand.ofImages recordOf st.images
    (∀ r, u.get r = st.get r ∧ u.isFull r = st.isFull r) ∧ u.pc = st.pc ∧ u.priv = st.priv ∧ u.annul = st.annul ∧ u.halted = st.halted ∧
    u.yielding = st.yielding ∧ u.loops = st.loops ∧ u.spinPc = st.spinPc ∧ u.spinFp = st.spinFp ∧ u.vView = st.vView ∧ u.aView = st.aView ∧
    u.tView = st.tView ∧ (∀ i, i < 8 → u.mask i = st.mask i) ∧ u.retryLimit = st.retryLimit ∧ u.gatherDrops = st.gatherDrops ∧
    u.issued = st.issued ∧ u.lent = st.lent ∧ u.trapPc = st.trapPc ∧ u.trapCause = st.trapCause ∧ u.trapInfo = st.trapInfo ∧
    u.hscratch = st.hscratch ∧ u.stage = st.stage

/-! ### The host: rings, jobs, trust, debug, power and reset (spec 14 R265-R267; 21 R390; 23 R380-R398) -/

namespace Sys2Proof.Claims

open Sys2Proof.Machine

/-- A completion joins those that wait for the ring, and will be written (R384). -/
def completes (s t : State) (c : Completion) : Prop :=
  t.bar.cqWait = s.bar.cqWait ++ [c] ∧ ∃ p ∈ t.pending, p.ev = .completionWrite

/-- The submission at the head of the ring, 64 bytes of host memory (R382). -/
def headEntry (s : State) : List Byte := s.host.readBytes (s.bar.sqBase.toNat + 64 * s.bar.sqHead.toNat) 64

/-- SQ_HEAD has moved on by one entry. -/
def headMoves (s t : State) : Prop := t.bar.sqHead = ringNext (ringSize s.bar.sqLog) s.bar.sqHead

/-- The 128 bytes of a job descriptor stand in device memory at a multiple of 128 (R265). -/
def descReadable (e : SubEntry) : Prop := e.addr % 128 = 0 ∧ e.addr + 128 ≤ 576 * 2 ^ 30

/-- The driver's writes that the services wait for: their offsets, in the order of their bits (R398). -/
def driverOffsets : List Nat := [0x11810, 0x10, 0x20, 0x28, 0x30, 0x11088, 0x18000, 0x18040, 0x18080, 0x180C0]

/-- The supervisor strands of the four dies start at their entries (R398). -/
def servicesRun (t : State) : Prop :=
  ∀ d, d < 4 → (t.strand ⟨256 + d, 0⟩).pc = Config.serviceEntry d ∧ (t.strand ⟨256 + d, 0⟩).priv = true ∧ (t.core (256 + d)).haspOn = true

/-- The driver's write of a register has been made, and is not the last one that the services wait for. -/
def noted (s : State) (i : Nat) (t : State) : State :=
  { t with bar := { t.bar with driver := s.bar.driver ||| (1#10 <<< i) } }

/-- Firmware image `i`: the one that FWLOAD has stored, or that of the manufacture (R388). -/
def imageNo (s : State) (i : Nat) : List Byte := ((s.trust.store.find? fun p => p.1 == i).map (·.2)).getD (Config.factoryImage i)

/-- Bytes [a, a + n) of device memory may change, and no other. -/
def memElsewhere (s t : State) (a n : Nat) : Prop := ∀ x, x < a ∨ a + n ≤ x → t.mem.read x = s.mem.read x

end Sys2Proof.Claims

/-- R380-R384, R394, R396. A doorbell makes the hub act on the entry at SQ_HEAD: a launch is judged before the head moves, any other entry moves it and
is acted on, a reserved OP completes with 11 and an empty ring changes nothing; NOP completes with 0, or with 11 for a nonzero reserved field. The oldest
completion is written with its phase bit once the host has left room, and raises MSI-X vector 0. -/
def Obligations.SubmissionsAndCompletions : Prop :=
  (∀ (v : Word) (s : State), s.bar.pwr = 0 → s.bar.sec = 1 → s.bar.cqWait = [] → s.submitting = false →
    ∃ t, exec (.sqTailDoorbell v) s = .next t ∧ bytesKept s t ∧ t.bar.sqTail = v.setWidth 12 ∧ t.bar.pwrPend = false ∧
      let tail := v.toNat % 4096 % ringSize s.bar.sqLog
      (tail = s.bar.sqHead.toNat → t.bar.sqHead = s.bar.sqHead) ∧
      (tail ≠ s.bar.sqHead.toNat →
        (∀ e, subEvent (headEntry s) = some (.launch e) → t.bar.sqHead = s.bar.sqHead ∧ ⟨s.cycle, .launch e⟩ ∈ t.pending) ∧
        (∀ ev, subEvent (headEntry s) = some ev → (∀ e, ev ≠ .launch e) → headMoves s t ∧ ∃ p ∈ t.pending, p.ev = ev) ∧
        (subEvent (headEntry s) = none → headMoves s t ∧ completes s t ⟨(subEntry (headEntry s)).tag, 11, 0, 0⟩))) ∧
  (∀ (e : SubEntry) (s : State), ∃ t, exec (.nop e) s = .next t ∧ bytesKept s t ∧ completes s t ⟨e.tag, if e.bad then 11 else 0, 0, 0⟩) ∧
  ∀ s : State,
    (∀ c rest, s.bar.cqWait = c :: rest → s.bar.cqRoom = false → exec .completionWrite s = .next s) ∧
    (∀ c rest, s.bar.cqWait = c :: rest → s.bar.cqRoom = true → c.index < 2 ^ 64 → c.tag < 2 ^ 16 → c.status < 2 ^ 8 → c.pid < 2 ^ 16 →
      let a := s.bar.cqBase.toNat + 16 * s.bar.cqTail.toNat
      ∃ t more, exec .completionWrite s = .next t ∧ t.bar.cqWait = rest ++ more ∧ (rest ≠ [] → more = []) ∧ t.msix.getLsbD 0 = true ∧ (∀ x, t.mem.read x = s.mem.read x) ∧
        t.host.readNat a 8 = c.tag + c.status * 2 ^ 16 + c.pid * 2 ^ 32 + (if s.bar.cqPhase then 2 ^ 63 else 0) ∧
        t.host.readNat (a + 8) 8 = c.index ∧ (∀ x, x < a ∨ a + 16 ≤ x → t.host.read x = s.host.read x) ∧
        t.bar.cqTail = ringNext (ringSize s.bar.cqLog) s.bar.cqTail ∧
        t.bar.cqPhase = (if t.bar.cqTail = 0 then !s.bar.cqPhase else s.bar.cqPhase)) ∧
    (s.bar.cqWait = [] → ∃ t, exec .completionWrite s = .next t ∧ bytesKept s t)

/-- R265, R266, R383-R385, R401. A LAUNCH is refused with the lowest of the statuses 9 to 12 that applies (14 outside the normal state), waits for one of
16 places, fails with 1 on a descriptor that breaks R265, and is otherwise checked; the first condition of R266 that fails is its status, with an index;
an accepted launch completes with 0 and its job is active. A job that its tables and its layout records show on this device alone may have parts on
others all the same, through its PID: the model draws that (log 7), and then counts with the largest tables. -/
def Obligations.LaunchesAreChecked : Prop :=
  (∀ (e : SubEntry) (s : State), descReadable e →
    let b := s.mem.readBytes e.addr 128
    let pid := s.mem.readNat e.addr 2
    let refused (status : Nat) : Prop := ∃ t, exec (.launch e) s = .next t ∧ bytesKept s t ∧ headMoves s t ∧ t.jobs = s.jobs ∧
      completes s t ⟨e.tag, status, pid, 0⟩
    (s.bar.sec ≠ 1 → refused 14) ∧
    (s.bar.sec = 1 → e.dbg = true → s.bar.dbg = 0 → refused 9) ∧
    (s.bar.sec = 1 → ¬(e.dbg = true ∧ s.bar.dbg = 0) →
      (s.bar.drvLo.getLsbD 0 = false → refused 10) ∧
      (s.bar.drvLo.getLsbD 0 = true →
        (e.bad = true → refused 11) ∧
        (e.bad = false → (s.job? pid).isSome = true → refused 12) ∧
        (e.bad = false → s.job? pid = none →
          (16 ≤ s.jobs.length → exec (.launch e) s = .next (s.post 0 (.launch e))) ∧
          (s.jobs.length < 16 → descOk b = false → refused 1) ∧
          (s.jobs.length < 16 → descOk b = true → ∃ t j due, exec (.launch e) s = .next t ∧ bytesKept s t ∧ headMoves s t ∧
            t.jobs = s.jobs ++ [j] ∧ j.pid = pid ∧ j.live = false ∧ j.tag = e.tag ∧ j.dbg = e.dbg ∧
            j.tasks.length = s.mem.readNat (e.addr + 2) 2 % 2 ^ 14 + 1 ∧ j.nchan = s.mem.readNat (e.addr + 4) 2 % 2 ^ 13 ∧
            (s.spans j (s.tables j) = true → j.wide = true) ∧
            due ≤ s.cycle + 25000 + 125 * (if j.wide then 20736 else j.tasks.length + j.nchan + 256) / 2 ∧ ⟨due, .launchCheckDone pid⟩ ∈ t.pending))))) ∧
  ∀ (pid : Nat) (s : State) (j : Job), s.oob = false → s.job? pid = some j → j.live = false → j.wide = false →
    (∀ st i, s.launchFails j (s.tables j) = some (st, i) → ∃ t, exec (.launchCheckDone pid) s = .next t ∧ bytesKept s t ∧ t.job? pid = none ∧
      completes s t ⟨j.tag, st, pid, i⟩) ∧
    (s.launchFails j (s.tables j) = none → (s.tables j).groups = [] → ∃ t k, exec (.launchCheckDone pid) s = .next t ∧ bytesKept s t ∧
      t.job? pid = some k ∧ k.live = true ∧ k.tasks.map (·.index) = List.range j.tasks.length ∧ k.chans.map (·.num) = List.range j.nchan ∧
      t.bar.launched = true ∧ completes s t ⟨j.tag, 0, pid, 0⟩)

/-- R267, R357, R384. KILL answers 14, 11 or 15 where it may not or cannot act; otherwise the job is gone, with a completion of its own and one for the
LAUNCH. A job whose tasks have all finished completes with 0x80 once nothing it has stored is on its way; it waits otherwise. -/
def Obligations.JobsEnd : Prop :=
  (∀ (e : SubEntry) (s : State), s.oob = false →
    let answered (st : Nat) : Prop := ∃ t, exec (.kill e) s = .next t ∧ bytesKept s t ∧ t.jobs = s.jobs ∧ completes s t ⟨e.tag, st, e.pid, 0⟩
    (s.bar.sec ≠ 1 → answered 14) ∧ (s.bar.sec = 1 → e.bad = true → answered 11) ∧
    (s.bar.sec = 1 → e.bad = false → s.job? e.pid = none → answered 15) ∧
    ∀ j, s.bar.sec = 1 → e.bad = false → s.job? e.pid = some j → (∀ c ∈ s.cores, ∀ w ∈ c.crews, w.pid ≠ e.pid) →
      ∃ t, exec (.kill e) s = .next t ∧ bytesKept s t ∧ t.job? e.pid = none ∧
        t.bar.cqWait = s.bar.cqWait ++ [⟨e.tag, 0, e.pid, 0⟩, ⟨j.tag, 0x81, e.pid, 0⟩]) ∧
  ∀ (pid : Nat) (s : State) (j : Job), s.job? pid = some j →
    (s.jobOver { j with done := false } = false → ∃ t k, exec (.jobComplete pid) s = .next t ∧ bytesKept s t ∧ t.job? pid = some k ∧
      k = { j with done := false }) ∧
    (s.jobOver { j with done := false } = true → s.jobDrains j = true → exec (.jobComplete pid) s = .next (s.post 1 (.jobComplete pid))) ∧
    (s.jobOver { j with done := false } = true → s.jobDrains j = false → j.wide = false ∨ j.done = true →
      ∃ t, exec (.jobComplete pid) s = .next t ∧ bytesKept s t ∧ t.job? pid = none ∧ completes s t ⟨j.tag, 0x80, pid, 0⟩)

/-- R387-R391. ATTEST writes a report that begins with version 1 and the host's nonce, except in vendor-debug (13); UNLOCK with a token that opens this
device, and no job active, leaves vendor-debug with memory, slots, register space and accumulators zero and a new context key, and any other token
status 16; FWLOAD of an accepted image stores it in its place of the four, raises ROLLBACK, and resets the device, which MSI-X vector 3 tells where
the state register changes. Status 11 for a misaligned ATTEST buffer and what FWLOAD and a reset leave are DEDUCED (log 25). -/
def Obligations.RootOfTrust : Prop :=
  (∀ (e : SubEntry) (s : State), s.oob = false →
    let answered (i : Instr) (st : Nat) : Prop := ∃ t, exec i s = .next t ∧ bytesKept s t ∧ completes s t ⟨e.tag, st, 0, 0⟩
    (e.bad = true ∨ e.addr % 4096 ≠ 0 → answered (.attest e) 11) ∧
    (e.bad = false → e.addr % 4096 = 0 → s.bar.dbg = 2 → answered (.attest e) 13) ∧
    (e.bad = false → e.addr % 4096 = 0 → s.bar.dbg ≠ 2 → e.addr + 30304 ≤ 576 * 2 ^ 30 → e.nonce.length = 32 →
      ∃ t, exec (.attest e) s = .next t ∧ memElsewhere s t e.addr 30304 ∧ completes s t ⟨e.tag, 0, 0, 0⟩ ∧
        t.mem.readNat e.addr 8 = 1 ∧ t.mem.readBytes (e.addr + 8) 32 = e.nonce ∧
        t.mem.readNat (e.addr + 104) 8 = s.bar.pwr.toNat * 16 + s.bar.dbg.toNat * 4 + s.bar.sec.toNat) ∧
    (s.bar.sec ≠ 1 → answered (.unlock e) 14) ∧ (s.bar.sec = 1 → e.bad = true → answered (.unlock e) 11) ∧
    (s.bar.sec = 1 → e.bad = false → e.addr + 29856 ≤ 576 * 2 ^ 30 →
      (s.tokenOk (s.mem.readBytes e.addr 29856) = false → answered (.unlock e) 16) ∧
      (s.tokenOk (s.mem.readBytes e.addr 29856) = true → s.jobs = [] → ∃ t, exec (.unlock e) s = .next t ∧ completes s t ⟨e.tag, 0, 0, 0⟩ ∧
        t.bar.dbg = 2 ∧ (∀ a, t.mem.read a = 0) ∧ (∀ c a, (t.core c).slots.read a = 0) ∧ (∀ c, ∀ w ∈ (t.core c).crews, w.window = []) ∧
        (∀ c, (t.core c).acs = Vector.replicate 8 {}) ∧ t.trust.identity = false ∧ t.trust.keyNo = s.trust.keyNo + 1 ∧ t.host = s.host)) ∧
    (e.bad = true → answered (.fwload e) 11) ∧ (e.bad = false → s.jobs ≠ [] → answered (.fwload e) 14) ∧
    (e.bad = false → s.jobs = [] → s.imageAccepted (s.imageAt e.addr) = false → answered (.fwload e) 16)) ∧
  (∀ (e : SubEntry) (s : State), e.bad = false → s.jobs = [] → s.imageAccepted (s.imageAt e.addr) = true →
    ∃ t, exec (.fwload e) s = .next t ∧ imageNo t (Config.fwKind (s.imageAt e.addr) % 4) = s.imageAt e.addr ∧
      (∀ i, i ≠ Config.fwKind (s.imageAt e.addr) % 4 → imageNo t i = imageNo s i) ∧ t.trust.rollback = Config.fwVersion (s.imageAt e.addr) ∧
      t.bar.sec = 0 ∧ t.mem = [] ∧ t.cores = [] ∧ t.pending = [⟨0, .powerOn⟩]) ∧
  ∀ s : State, ∃ t, exec .deviceReset s = .next t ∧ t.mem = [] ∧ t.cores = [] ∧ t.jobs = [] ∧ t.bar = {} ∧ t.pending = [⟨0, .powerOn⟩] ∧
    t.host = s.host ∧ t.trust.rollback = s.trust.rollback ∧ t.trust.store = s.trust.store ∧ t.trust.keyNo = s.trust.keyNo + 1 ∧
    (t.msix.getLsbD 3 = true ↔ s.bar.sec ≠ 0 ∨ s.bar.dbg ≠ 0 ∨ s.bar.pwr ≠ 0)

/-- R390-R393, R397. A debug request is ignored in vendor-debug and in recovery, and applied at the first moment without a job; a debug command that DBG does not open is
refused; one that it opens reads or writes the register of the strand it names. -/
def Obligations.DebugRequestsAndCommands : Prop :=
  (∀ (v : Word) (s : State),
    (s.bar.dbg = 2 ∨ s.bar.sec = 2 → exec (.dbgReqWrite v) s = .next s) ∧
    (s.bar.dbg ≠ 2 → s.bar.pwr ≠ 3 → s.bar.sec ≠ 0 → s.bar.sec ≠ 2 → ∃ t, exec (.dbgReqWrite v) s = .next t ∧ bytesKept s t ∧ t.bar.owner = v.getLsbD 0 ∧
      t.bar.dbgPend = true)) ∧
  (∀ s : State,
    (s.bar.dbgPend = false ∨ s.jobs ≠ [] → exec .dbgReqApply s = .next s) ∧
    (s.bar.dbgPend = true → s.jobs = [] → ∃ t, exec .dbgReqApply s = .next t ∧ bytesKept s t ∧ t.bar.dbgPend = false ∧
      t.bar.dbg = if s.bar.dbg = 2 then 2 else if s.bar.owner then 1 else 0)) ∧
  ∀ (v : Word) (s : State), s.bar.pwr ≠ 3 → s.oob = false →
    (s.bar.dbg = 0 → (∃ t, exec (.dbgCmdRead v) s = .next t ∧ bytesKept s t ∧ t.bar.dbgRefused = true ∧ t.bar.dbgData = s.bar.dbgData) ∧
      ∃ t, exec (.dbgCmdWrite v) s = .next t ∧ bytesKept s t ∧ t.bar.dbgRefused = true ∧ t.cores = s.cores) ∧
    ∀ sid : SId, s.bar.dbg = 2 →
      (v.getLsbD 8 = true ∧ sid = ⟨256 + v.toNat % 2 ^ 8 % 4, 0⟩) ∨
        (v.getLsbD 8 = false ∧ v.toNat / 2 ^ 16 % 2 ^ 5 = 16 ∧ sid = ⟨v.toNat % 2 ^ 8, 16⟩) →
      (v.toNat / 2 ^ 32 % 2 ^ 12 = 0x003 → ∃ t, exec (.dbgCmdRead v) s = .next t ∧ bytesKept s t ∧ t.bar.dbgRefused = false ∧
        t.bar.dbgData = (s.strand sid).issued) ∧
      (v.toNat / 2 ^ 32 % 2 ^ 12 = 0x100 → ∃ t, exec (.dbgCmdWrite v) s = .next t ∧ bytesKept s t ∧ t.bar.dbgRefused = false ∧
        t.strand sid = { s.strand sid with trapPc := s.bar.dbgData })

/-- R381, R388, R394-R398. Power requests wait for the first moment without a job and with empty rings; off keeps nothing, retention the memories and
cores, and is not entered from recovery; idle and wake change PWR alone; throttling begins where the package's power, an input that the model
draws (log 7), is above PWR_LIMIT held between 600 and 1,900; at power-on the four images are measured; a device whose images are all accepted
is active, and its supervisor strands start at their entries with the last of the driver's writes; another is in recovery; memory then reads
zero. Which writes are the last that the services wait for is the model's reading (log 10). -/
def Sys2Proof.Claims.PowerStates : Prop :=
  (∀ s : State,
    (∃ t, exec .pwrReqActive s = .next t ∧ bytesKept s t ∧ t.bar.pwrReq = 0 ∧ t.bar.pwrPend = false) ∧
    (s.bar.pwr = 3 ∨ s.bar.sec = 0 → exec .pwrReqRetention s = .next s ∧ exec .pwrReqOff s = .next s) ∧
    (s.bar.sec = 2 → exec .pwrReqRetention s = .next s) ∧
    (s.bar.pwr ≠ 3 → s.bar.sec ≠ 0 →
      (s.bar.sec ≠ 2 → ∃ t, exec .pwrReqRetention s = .next t ∧ bytesKept s t ∧ t.bar.pwrReq = 2 ∧ t.bar.pwrPend = true) ∧
      ∃ t, exec .pwrReqOff s = .next t ∧ bytesKept s t ∧ t.bar.pwrReq = 3 ∧ t.bar.pwrPend = true) ∧
    (s.bar.pwrPend = false ∨ s.hubIdle = false → exec .powerStateEnter s = .next s) ∧
    (s.bar.pwrPend = true → s.hubIdle = true →
      (s.bar.pwrReq = 3 → ∃ t, exec .powerStateEnter s = .next t ∧ t.bar.pwr = 3 ∧ t.mem = [] ∧ t.cores = [] ∧ t.pending = [] ∧ t.host = s.host) ∧
      (s.bar.pwrReq ≠ 3 → ∃ t, exec .powerStateEnter s = .next t ∧ bytesKept s t ∧ t.bar.pwr = 2 ∧ t.bar.pwrPend = false ∧
        ∀ c, (t.core c).keys = (s.core c).keys ∧ (t.core c).acs = (s.core c).acs ∧ (t.core c).crews = (s.core c).crews)) ∧
    (s.hubIdle = true → s.bar.pwr = 0 → s.bar.sec = 1 → ∃ t, exec .idleEnter s = .next t ∧ bytesKept s t ∧ t.bar.pwr = 1) ∧
    (s.hubIdle = false ∨ s.bar.pwr ≠ 0 ∨ s.bar.sec ≠ 1 → exec .idleEnter s = .next s) ∧
    (s.bar.pwr = 1 ∨ s.bar.pwr = 2 → ∃ t, exec .powerWake s = .next t ∧ bytesKept s t ∧ t.bar.pwr = 0) ∧
    (s.bar.pwr = 0 ∨ s.bar.pwr = 3 → exec .powerWake s = .next s) ∧
    (∃ (power : Nat) (t : State), exec .powerThrottle s = .next t ∧ t = { s with freeCtr := t.freeCtr, throttled := t.throttled } ∧
      t.throttled = (s.throttled || decide (max 600 (min 1900 s.bar.pwrLimit.toNat) < power)) ∧ power = Config.free s.freeCtr) ∧
    exec .powerThrottleEnd s = .next { s with throttled := false }) ∧
  (∀ s : State, s.bar.sec = 0 → s.bar.pwr = 0 → ∃ t, exec .powerOn s = .next t ∧ t.mem = [] ∧ t.bar.dbg = 0 ∧
    t.trust.meas = (List.range 4).map (fun i => if s.imageAccepted (imageNo s i) then
      Config.shake256 512 (bytesOfNat 64 0 ++ bytesOfNat 64 (Config.shake256 512 (imageNo s i))) else 0) ∧
    ((∀ i, i < 4 → s.imageAccepted (imageNo s i) = true) → t.bar.sec = 1 ∧ (∃ p ∈ t.pending, ∃ c, p.ev = .patrolScrub c) ∧
      (s.bar.driver = BitVec.allOnes 10 → servicesRun t) ∧ (s.bar.driver ≠ BitVec.allOnes 10 → t.cores = s.cores)) ∧
    ((∃ i, i < 4 ∧ s.imageAccepted (imageNo s i) = false) → t.bar.sec = 2 ∧ t.cores = s.cores)) ∧
  ∀ (s : State) (v : Word) (i off : Nat), s.oob = false → s.bar.sec = 1 → s.bar.pwr ≠ 3 → driverOffsets[i]? = some off →
    s.bar.driver.getLsbD i = false → s.bar.driver ||| (1#10 <<< i) = BitVec.allOnes 10 →
    ∃ t, exec (.registerWrite off v) s = .next t ∧ t.bar.driver = BitVec.allOnes 10 ∧ servicesRun t

/-- R341, R380, R381, R385. A host write of device memory stores its bytes at once and nothing else, a read changes nothing, a device that sleeps wakes
first; a snoop replaces one line of host memory; the plain registers take their bits, and the driver's features only before the first launch (what the services wait for, log 10, is noted beside); a read gives them back, and clears FAB_COUNT. -/
def Sys2Proof.Claims.HostAccessesAndRegisters : Prop :=
  (∀ (addr : Nat) (data : List Byte) (s : State), s.oob = false → addr + data.length ≤ 576 * 2 ^ 30 →
    (s.bar.pwr = 0 → s.bar.sec ≠ 0 →
      (∃ t, exec (.hostMemoryAccess true addr data) s = .next t ∧ t.mem.readBytes addr data.length = data ∧
        memElsewhere s t addr data.length ∧ ∀ a, t.host.read a = s.host.read a) ∧
      exec (.hostMemoryAccess false addr data) s = .next s) ∧
    (s.bar.pwr = 3 → ∀ w, exec (.hostMemoryAccess w addr data) s = .next s) ∧
    (s.bar.pwr = 1 ∨ s.bar.pwr = 2 → ∀ w, ∃ t, exec (.hostMemoryAccess w addr data) s = .next t ∧ bytesKept s t ∧
      ⟨s.cycle, .hostMemoryAccess w addr data⟩ ∈ t.pending ∧ ∃ p ∈ t.pending, p.ev = .powerWake)) ∧
  (∀ (line : Nat) (s : State), exec (.cxlCacheSnoop line none) s = .next s ∧
    ∀ bs : List Byte, bs.length = 64 → ∃ t, exec (.cxlCacheSnoop line (some bs)) s = .next t ∧ t.host.readBytes (64 * line) 64 = bs ∧
      (∀ a, a < 64 * line ∨ 64 * line + 64 ≤ a → t.host.read a = s.host.read a) ∧ ∀ a, t.mem.read a = s.mem.read a) ∧
  ∀ (v : Word) (s : State), s.oob = false → s.bar.pwr ≠ 3 →
    (∀ r ∈ [(0x10, 1, if s.bar.launched then s else { s with bar := { s.bar with drvLo := v } }),
        (0x20, 2, { s with bar := { s.bar with sqBase := v &&& 0xFFFFFFFFFF000#64 } }),
        (0x28, 3, { s with bar := { s.bar with cqBase := v &&& 0xFFFFFFFFFF000#64 } }),
        (0x30, 4, { s with bar := { s.bar with cqLog := v.extractLsb' 8 4, sqLog := v.extractLsb' 0 4 } })],
      s.bar.sec ≠ 1 ∨ s.bar.driver ||| (1#10 <<< r.2.1) ≠ BitVec.allOnes 10 ∨ s.bar.driver.getLsbD r.2.1 = true →
      exec (.registerWrite r.1 v) s = .next (noted s r.2.1 r.2.2)) ∧
    exec (.registerWrite 0x70 v) s = .next { s with bar := { s.bar with pwrLimit := v.setWidth 16 } } ∧
    exec (.registerWrite 0x18 v) s = .next (if s.bar.launched then s else { s with bar := { s.bar with drvHi := v } }) ∧
    exec (.registerWrite 0x00 v) s = .next s ∧
    s.hostRead 0x20 = (s.bar.sqBase, s) ∧ s.hostRead 0x60 = (s.bar.nonce, s) ∧ s.hostRead 0x70 = (s.bar.pwrLimit.setWidth 64, s) ∧
    s.hostRead (0x10000 + 8 * 0x302) = (s.fabric.shape.setWidth 64, s) ∧ s.hostRead (0x10000 + 8 * 0x300) =
      (s.fabric.sleetDrop ++ s.fabric.poison, { s with fabric := { s.fabric with sleetDrop := 0, poison := 0 } })

/-! ### Reset, steps, issue turns, encodings (spec 03; 05 R86-R92; the resets of every register map) -/

namespace Sys2Proof.Claims

open Sys2Proof.Machine

/-- A crew's strand that may issue now (R87, R88). -/
def mayIssue (s : State) (core pos : Nat) : Prop := (s.core core).crewAt pos ≠ none ∧ s.eligible ⟨core, pos⟩ = true

/-- Two positions belong to one crew. -/
def kin (s : State) (core p q : Nat) : Prop :=
  ∃ v w, (s.core core).crewAt p = some v ∧ (s.core core).crewAt q = some w ∧ v.task = w.task

/-- The strand chosen for the turn. -/
def chooses (s : State) (core pos : Nat) : Prop :=
  ∃ t, exec (.issueTurn core) s = .next t ∧ bytesKept s t ∧ t.cur = ⟨core, pos⟩ ∧ t.sel = true ∧ t.turn = s.turn + 1

/-- What makes an untranslated access of device memory at an address that a table, a register or a message gives (R13, R186). -/
def accessesUntranslated (i : Instr) : Bool :=
  match i with
  | .sharedMapHomeAction .. | .sendAtHome .. | .eosAtHome .. | .recvAtHome .. | .recvnbAtHome .. | .lostEosEnqueue ..
  | .multicastApply .. | .multicastAckTimeout .. | .reduceCombine .. | .reduceRoundTimeout .. | .layoutCacheFill ..
  | .hostMemoryAccess .. | .migrationDone .. | .crewCtlKill .. | .mailboxPost .. | .niCtlReset .. | .niSelfReset ..
  | .contextSaveDone .. | .contextRestore .. | .endToEndResend .. | .messageArrive .. | .acknowledgeArrive .. | .cutCtlStart ..
  | .cutCtlRelease .. | .cutCtlAbort .. | .cutTaskRecord .. | .launchCheckDone .. | .kill .. | .attest .. | .unlock ..
  | .dbgCmdWrite .. | .registerWrite .. | .lnarrow .. | .lwrite .. | .msave .. | .mload .. | .crwr .. => true
  | _ => false

/-- What follows a strand's issue (R91): a Hasp strand that has issued guards the next own turn of the owner that it displaced; for any other strand
nothing follows. -/
def afterIssue (s : State) (o : Next) : Next :=
  match o with
  | .next t => .next (s.guardOwner t)
  | o => o

/-- Every byte memory of the machine, device and host memory, each core's slot store and the register space of each crew and of the Hasp strand, stands
in the canonical form of log 4: cells by rising address, none that holds 0. -/
def memoriesCanonical (s : State) : Prop :=
  s.mem.wf = true ∧ s.host.wf = true ∧
  ∀ c ∈ s.cores, c.slots.wf = true ∧ c.hasp.window.wf = true ∧ ∀ w ∈ c.crews, w.window.wf = true

/-- Format R as the tables of R33 lay it out: LEN [31:30], major [29:24], d [23:19], a [18:14], b [13:9], Ta [8], Tb [7], QF [6:5],
OP [4:0]. -/
def formR (len maj d a b ta tb qf op : Nat) : Nat :=
  len * 2 ^ 30 + maj * 2 ^ 24 + d * 2 ^ 19 + a * 2 ^ 14 + b * 2 ^ 9 + ta * 2 ^ 8 + tb * 2 ^ 7 + qf * 2 ^ 5 + op

/-- E1 of R36: HANDLE [31:16], SCOPE [15:12], ORDER [11:9], MASK [8:6], TYPE [5:2], XM [1:0]. -/
def formE (handle scope order mask type xm : Nat) : Nat :=
  handle * 2 ^ 16 + scope * 2 ^ 12 + order * 2 ^ 9 + mask * 2 ^ 6 + type * 2 ^ 2 + xm

end Sys2Proof.Claims

/-- R136. Popping bound sources changes nothing but the generators, whether their names are full, and the requests and events of the next
fetches; unbound sources change nothing at all. -/
def Sys2Proof.Claims.PopsTouchOnlyStreams : Prop :=
  ∀ (s : State) (srcs : List Opnd), s.cur.pos < 17 →
    ((∀ o ∈ srcs, s.unbound o) → s.popAll srcs = s) ∧
    let t := s.popAll srcs
    t.mem = s.mem ∧ t.host = s.host ∧ t.dies = s.dies ∧ t.jobs = s.jobs ∧ t.fabric = s.fabric ∧ t.bar = s.bar ∧ t.cur = s.cur ∧ t.cycle = s.cycle ∧
    (∀ sid, sid ≠ s.cur → t.strand sid = s.strand sid) ∧
    (∀ c, (t.core c).slots = (s.core c).slots ∧ (t.core c).empty = (s.core c).empty ∧ (t.core c).keys = (s.core c).keys ∧
      (t.core c).acs = (s.core c).acs) ∧
    (∀ c o, (t.owned c o).window = (s.owned c o).window ∧ (t.owned c o).chains = (s.owned c o).chains) ∧
    t.me = { s.me with full := t.me.full, lost := t.me.lost, streams := t.me.streams } ∧
    ∀ r, s.me.bound (.s r false) = none → t.me.isFull r = s.me.isFull r

/-- The resets of the register maps of R6, R74, R114, R152, R154, R168, R188, R189, R200, R203, R237, R242, R255, R259, R316, R319, R350, R358, R361,
R363, R369, R381: what each register and part reads after device reset, before the root of trust has done anything, with the values the model names where the rules give none (log 3); its memories are canonical (log 4). -/
def Obligations.ResetState : Prop :=
  let s := State.reset
  s.bar.pwr = 0 ∧ s.bar.dbg = 0 ∧ s.bar.sec = 0 ∧ s.bar.sqHead = 0 ∧ s.bar.sqTail = 0 ∧ s.bar.cqHead = 0 ∧ s.bar.sqBase = 0 ∧ s.bar.cqBase = 0 ∧
  s.bar.drvLo = 0 ∧ s.bar.drvHi = 0 ∧ s.jobs = [] ∧ s.reqs = [] ∧ (∀ a, s.mem.read a = 0) ∧ s.syncEmpty = [] ∧ s.dropped = false ∧ s.dropCount = 0 ∧
  memoriesCanonical s ∧ (∀ i (h : i < 8), s.faults[i].valid = false) ∧ s.migDone = false ∧ s.marks = [] ∧ s.cut.active = false ∧ s.fabric.linkDown = 0 ∧
  s.fabric.sleetDrop = 0 ∧ s.fabric.poison = 0 ∧
  (∀ d, (s.die d).mboxBase = 0 ∧ (s.die d).mboxHead = 0 ∧ (s.die d).mboxTail = 0 ∧ (s.die d).tlb = [] ∧ (s.die d).tlb1 = Vector.replicate 8 [] ∧
    (s.die d).pool = []) ∧
  ∀ c : Nat, let k := s.core c
    k.handlerEntry = 0x8000000000000000#64 ∧ k.chainCtl = 0 ∧ k.crewCtl = 0 ∧ k.niBusy = false ∧ k.haspCtl = 0 ∧ k.haspEntry = 0 ∧ k.haspOn = false ∧
    k.slotErased = 0 ∧ k.ppointDefer = 12500 ∧ k.crews = [] ∧ k.empty = [] ∧ (∀ a, k.slots.read a = 0) ∧ k.keys = [] ∧ k.lastKvict = 247 ∧
    (∀ n : Nat, ((k.acs[n]?).getD ({} : AccSlot)).els = [] ∧ ((k.acs[n]?).getD ({} : AccSlot)).e = -200) ∧ k.chain7.a = 0 ∧ k.chain7.s = 0 ∧ k.dringHead = 0 ∧
    ∀ p : Nat, let st := k.strand p
      st.retryLimit = 64 ∧ st.gatherDrops = 0 ∧ st.loops = [] ∧ st.trapPc = 0 ∧ st.trapInfo = 0 ∧ st.crTarget = 0 ∧
      st.hscratch = Vector.replicate 4 0 ∧ (c < 256 → st.priv = false) ∧ (256 ≤ c → p < 17 → st.priv = true)

/-- R50, R87-R92, R349, R366 (what follows a Hasp strand's issue is R91's guard). Where a strand is chosen, holds no late fault and owes no request, a step runs the instruction that the words at its PC
decode to, annuls it where an annulment is pending, and traps (Illegal Instruction) on words that are none; at a handler address the words are
those of slots 248 and 249. Every instruction and event answers a next state, in every state and with every operand, but for untranslated accesses
outside the physical memory. Otherwise a step is the first event that is due, or the next core's turn; the events of a core's strands and engines stay while its dies are
gated or off (R394). -/
def Obligations.StepRunsTheDecodedInstruction : Prop :=
  (∀ (i : Instr) (s : State), accessesUntranslated i = false → ∃ t, exec i s = .next t) ∧
  (∀ (i : Instr) (s : State), accessesUntranslated i = true → (∃ t, exec i s = .next t ∧ t.oob = false) ∨ exec i s = .fault .noSuchAddress) ∧
  (∀ (s u : State) (ws : List W32), s.sel = true → s.me.lateDue = false → s.me.replays = [] → s.fetchInstr = (.words ws, u) →
    (∀ i, u.me.annul = 0 → decodeWords ws = .ok i → step s = afterIssue s (exec i { u with words := ws })) ∧
    (∀ e, u.me.annul = 0 → decodeWords ws = .error e → step s = afterIssue s (.next ({ u with words := ws }.trapAt 0x02 0 u.me.pc))) ∧
    (u.me.annul ≠ 0 → step s = afterIssue s (.next (u.annulOne ws.length)))) ∧
  (∀ s t : State, (s.cur.pos ≠ 16 → s.guardOwner t = t) ∧ ∃ g : BitVec 16, g &&& (t.core s.cur.core).guarded = (t.core s.cur.core).guarded ∧
    (s.guardOwner t = t ∨ s.guardOwner t = t.modCore s.cur.core fun c => { c with guarded := g })) ∧
  (∀ s : State, s.me.priv = true → s.me.pc.getLsbD 63 = true → s.me.pc.toNat % 2 ^ 63 + 20 ≤ 2 ^ 15 →
    (∀ r ∈ s.reqs, ¬(r.sid = s.cur ∧ r.kind = .fetch)) → s.myCore.slotErrors = [] → ((List.range 34).filter s.myCore.rebuilt.getLsbD).length ≤ 2 →
    let base := 248 * 16384 + s.me.pc.toNat % 2 ^ 63
    let word (k : Nat) : W32 := BitVec.ofNat 32 (s.myCore.slots.readNat (base + 4 * k) 4)
    s.fetchInstr = (.words ((List.range (instrWords (word 0))).map word), s)) ∧
  (∀ (s : State) (sid : SId), s.sel = true → s.cur = sid → s.me.lateDue = true → step s = afterIssue s (exec (.handlerEntry sid) s)) ∧
  (∀ (s : State) (e : Instr) (rest : List Pending), s.sel = false → takeDue s.cycle s.holds s.pending = some (e, rest) →
    step s = exec e { s with pending := rest }) ∧
  (∀ (s : State) (i : Instr), (s.bar.pwr = 0 → s.bar.sec = 1 → s.holds i = false) ∧
    ((s.bar.pwr ≠ 0 ∨ s.bar.sec ≠ 1) → (∀ core e j k, i = .issueTurn core ∨ i = .copyTransfer e ∨ i = .kGroupApply e j ∨ i = .drainRow e k → s.holds i = true) ∧
      (∀ m w a d, i = .powerWake ∨ i = .messageArrive m ∨ i = .hostMemoryAccess w a d → s.holds i = false))) ∧
  (∀ (s : State) (c : Core), s.sel = false → takeDue s.cycle s.holds s.pending = none → s.cores[s.turn]? = some c → s.bar.pwr = 0 → s.bar.sec = 1 →
    step s = exec (.issueTurn c.id) s) ∧
  ∀ s : State, s.sel = false → takeDue s.cycle s.holds s.pending = none → s.cores[s.turn]? = none → ∃ t, step s = .next t ∧ t.cycle = s.cycle + 1 ∧
    t.turn = 0 ∧ t.cores = s.cores ∧ bytesKept s t

/-- R86-R91. In cycle c the turn belongs to position c mod 16: a ready Hasp strand takes it unless it is guarded; then its owner; then the first
ready strand of the owner's crew in the order after it; then the first ready one of any other; else nobody issues. A supervisor strand issues
whenever it is eligible. -/
def Obligations.IssueTurnsChoose : Prop :=
  (∀ (core : Nat) (s : State), core < 256 →
    let p := s.cycle % 16
    let nth (i : Nat) : Nat := (p + 1 + i) % 16
    let hasp : Prop := (s.core core).haspOn = true ∧ (s.core core).guarded.getLsbD p = false ∧ s.eligible ⟨core, 16⟩ = true
    (hasp → chooses s core 16) ∧
    (¬hasp → mayIssue s core p → chooses s core p) ∧
    (∀ i, ¬hasp → ¬mayIssue s core p → i < 15 → mayIssue s core (nth i) → kin s core p (nth i) →
      (∀ k, k < i → ¬(mayIssue s core (nth k) ∧ kin s core p (nth k))) → chooses s core (nth i)) ∧
    (∀ i, ¬hasp → ¬mayIssue s core p → (∀ k, k < 15 → ¬(mayIssue s core (nth k) ∧ kin s core p (nth k))) → i < 15 → mayIssue s core (nth i) →
      (∀ k, k < i → ¬mayIssue s core (nth k)) → chooses s core (nth i)) ∧
    (¬hasp → (∀ q, q < 16 → ¬mayIssue s core q) → ∃ t, exec (.issueTurn core) s = .next t ∧ bytesKept s t ∧ t.cur = s.cur ∧ t.sel = s.sel ∧
      t.turn = s.turn + 1)) ∧
  ∀ (core : Nat) (s : State), 256 ≤ core →
    ((s.core core).haspOn = true → s.eligible ⟨core, 0⟩ = true → chooses s core 0) ∧
    ((s.core core).haspOn = false ∨ s.eligible ⟨core, 0⟩ = false → ∃ t, exec (.issueTurn core) s = .next t ∧ t.sel = s.sel ∧ t.turn = s.turn + 1)

/-- The four kinds of bytes of R2 are held as lists of the bytes that differ from 0 (the model's own form, log 4): whatever a step does, from any state
in which all of them are canonical, they are canonical after it, so that equal memories stay equal data and no byte has two values. -/
def Obligations.StepsKeepMemoriesCanonical : Prop :=
  ∀ s t : State, memoriesCanonical s → step s = .next t → memoriesCanonical t

/-- R32-R37, R42, R46-R48. Words written out field by field from the encoding tables decode to what they stand for, one of each format and of several
families; the two words of R32 and R390, a reserved major, a LEN a minor has not, and a field out of its class do too. -/
def Obligations.WordsDecode : Prop :=
  let reads (n w : Nat) (i : Instr) : Prop := decodeTableWord n w = some i
  let refuses (n w : Nat) : Prop := decodeTableWord n w = none
  let e0 : Ext := ⟨0, 0, 0, 0, 0, 0, 0⟩
  reads 32 (formR 0 0x01 3 1 2 0 0 0 0) (.add ⟨3, 1, 2, false, false, 0⟩) ∧
  reads 32 (formR 0 0x01 3 1 2 1 1 1 4) (.div ⟨3, 1, 2, true, true, 1⟩) ∧
  reads 96 (formR 2 0x01 31 30 0 0 0 0 1 + 0x89ABCDEF * 2 ^ 32 + 0x01234567 * 2 ^ 64) (.subLiteral ⟨31, 30, 0, false, false, 0⟩ 0x0123456789ABCDEF#64) ∧
  reads 32 (2 * 2 ^ 24 + 5 * 2 ^ 19 + 6 * 2 ^ 14 + 0x1FF * 2 ^ 4 + 0) (.addImmediate ⟨5, 6, false, 0x1FF⟩) ∧
  reads 32 (10 * 2 ^ 24 + 1 * 2 ^ 22 + 0x3FFFFF) (.bl 0x3FFFFF) ∧
  reads 96 (formR 1 0x39 4 0 0 0 0 0 0 + 2 * 2 ^ 64) (.crrd ⟨4, 0, 0, false, false, 0⟩ { e0 with e2 := 2 }) ∧
  reads 32 (9 * 2 ^ 24 + 3 * 2 ^ 19 + 4 * 2 ^ 14 + 5 * 2 ^ 9 + 2 ^ 8 + 2 * 2 ^ 5 + 1) (.cmpImmediate ⟨4, true, 101, 2, 1⟩) ∧
  reads 32 (formR 0 0x10 1 2 3 0 1 2 0) (.vadd ⟨1, 2, 3, false, true, 2⟩) ∧
  reads 32 (formR 0 0x21 7 8 9 1 0 1 0) (.klook ⟨7, 8, 9, true, false, 1⟩) ∧
  reads 96 (formR 1 0x27 4 5 6 0 0 0 7 + formE 0x12 5 4 0 8 1 * 2 ^ 32 + 9 * 2 ^ 64) (.acas ⟨4, 5, 6, false, false, 0⟩ ⟨0x12, 5, 4, 0, 8, 1, 9⟩) ∧
  reads 32 (formR 0 0x2A 2 3 4 1 0 0 0) (.chapp ⟨2, 3, 4, true, false, 0⟩) ∧
  reads 32 (formR 0 0x2C 0 5 0 0 0 0 2) (.mzero ⟨0, 5, 0, false, false, 0⟩) ∧
  reads 32 (formR 0 0x2E 0 5 31 0 0 0 0) (.send ⟨0, 5, 31, false, false, 0⟩) ∧
  refuses 32 (formR 0 0x2A 2 3 8 1 0 0 0) ∧
  reads 32 0 .zeroWord ∧ reads 32 0xFFFFFFFF .breakWord ∧
  refuses 32 (formR 0 0x3F 0 0 0 0 0 0 0) ∧ refuses 32 (formR 0 0x39 4 0 0 0 0 0 0) ∧ refuses 32 (formR 0 0x01 3 1 2 0 0 1 0)

/-- R32-R48. What an instruction is encoded as decodes to it again, whatever follows it, with every operand at every value that the encoding admits; and
words that decode name a well-formed instruction whose encoding they begin with, so that no word has two meanings. -/
def Obligations.DecodeAndEncodeAgree : Prop :=
  (∀ (i : Instr) (rest : List W32), i.wf = true → decode ((encode i ++ rest).flatMap bytesOfWord) = .ok i) ∧
  ∀ (bs : List Byte) (i : Instr), decode bs = .ok i → i.wf = true ∧ ∃ rest, wordsOfBytes bs = encode i ++ rest

/-! ### Statements of several parts -/

/-- Scalar integer, literal, immediate, move and bit-field forms: value of d. -/
def Obligations.ScalarResults : Prop :=
  ScalarRegisterResults ∧ ScalarLiteralResults ∧ ScalarImmediateResults ∧ MovesAndBitFields

/-- Scalar FP32 arithmetic, conversions and compares. -/
def Obligations.ScalarFloats : Prop :=
  ScalarFloatResults ∧ FloatConversionsAndCompares

/-- Rounding and special values of every format and mode. -/
def Obligations.FloatRounding : Prop :=
  FloatSpecialValues ∧ RepresentableRoundsToItself ∧ RoundTowardZeroIsTight ∧ RoundingPicksTheCandidate

/-- What popping, writing, delivering, retiring and jumping change, and nothing else. -/
def Obligations.OperandsAndRetirement : Prop :=
  PopsTouchOnlyStreams ∧ LateResultsTakeTheirPlace ∧ DestWritesOneRegister ∧ ReserveThenDeliver ∧ RetireGoesOnAtNext ∧ JumpTransfersControl

/-- CMP annuls on a false condition; branches, calls, returns and LOOP reach their targets. -/
def Obligations.ControlFlow : Prop :=
  ScalarCompares ∧ BranchesReachTheirTargets ∧ HardwareLoops

/-- Exact traps, late faults and double traps: what entry saves and where it goes. -/
def Obligations.TrapEntry : Prop :=
  TrapEntersHandler ∧ InstructionsThatTrap ∧ LateFaultEntersHandler ∧ DoubleTrapStopsTheStrand

/-- RETURN restores what handler entry saved; privileged forms trap in user mode. -/
def Obligations.ReturnFromTrap : Prop :=
  ReturnRestoresWhatEntrySaved ∧ EntryThenReturnIsIdentity

/-- Vector arithmetic: every lane's value under the mask, and the frame of a vector write. -/
def Obligations.VectorArithmeticForms : Prop :=
  VectorArithmetic ∧ VectorFusedAndUnary ∧ VectorWriteKeepsOtherBytes

/-- Vector compares, masks and conversions. -/
def Obligations.VectorComparesAndConversions : Prop :=
  VectorComparesAndMasks ∧ VectorConversions

/-- Vector functions, reductions and scans. -/
def Obligations.VectorFunctions : Prop :=
  VectorFunctionsAndReductions ∧ ReductionValues

/-- Vector permutes, inserts and extracts, and the top-k buffer. -/
def Obligations.PermutesAndTopK : Prop :=
  VectorPermutes ∧ TopKBuffer

/-- CLAIM, ACQ and REL: grants, reports, traps and amounts. -/
def Obligations.ResourceForms : Prop :=
  ClaimIsLowered ∧ AcquireGrantsOrReports ∧ ReleaseReturnsToThePool

/-- View registers, window moves and stack accesses; names outside the window trap. -/
def Obligations.ViewsAndWindow : Prop :=
  ViewsMovesAndStackAccesses ∧ NamesOutsideTheWindowTrap

/-- Stream and fibre generators. -/
def Obligations.StreamsAndFibres : Prop :=
  StreamsBindAndUnbind ∧ FibresWalkAndIntersect

/-- Slot loads, blocking and not. -/
def Obligations.SlotLoadForms : Prop :=
  SlotLoads ∧ SlotLoadStatus

/-- Slot stores and the granule forms. -/
def Obligations.SlotStoreForms : Prop :=
  SlotStores ∧ GranuleForms

/-- The local key map: lookup, pin, bind, unbind, state and victim. -/
def Obligations.LocalKeyMap : Prop :=
  LocalMapLookups ∧ LocalMapBind ∧ LocalMapStateAndVictim

/-- Shared key maps: forms at issue, reads at the home and a binding's two entries. -/
def Obligations.SharedKeyMaps : Prop :=
  SharedMapFormsIssue ∧ SharedMapHomeReads ∧ SharedMapBindFillsTwoEntries

/-- Loads, stores, gathers and scatters through layouts: the requests they make. -/
def Obligations.MemoryFormsIssue : Prop :=
  LoadsAndStoresIssue ∧ GatherAndScatterIssue

/-- Atomics, locks and sync words: the requests they make. -/
def Obligations.AtomicAndLockFormsIssue : Prop :=
  AtomicsIssue ∧ LocksAndSyncWordsIssue

/-- Addresses of elements, and the layout record forms. -/
def Obligations.LayoutForms : Prop :=
  AddressOfAnElement ∧ LayoutRecordForms

/-- Translation walks, the fault buffer, replays and invalidations. -/
def Obligations.TranslationAndReplay : Prop :=
  WalksReachThePage ∧ TranslationAndFaults ∧ ReplayAndInvalidate

/-- Loads, stores and atomics at their home: bytes, sync bits and answers. -/
def Obligations.HomesApplyAccesses : Prop :=
  AccessesAtTheHome ∧ AtomicsAtTheHome

/-- Lock attempts, sync words, WAITNE and spin wakes. -/
def Obligations.LocksAndSyncWords : Prop :=
  LockAttempts ∧ SyncWordsAndWakes

/-- Chain instructions, completion, faults and the supervisor's chain controls. -/
def Obligations.Chains : Prop :=
  ChainForms ∧ EntriesCompleteAndHalt

/-- Copy, gather and matrix engines: the steps of a record. -/
def Obligations.Engines : Prop :=
  EnginesMoveGranules ∧ CopiesMoveUnits ∧ GathersAskAndLand ∧ MatrixEngines

/-- Channel instructions and what the home does with them. -/
def Obligations.Channels : Prop :=
  ChannelInstructions ∧ ChannelHomes

/-- CREW_CTL, NI_CTL, HASP_CTL, SLOT_ERASED, the mailbox and the patrol scrub. -/
def Obligations.CrewAndCoreControls : Prop :=
  CrewControls ∧ InterfaceAndHaspControls ∧ BankErasureAndScrub

/-- Pre-emption, context save and restore; a strand's image gives it back. -/
def Obligations.PreemptionSavesAndRestores : Prop :=
  PreemptionPath ∧ StrandImageRoundTrip

/-- Power states, power-on, host accesses and plain registers. -/
def Obligations.PowerAndHostAccesses : Prop :=
  PowerStates ∧ HostAccessesAndRegisters
end

