-- ==== Sys2Proof/Laws/State.lean ====
section
/-! SUPPORT. What the basic updates of the machine state leave alone: one lemma for each field and each update, so that no
proof unfolds a record update. -/

namespace Sys2Proof.Machine

/-! ### State.setCore -/

@[simp] theorem State.setCore_cur (s : State) (c : Core) : (s.setCore c).cur = s.cur := rfl
@[simp] theorem State.setCore_sel (s : State) (c : Core) : (s.setCore c).sel = s.sel := rfl
@[simp] theorem State.setCore_rest (s : State) (c : Core) : (s.setCore c).rest = s.rest := rfl
@[simp] theorem State.setCore_turn (s : State) (c : Core) : (s.setCore c).turn = s.turn := rfl
@[simp] theorem State.setCore_cycle (s : State) (c : Core) : (s.setCore c).cycle = s.cycle := rfl
@[simp] theorem State.setCore_pending (s : State) (c : Core) : (s.setCore c).pending = s.pending := rfl
@[simp] theorem State.setCore_freeCtr (s : State) (c : Core) : (s.setCore c).freeCtr = s.freeCtr := rfl
@[simp] theorem State.setCore_serial (s : State) (c : Core) : (s.setCore c).serial = s.serial := rfl
@[simp] theorem State.setCore_oob (s : State) (c : Core) : (s.setCore c).oob = s.oob := rfl
@[simp] theorem State.setCore_words (s : State) (c : Core) : (s.setCore c).words = s.words := rfl
@[simp] theorem State.setCore_dies (s : State) (c : Core) : (s.setCore c).dies = s.dies := rfl
@[simp] theorem State.setCore_mem (s : State) (c : Core) : (s.setCore c).mem = s.mem := rfl
@[simp] theorem State.setCore_host (s : State) (c : Core) : (s.setCore c).host = s.host := rfl
@[simp] theorem State.setCore_memErrors (s : State) (c : Core) : (s.setCore c).memErrors = s.memErrors := rfl
@[simp] theorem State.setCore_syncEmpty (s : State) (c : Core) : (s.setCore c).syncEmpty = s.syncEmpty := rfl
@[simp] theorem State.setCore_reqs (s : State) (c : Core) : (s.setCore c).reqs = s.reqs := rfl
@[simp] theorem State.setCore_faults (s : State) (c : Core) : (s.setCore c).faults = s.faults := rfl
@[simp] theorem State.setCore_dropped (s : State) (c : Core) : (s.setCore c).dropped = s.dropped := rfl
@[simp] theorem State.setCore_dropCount (s : State) (c : Core) : (s.setCore c).dropCount = s.dropCount := rfl
@[simp] theorem State.setCore_faultHost (s : State) (c : Core) : (s.setCore c).faultHost = s.faultHost := rfl
@[simp] theorem State.setCore_migDst (s : State) (c : Core) : (s.setCore c).migDst = s.migDst := rfl
@[simp] theorem State.setCore_migSrc (s : State) (c : Core) : (s.setCore c).migSrc = s.migSrc := rfl
@[simp] theorem State.setCore_migDone (s : State) (c : Core) : (s.setCore c).migDone = s.migDone := rfl
@[simp] theorem State.setCore_migBusy (s : State) (c : Core) : (s.setCore c).migBusy = s.migBusy := rfl
@[simp] theorem State.setCore_migFree (s : State) (c : Core) : (s.setCore c).migFree = s.migFree := rfl
@[simp] theorem State.setCore_marks (s : State) (c : Core) : (s.setCore c).marks = s.marks := rfl
@[simp] theorem State.setCore_cut (s : State) (c : Core) : (s.setCore c).cut = s.cut := rfl
@[simp] theorem State.setCore_fabric (s : State) (c : Core) : (s.setCore c).fabric = s.fabric := rfl
@[simp] theorem State.setCore_bar (s : State) (c : Core) : (s.setCore c).bar = s.bar := rfl
@[simp] theorem State.setCore_trust (s : State) (c : Core) : (s.setCore c).trust = s.trust := rfl
@[simp] theorem State.setCore_jobs (s : State) (c : Core) : (s.setCore c).jobs = s.jobs := rfl
@[simp] theorem State.setCore_msix (s : State) (c : Core) : (s.setCore c).msix = s.msix := rfl
@[simp] theorem State.setCore_throttled (s : State) (c : Core) : (s.setCore c).throttled = s.throttled := rfl
@[simp] theorem State.setCore_skipped (s : State) (c : Core) : (s.setCore c).skipped = s.skipped := rfl
@[simp] theorem State.setCore_unapplied (s : State) (c : Core) : (s.setCore c).unapplied = s.unapplied := rfl
@[simp] theorem State.setCore_service (s : State) (c : Core) : (s.setCore c).service = s.service := rfl

/-! ### State.modCore -/

@[simp] theorem State.modCore_cur (s : State) (i : Nat) (f : Core → Core) : (s.modCore i f).cur = s.cur := rfl
@[simp] theorem State.modCore_sel (s : State) (i : Nat) (f : Core → Core) : (s.modCore i f).sel = s.sel := rfl
@[simp] theorem State.modCore_rest (s : State) (i : Nat) (f : Core → Core) : (s.modCore i f).rest = s.rest := rfl
@[simp] theorem State.modCore_turn (s : State) (i : Nat) (f : Core → Core) : (s.modCore i f).turn = s.turn := rfl
@[simp] theorem State.modCore_cycle (s : State) (i : Nat) (f : Core → Core) : (s.modCore i f).cycle = s.cycle := rfl
@[simp] theorem State.modCore_pending (s : State) (i : Nat) (f : Core → Core) : (s.modCore i f).pending = s.pending := rfl
@[simp] theorem State.modCore_freeCtr (s : State) (i : Nat) (f : Core → Core) : (s.modCore i f).freeCtr = s.freeCtr := rfl
@[simp] theorem State.modCore_serial (s : State) (i : Nat) (f : Core → Core) : (s.modCore i f).serial = s.serial := rfl
@[simp] theorem State.modCore_oob (s : State) (i : Nat) (f : Core → Core) : (s.modCore i f).oob = s.oob := rfl
@[simp] theorem State.modCore_words (s : State) (i : Nat) (f : Core → Core) : (s.modCore i f).words = s.words := rfl
@[simp] theorem State.modCore_dies (s : State) (i : Nat) (f : Core → Core) : (s.modCore i f).dies = s.dies := rfl
@[simp] theorem State.modCore_mem (s : State) (i : Nat) (f : Core → Core) : (s.modCore i f).mem = s.mem := rfl
@[simp] theorem State.modCore_host (s : State) (i : Nat) (f : Core → Core) : (s.modCore i f).host = s.host := rfl
@[simp] theorem State.modCore_memErrors (s : State) (i : Nat) (f : Core → Core) : (s.modCore i f).memErrors = s.memErrors := rfl
@[simp] theorem State.modCore_syncEmpty (s : State) (i : Nat) (f : Core → Core) : (s.modCore i f).syncEmpty = s.syncEmpty := rfl
@[simp] theorem State.modCore_reqs (s : State) (i : Nat) (f : Core → Core) : (s.modCore i f).reqs = s.reqs := rfl
@[simp] theorem State.modCore_faults (s : State) (i : Nat) (f : Core → Core) : (s.modCore i f).faults = s.faults := rfl
@[simp] theorem State.modCore_dropped (s : State) (i : Nat) (f : Core → Core) : (s.modCore i f).dropped = s.dropped := rfl
@[simp] theorem State.modCore_dropCount (s : State) (i : Nat) (f : Core → Core) : (s.modCore i f).dropCount = s.dropCount := rfl
@[simp] theorem State.modCore_faultHost (s : State) (i : Nat) (f : Core → Core) : (s.modCore i f).faultHost = s.faultHost := rfl
@[simp] theorem State.modCore_migDst (s : State) (i : Nat) (f : Core → Core) : (s.modCore i f).migDst = s.migDst := rfl
@[simp] theorem State.modCore_migSrc (s : State) (i : Nat) (f : Core → Core) : (s.modCore i f).migSrc = s.migSrc := rfl
@[simp] theorem State.modCore_migDone (s : State) (i : Nat) (f : Core → Core) : (s.modCore i f).migDone = s.migDone := rfl
@[simp] theorem State.modCore_migBusy (s : State) (i : Nat) (f : Core → Core) : (s.modCore i f).migBusy = s.migBusy := rfl
@[simp] theorem State.modCore_migFree (s : State) (i : Nat) (f : Core → Core) : (s.modCore i f).migFree = s.migFree := rfl
@[simp] theorem State.modCore_marks (s : State) (i : Nat) (f : Core → Core) : (s.modCore i f).marks = s.marks := rfl
@[simp] theorem State.modCore_cut (s : State) (i : Nat) (f : Core → Core) : (s.modCore i f).cut = s.cut := rfl
@[simp] theorem State.modCore_fabric (s : State) (i : Nat) (f : Core → Core) : (s.modCore i f).fabric = s.fabric := rfl
@[simp] theorem State.modCore_bar (s : State) (i : Nat) (f : Core → Core) : (s.modCore i f).bar = s.bar := rfl
@[simp] theorem State.modCore_trust (s : State) (i : Nat) (f : Core → Core) : (s.modCore i f).trust = s.trust := rfl
@[simp] theorem State.modCore_jobs (s : State) (i : Nat) (f : Core → Core) : (s.modCore i f).jobs = s.jobs := rfl
@[simp] theorem State.modCore_msix (s : State) (i : Nat) (f : Core → Core) : (s.modCore i f).msix = s.msix := rfl
@[simp] theorem State.modCore_throttled (s : State) (i : Nat) (f : Core → Core) : (s.modCore i f).throttled = s.throttled := rfl
@[simp] theorem State.modCore_skipped (s : State) (i : Nat) (f : Core → Core) : (s.modCore i f).skipped = s.skipped := rfl
@[simp] theorem State.modCore_unapplied (s : State) (i : Nat) (f : Core → Core) : (s.modCore i f).unapplied = s.unapplied := rfl
@[simp] theorem State.modCore_service (s : State) (i : Nat) (f : Core → Core) : (s.modCore i f).service = s.service := rfl

/-! ### State.setStrand -/

@[simp] theorem State.setStrand_cur (s : State) (sid : SId) (st : Strand) : (s.setStrand sid st).cur = s.cur := rfl
@[simp] theorem State.setStrand_sel (s : State) (sid : SId) (st : Strand) : (s.setStrand sid st).sel = s.sel := rfl
@[simp] theorem State.setStrand_rest (s : State) (sid : SId) (st : Strand) : (s.setStrand sid st).rest = s.rest := rfl
@[simp] theorem State.setStrand_turn (s : State) (sid : SId) (st : Strand) : (s.setStrand sid st).turn = s.turn := rfl
@[simp] theorem State.setStrand_cycle (s : State) (sid : SId) (st : Strand) : (s.setStrand sid st).cycle = s.cycle := rfl
@[simp] theorem State.setStrand_pending (s : State) (sid : SId) (st : Strand) : (s.setStrand sid st).pending = s.pending := rfl
@[simp] theorem State.setStrand_freeCtr (s : State) (sid : SId) (st : Strand) : (s.setStrand sid st).freeCtr = s.freeCtr := rfl
@[simp] theorem State.setStrand_serial (s : State) (sid : SId) (st : Strand) : (s.setStrand sid st).serial = s.serial := rfl
@[simp] theorem State.setStrand_oob (s : State) (sid : SId) (st : Strand) : (s.setStrand sid st).oob = s.oob := rfl
@[simp] theorem State.setStrand_words (s : State) (sid : SId) (st : Strand) : (s.setStrand sid st).words = s.words := rfl
@[simp] theorem State.setStrand_dies (s : State) (sid : SId) (st : Strand) : (s.setStrand sid st).dies = s.dies := rfl
@[simp] theorem State.setStrand_mem (s : State) (sid : SId) (st : Strand) : (s.setStrand sid st).mem = s.mem := rfl
@[simp] theorem State.setStrand_host (s : State) (sid : SId) (st : Strand) : (s.setStrand sid st).host = s.host := rfl
@[simp] theorem State.setStrand_memErrors (s : State) (sid : SId) (st : Strand) : (s.setStrand sid st).memErrors = s.memErrors := rfl
@[simp] theorem State.setStrand_syncEmpty (s : State) (sid : SId) (st : Strand) : (s.setStrand sid st).syncEmpty = s.syncEmpty := rfl
@[simp] theorem State.setStrand_reqs (s : State) (sid : SId) (st : Strand) : (s.setStrand sid st).reqs = s.reqs := rfl
@[simp] theorem State.setStrand_faults (s : State) (sid : SId) (st : Strand) : (s.setStrand sid st).faults = s.faults := rfl
@[simp] theorem State.setStrand_dropped (s : State) (sid : SId) (st : Strand) : (s.setStrand sid st).dropped = s.dropped := rfl
@[simp] theorem State.setStrand_dropCount (s : State) (sid : SId) (st : Strand) : (s.setStrand sid st).dropCount = s.dropCount := rfl
@[simp] theorem State.setStrand_faultHost (s : State) (sid : SId) (st : Strand) : (s.setStrand sid st).faultHost = s.faultHost := rfl
@[simp] theorem State.setStrand_migDst (s : State) (sid : SId) (st : Strand) : (s.setStrand sid st).migDst = s.migDst := rfl
@[simp] theorem State.setStrand_migSrc (s : State) (sid : SId) (st : Strand) : (s.setStrand sid st).migSrc = s.migSrc := rfl
@[simp] theorem State.setStrand_migDone (s : State) (sid : SId) (st : Strand) : (s.setStrand sid st).migDone = s.migDone := rfl
@[simp] theorem State.setStrand_migBusy (s : State) (sid : SId) (st : Strand) : (s.setStrand sid st).migBusy = s.migBusy := rfl
@[simp] theorem State.setStrand_migFree (s : State) (sid : SId) (st : Strand) : (s.setStrand sid st).migFree = s.migFree := rfl
@[simp] theorem State.setStrand_marks (s : State) (sid : SId) (st : Strand) : (s.setStrand sid st).marks = s.marks := rfl
@[simp] theorem State.setStrand_cut (s : State) (sid : SId) (st : Strand) : (s.setStrand sid st).cut = s.cut := rfl
@[simp] theorem State.setStrand_fabric (s : State) (sid : SId) (st : Strand) : (s.setStrand sid st).fabric = s.fabric := rfl
@[simp] theorem State.setStrand_bar (s : State) (sid : SId) (st : Strand) : (s.setStrand sid st).bar = s.bar := rfl
@[simp] theorem State.setStrand_trust (s : State) (sid : SId) (st : Strand) : (s.setStrand sid st).trust = s.trust := rfl
@[simp] theorem State.setStrand_jobs (s : State) (sid : SId) (st : Strand) : (s.setStrand sid st).jobs = s.jobs := rfl
@[simp] theorem State.setStrand_msix (s : State) (sid : SId) (st : Strand) : (s.setStrand sid st).msix = s.msix := rfl
@[simp] theorem State.setStrand_throttled (s : State) (sid : SId) (st : Strand) : (s.setStrand sid st).throttled = s.throttled := rfl
@[simp] theorem State.setStrand_skipped (s : State) (sid : SId) (st : Strand) : (s.setStrand sid st).skipped = s.skipped := rfl
@[simp] theorem State.setStrand_unapplied (s : State) (sid : SId) (st : Strand) : (s.setStrand sid st).unapplied = s.unapplied := rfl
@[simp] theorem State.setStrand_service (s : State) (sid : SId) (st : Strand) : (s.setStrand sid st).service = s.service := rfl

/-! ### State.modStrand -/

@[simp] theorem State.modStrand_cur (s : State) (sid : SId) (f : Strand → Strand) : (s.modStrand sid f).cur = s.cur := rfl
@[simp] theorem State.modStrand_sel (s : State) (sid : SId) (f : Strand → Strand) : (s.modStrand sid f).sel = s.sel := rfl
@[simp] theorem State.modStrand_rest (s : State) (sid : SId) (f : Strand → Strand) : (s.modStrand sid f).rest = s.rest := rfl
@[simp] theorem State.modStrand_turn (s : State) (sid : SId) (f : Strand → Strand) : (s.modStrand sid f).turn = s.turn := rfl
@[simp] theorem State.modStrand_cycle (s : State) (sid : SId) (f : Strand → Strand) : (s.modStrand sid f).cycle = s.cycle := rfl
@[simp] theorem State.modStrand_pending (s : State) (sid : SId) (f : Strand → Strand) : (s.modStrand sid f).pending = s.pending := rfl
@[simp] theorem State.modStrand_freeCtr (s : State) (sid : SId) (f : Strand → Strand) : (s.modStrand sid f).freeCtr = s.freeCtr := rfl
@[simp] theorem State.modStrand_serial (s : State) (sid : SId) (f : Strand → Strand) : (s.modStrand sid f).serial = s.serial := rfl
@[simp] theorem State.modStrand_oob (s : State) (sid : SId) (f : Strand → Strand) : (s.modStrand sid f).oob = s.oob := rfl
@[simp] theorem State.modStrand_words (s : State) (sid : SId) (f : Strand → Strand) : (s.modStrand sid f).words = s.words := rfl
@[simp] theorem State.modStrand_dies (s : State) (sid : SId) (f : Strand → Strand) : (s.modStrand sid f).dies = s.dies := rfl
@[simp] theorem State.modStrand_mem (s : State) (sid : SId) (f : Strand → Strand) : (s.modStrand sid f).mem = s.mem := rfl
@[simp] theorem State.modStrand_host (s : State) (sid : SId) (f : Strand → Strand) : (s.modStrand sid f).host = s.host := rfl
@[simp] theorem State.modStrand_memErrors (s : State) (sid : SId) (f : Strand → Strand) : (s.modStrand sid f).memErrors = s.memErrors := rfl
@[simp] theorem State.modStrand_syncEmpty (s : State) (sid : SId) (f : Strand → Strand) : (s.modStrand sid f).syncEmpty = s.syncEmpty := rfl
@[simp] theorem State.modStrand_reqs (s : State) (sid : SId) (f : Strand → Strand) : (s.modStrand sid f).reqs = s.reqs := rfl
@[simp] theorem State.modStrand_faults (s : State) (sid : SId) (f : Strand → Strand) : (s.modStrand sid f).faults = s.faults := rfl
@[simp] theorem State.modStrand_dropped (s : State) (sid : SId) (f : Strand → Strand) : (s.modStrand sid f).dropped = s.dropped := rfl
@[simp] theorem State.modStrand_dropCount (s : State) (sid : SId) (f : Strand → Strand) : (s.modStrand sid f).dropCount = s.dropCount := rfl
@[simp] theorem State.modStrand_faultHost (s : State) (sid : SId) (f : Strand → Strand) : (s.modStrand sid f).faultHost = s.faultHost := rfl
@[simp] theorem State.modStrand_migDst (s : State) (sid : SId) (f : Strand → Strand) : (s.modStrand sid f).migDst = s.migDst := rfl
@[simp] theorem State.modStrand_migSrc (s : State) (sid : SId) (f : Strand → Strand) : (s.modStrand sid f).migSrc = s.migSrc := rfl
@[simp] theorem State.modStrand_migDone (s : State) (sid : SId) (f : Strand → Strand) : (s.modStrand sid f).migDone = s.migDone := rfl
@[simp] theorem State.modStrand_migBusy (s : State) (sid : SId) (f : Strand → Strand) : (s.modStrand sid f).migBusy = s.migBusy := rfl
@[simp] theorem State.modStrand_migFree (s : State) (sid : SId) (f : Strand → Strand) : (s.modStrand sid f).migFree = s.migFree := rfl
@[simp] theorem State.modStrand_marks (s : State) (sid : SId) (f : Strand → Strand) : (s.modStrand sid f).marks = s.marks := rfl
@[simp] theorem State.modStrand_cut (s : State) (sid : SId) (f : Strand → Strand) : (s.modStrand sid f).cut = s.cut := rfl
@[simp] theorem State.modStrand_fabric (s : State) (sid : SId) (f : Strand → Strand) : (s.modStrand sid f).fabric = s.fabric := rfl
@[simp] theorem State.modStrand_bar (s : State) (sid : SId) (f : Strand → Strand) : (s.modStrand sid f).bar = s.bar := rfl
@[simp] theorem State.modStrand_trust (s : State) (sid : SId) (f : Strand → Strand) : (s.modStrand sid f).trust = s.trust := rfl
@[simp] theorem State.modStrand_jobs (s : State) (sid : SId) (f : Strand → Strand) : (s.modStrand sid f).jobs = s.jobs := rfl
@[simp] theorem State.modStrand_msix (s : State) (sid : SId) (f : Strand → Strand) : (s.modStrand sid f).msix = s.msix := rfl
@[simp] theorem State.modStrand_throttled (s : State) (sid : SId) (f : Strand → Strand) : (s.modStrand sid f).throttled = s.throttled := rfl
@[simp] theorem State.modStrand_skipped (s : State) (sid : SId) (f : Strand → Strand) : (s.modStrand sid f).skipped = s.skipped := rfl
@[simp] theorem State.modStrand_unapplied (s : State) (sid : SId) (f : Strand → Strand) : (s.modStrand sid f).unapplied = s.unapplied := rfl
@[simp] theorem State.modStrand_service (s : State) (sid : SId) (f : Strand → Strand) : (s.modStrand sid f).service = s.service := rfl

/-! ### State.modOwned -/

@[simp] theorem State.modOwned_cur (s : State) (i : Nat) (o : Owner) (f : Crew → Crew) : (s.modOwned i o f).cur = s.cur := rfl
@[simp] theorem State.modOwned_sel (s : State) (i : Nat) (o : Owner) (f : Crew → Crew) : (s.modOwned i o f).sel = s.sel := rfl
@[simp] theorem State.modOwned_rest (s : State) (i : Nat) (o : Owner) (f : Crew → Crew) : (s.modOwned i o f).rest = s.rest := rfl
@[simp] theorem State.modOwned_turn (s : State) (i : Nat) (o : Owner) (f : Crew → Crew) : (s.modOwned i o f).turn = s.turn := rfl
@[simp] theorem State.modOwned_cycle (s : State) (i : Nat) (o : Owner) (f : Crew → Crew) : (s.modOwned i o f).cycle = s.cycle := rfl
@[simp] theorem State.modOwned_pending (s : State) (i : Nat) (o : Owner) (f : Crew → Crew) : (s.modOwned i o f).pending = s.pending := rfl
@[simp] theorem State.modOwned_freeCtr (s : State) (i : Nat) (o : Owner) (f : Crew → Crew) : (s.modOwned i o f).freeCtr = s.freeCtr := rfl
@[simp] theorem State.modOwned_serial (s : State) (i : Nat) (o : Owner) (f : Crew → Crew) : (s.modOwned i o f).serial = s.serial := rfl
@[simp] theorem State.modOwned_oob (s : State) (i : Nat) (o : Owner) (f : Crew → Crew) : (s.modOwned i o f).oob = s.oob := rfl
@[simp] theorem State.modOwned_words (s : State) (i : Nat) (o : Owner) (f : Crew → Crew) : (s.modOwned i o f).words = s.words := rfl
@[simp] theorem State.modOwned_dies (s : State) (i : Nat) (o : Owner) (f : Crew → Crew) : (s.modOwned i o f).dies = s.dies := rfl
@[simp] theorem State.modOwned_mem (s : State) (i : Nat) (o : Owner) (f : Crew → Crew) : (s.modOwned i o f).mem = s.mem := rfl
@[simp] theorem State.modOwned_host (s : State) (i : Nat) (o : Owner) (f : Crew → Crew) : (s.modOwned i o f).host = s.host := rfl
@[simp] theorem State.modOwned_memErrors (s : State) (i : Nat) (o : Owner) (f : Crew → Crew) : (s.modOwned i o f).memErrors = s.memErrors := rfl
@[simp] theorem State.modOwned_syncEmpty (s : State) (i : Nat) (o : Owner) (f : Crew → Crew) : (s.modOwned i o f).syncEmpty = s.syncEmpty := rfl
@[simp] theorem State.modOwned_reqs (s : State) (i : Nat) (o : Owner) (f : Crew → Crew) : (s.modOwned i o f).reqs = s.reqs := rfl
@[simp] theorem State.modOwned_faults (s : State) (i : Nat) (o : Owner) (f : Crew → Crew) : (s.modOwned i o f).faults = s.faults := rfl
@[simp] theorem State.modOwned_dropped (s : State) (i : Nat) (o : Owner) (f : Crew → Crew) : (s.modOwned i o f).dropped = s.dropped := rfl
@[simp] theorem State.modOwned_dropCount (s : State) (i : Nat) (o : Owner) (f : Crew → Crew) : (s.modOwned i o f).dropCount = s.dropCount := rfl
@[simp] theorem State.modOwned_faultHost (s : State) (i : Nat) (o : Owner) (f : Crew → Crew) : (s.modOwned i o f).faultHost = s.faultHost := rfl
@[simp] theorem State.modOwned_migDst (s : State) (i : Nat) (o : Owner) (f : Crew → Crew) : (s.modOwned i o f).migDst = s.migDst := rfl
@[simp] theorem State.modOwned_migSrc (s : State) (i : Nat) (o : Owner) (f : Crew → Crew) : (s.modOwned i o f).migSrc = s.migSrc := rfl
@[simp] theorem State.modOwned_migDone (s : State) (i : Nat) (o : Owner) (f : Crew → Crew) : (s.modOwned i o f).migDone = s.migDone := rfl
@[simp] theorem State.modOwned_migBusy (s : State) (i : Nat) (o : Owner) (f : Crew → Crew) : (s.modOwned i o f).migBusy = s.migBusy := rfl
@[simp] theorem State.modOwned_migFree (s : State) (i : Nat) (o : Owner) (f : Crew → Crew) : (s.modOwned i o f).migFree = s.migFree := rfl
@[simp] theorem State.modOwned_marks (s : State) (i : Nat) (o : Owner) (f : Crew → Crew) : (s.modOwned i o f).marks = s.marks := rfl
@[simp] theorem State.modOwned_cut (s : State) (i : Nat) (o : Owner) (f : Crew → Crew) : (s.modOwned i o f).cut = s.cut := rfl
@[simp] theorem State.modOwned_fabric (s : State) (i : Nat) (o : Owner) (f : Crew → Crew) : (s.modOwned i o f).fabric = s.fabric := rfl
@[simp] theorem State.modOwned_bar (s : State) (i : Nat) (o : Owner) (f : Crew → Crew) : (s.modOwned i o f).bar = s.bar := rfl
@[simp] theorem State.modOwned_trust (s : State) (i : Nat) (o : Owner) (f : Crew → Crew) : (s.modOwned i o f).trust = s.trust := rfl
@[simp] theorem State.modOwned_jobs (s : State) (i : Nat) (o : Owner) (f : Crew → Crew) : (s.modOwned i o f).jobs = s.jobs := rfl
@[simp] theorem State.modOwned_msix (s : State) (i : Nat) (o : Owner) (f : Crew → Crew) : (s.modOwned i o f).msix = s.msix := rfl
@[simp] theorem State.modOwned_throttled (s : State) (i : Nat) (o : Owner) (f : Crew → Crew) : (s.modOwned i o f).throttled = s.throttled := rfl
@[simp] theorem State.modOwned_skipped (s : State) (i : Nat) (o : Owner) (f : Crew → Crew) : (s.modOwned i o f).skipped = s.skipped := rfl
@[simp] theorem State.modOwned_unapplied (s : State) (i : Nat) (o : Owner) (f : Crew → Crew) : (s.modOwned i o f).unapplied = s.unapplied := rfl
@[simp] theorem State.modOwned_service (s : State) (i : Nat) (o : Owner) (f : Crew → Crew) : (s.modOwned i o f).service = s.service := rfl

/-! ### State.modMe -/

@[simp] theorem State.modMe_cur (s : State) (f : Strand → Strand) : (s.modMe f).cur = s.cur := rfl
@[simp] theorem State.modMe_sel (s : State) (f : Strand → Strand) : (s.modMe f).sel = s.sel := rfl
@[simp] theorem State.modMe_rest (s : State) (f : Strand → Strand) : (s.modMe f).rest = s.rest := rfl
@[simp] theorem State.modMe_turn (s : State) (f : Strand → Strand) : (s.modMe f).turn = s.turn := rfl
@[simp] theorem State.modMe_cycle (s : State) (f : Strand → Strand) : (s.modMe f).cycle = s.cycle := rfl
@[simp] theorem State.modMe_pending (s : State) (f : Strand → Strand) : (s.modMe f).pending = s.pending := rfl
@[simp] theorem State.modMe_freeCtr (s : State) (f : Strand → Strand) : (s.modMe f).freeCtr = s.freeCtr := rfl
@[simp] theorem State.modMe_serial (s : State) (f : Strand → Strand) : (s.modMe f).serial = s.serial := rfl
@[simp] theorem State.modMe_oob (s : State) (f : Strand → Strand) : (s.modMe f).oob = s.oob := rfl
@[simp] theorem State.modMe_words (s : State) (f : Strand → Strand) : (s.modMe f).words = s.words := rfl
@[simp] theorem State.modMe_dies (s : State) (f : Strand → Strand) : (s.modMe f).dies = s.dies := rfl
@[simp] theorem State.modMe_mem (s : State) (f : Strand → Strand) : (s.modMe f).mem = s.mem := rfl
@[simp] theorem State.modMe_host (s : State) (f : Strand → Strand) : (s.modMe f).host = s.host := rfl
@[simp] theorem State.modMe_memErrors (s : State) (f : Strand → Strand) : (s.modMe f).memErrors = s.memErrors := rfl
@[simp] theorem State.modMe_syncEmpty (s : State) (f : Strand → Strand) : (s.modMe f).syncEmpty = s.syncEmpty := rfl
@[simp] theorem State.modMe_reqs (s : State) (f : Strand → Strand) : (s.modMe f).reqs = s.reqs := rfl
@[simp] theorem State.modMe_faults (s : State) (f : Strand → Strand) : (s.modMe f).faults = s.faults := rfl
@[simp] theorem State.modMe_dropped (s : State) (f : Strand → Strand) : (s.modMe f).dropped = s.dropped := rfl
@[simp] theorem State.modMe_dropCount (s : State) (f : Strand → Strand) : (s.modMe f).dropCount = s.dropCount := rfl
@[simp] theorem State.modMe_faultHost (s : State) (f : Strand → Strand) : (s.modMe f).faultHost = s.faultHost := rfl
@[simp] theorem State.modMe_migDst (s : State) (f : Strand → Strand) : (s.modMe f).migDst = s.migDst := rfl
@[simp] theorem State.modMe_migSrc (s : State) (f : Strand → Strand) : (s.modMe f).migSrc = s.migSrc := rfl
@[simp] theorem State.modMe_migDone (s : State) (f : Strand → Strand) : (s.modMe f).migDone = s.migDone := rfl
@[simp] theorem State.modMe_migBusy (s : State) (f : Strand → Strand) : (s.modMe f).migBusy = s.migBusy := rfl
@[simp] theorem State.modMe_migFree (s : State) (f : Strand → Strand) : (s.modMe f).migFree = s.migFree := rfl
@[simp] theorem State.modMe_marks (s : State) (f : Strand → Strand) : (s.modMe f).marks = s.marks := rfl
@[simp] theorem State.modMe_cut (s : State) (f : Strand → Strand) : (s.modMe f).cut = s.cut := rfl
@[simp] theorem State.modMe_fabric (s : State) (f : Strand → Strand) : (s.modMe f).fabric = s.fabric := rfl
@[simp] theorem State.modMe_bar (s : State) (f : Strand → Strand) : (s.modMe f).bar = s.bar := rfl
@[simp] theorem State.modMe_trust (s : State) (f : Strand → Strand) : (s.modMe f).trust = s.trust := rfl
@[simp] theorem State.modMe_jobs (s : State) (f : Strand → Strand) : (s.modMe f).jobs = s.jobs := rfl
@[simp] theorem State.modMe_msix (s : State) (f : Strand → Strand) : (s.modMe f).msix = s.msix := rfl
@[simp] theorem State.modMe_throttled (s : State) (f : Strand → Strand) : (s.modMe f).throttled = s.throttled := rfl
@[simp] theorem State.modMe_skipped (s : State) (f : Strand → Strand) : (s.modMe f).skipped = s.skipped := rfl
@[simp] theorem State.modMe_unapplied (s : State) (f : Strand → Strand) : (s.modMe f).unapplied = s.unapplied := rfl
@[simp] theorem State.modMe_service (s : State) (f : Strand → Strand) : (s.modMe f).service = s.service := rfl

/-! ### State.modMyCrew -/

@[simp] theorem State.modMyCrew_cur (s : State) (f : Crew → Crew) : (s.modMyCrew f).cur = s.cur := rfl
@[simp] theorem State.modMyCrew_sel (s : State) (f : Crew → Crew) : (s.modMyCrew f).sel = s.sel := rfl
@[simp] theorem State.modMyCrew_rest (s : State) (f : Crew → Crew) : (s.modMyCrew f).rest = s.rest := rfl
@[simp] theorem State.modMyCrew_turn (s : State) (f : Crew → Crew) : (s.modMyCrew f).turn = s.turn := rfl
@[simp] theorem State.modMyCrew_cycle (s : State) (f : Crew → Crew) : (s.modMyCrew f).cycle = s.cycle := rfl
@[simp] theorem State.modMyCrew_pending (s : State) (f : Crew → Crew) : (s.modMyCrew f).pending = s.pending := rfl
@[simp] theorem State.modMyCrew_freeCtr (s : State) (f : Crew → Crew) : (s.modMyCrew f).freeCtr = s.freeCtr := rfl
@[simp] theorem State.modMyCrew_serial (s : State) (f : Crew → Crew) : (s.modMyCrew f).serial = s.serial := rfl
@[simp] theorem State.modMyCrew_oob (s : State) (f : Crew → Crew) : (s.modMyCrew f).oob = s.oob := rfl
@[simp] theorem State.modMyCrew_words (s : State) (f : Crew → Crew) : (s.modMyCrew f).words = s.words := rfl
@[simp] theorem State.modMyCrew_dies (s : State) (f : Crew → Crew) : (s.modMyCrew f).dies = s.dies := rfl
@[simp] theorem State.modMyCrew_mem (s : State) (f : Crew → Crew) : (s.modMyCrew f).mem = s.mem := rfl
@[simp] theorem State.modMyCrew_host (s : State) (f : Crew → Crew) : (s.modMyCrew f).host = s.host := rfl
@[simp] theorem State.modMyCrew_memErrors (s : State) (f : Crew → Crew) : (s.modMyCrew f).memErrors = s.memErrors := rfl
@[simp] theorem State.modMyCrew_syncEmpty (s : State) (f : Crew → Crew) : (s.modMyCrew f).syncEmpty = s.syncEmpty := rfl
@[simp] theorem State.modMyCrew_reqs (s : State) (f : Crew → Crew) : (s.modMyCrew f).reqs = s.reqs := rfl
@[simp] theorem State.modMyCrew_faults (s : State) (f : Crew → Crew) : (s.modMyCrew f).faults = s.faults := rfl
@[simp] theorem State.modMyCrew_dropped (s : State) (f : Crew → Crew) : (s.modMyCrew f).dropped = s.dropped := rfl
@[simp] theorem State.modMyCrew_dropCount (s : State) (f : Crew → Crew) : (s.modMyCrew f).dropCount = s.dropCount := rfl
@[simp] theorem State.modMyCrew_faultHost (s : State) (f : Crew → Crew) : (s.modMyCrew f).faultHost = s.faultHost := rfl
@[simp] theorem State.modMyCrew_migDst (s : State) (f : Crew → Crew) : (s.modMyCrew f).migDst = s.migDst := rfl
@[simp] theorem State.modMyCrew_migSrc (s : State) (f : Crew → Crew) : (s.modMyCrew f).migSrc = s.migSrc := rfl
@[simp] theorem State.modMyCrew_migDone (s : State) (f : Crew → Crew) : (s.modMyCrew f).migDone = s.migDone := rfl
@[simp] theorem State.modMyCrew_migBusy (s : State) (f : Crew → Crew) : (s.modMyCrew f).migBusy = s.migBusy := rfl
@[simp] theorem State.modMyCrew_migFree (s : State) (f : Crew → Crew) : (s.modMyCrew f).migFree = s.migFree := rfl
@[simp] theorem State.modMyCrew_marks (s : State) (f : Crew → Crew) : (s.modMyCrew f).marks = s.marks := rfl
@[simp] theorem State.modMyCrew_cut (s : State) (f : Crew → Crew) : (s.modMyCrew f).cut = s.cut := rfl
@[simp] theorem State.modMyCrew_fabric (s : State) (f : Crew → Crew) : (s.modMyCrew f).fabric = s.fabric := rfl
@[simp] theorem State.modMyCrew_bar (s : State) (f : Crew → Crew) : (s.modMyCrew f).bar = s.bar := rfl
@[simp] theorem State.modMyCrew_trust (s : State) (f : Crew → Crew) : (s.modMyCrew f).trust = s.trust := rfl
@[simp] theorem State.modMyCrew_jobs (s : State) (f : Crew → Crew) : (s.modMyCrew f).jobs = s.jobs := rfl
@[simp] theorem State.modMyCrew_msix (s : State) (f : Crew → Crew) : (s.modMyCrew f).msix = s.msix := rfl
@[simp] theorem State.modMyCrew_throttled (s : State) (f : Crew → Crew) : (s.modMyCrew f).throttled = s.throttled := rfl
@[simp] theorem State.modMyCrew_skipped (s : State) (f : Crew → Crew) : (s.modMyCrew f).skipped = s.skipped := rfl
@[simp] theorem State.modMyCrew_unapplied (s : State) (f : Crew → Crew) : (s.modMyCrew f).unapplied = s.unapplied := rfl
@[simp] theorem State.modMyCrew_service (s : State) (f : Crew → Crew) : (s.modMyCrew f).service = s.service := rfl

/-! ### State.modMyCore -/

@[simp] theorem State.modMyCore_cur (s : State) (f : Core → Core) : (s.modMyCore f).cur = s.cur := rfl
@[simp] theorem State.modMyCore_sel (s : State) (f : Core → Core) : (s.modMyCore f).sel = s.sel := rfl
@[simp] theorem State.modMyCore_rest (s : State) (f : Core → Core) : (s.modMyCore f).rest = s.rest := rfl
@[simp] theorem State.modMyCore_turn (s : State) (f : Core → Core) : (s.modMyCore f).turn = s.turn := rfl
@[simp] theorem State.modMyCore_cycle (s : State) (f : Core → Core) : (s.modMyCore f).cycle = s.cycle := rfl
@[simp] theorem State.modMyCore_pending (s : State) (f : Core → Core) : (s.modMyCore f).pending = s.pending := rfl
@[simp] theorem State.modMyCore_freeCtr (s : State) (f : Core → Core) : (s.modMyCore f).freeCtr = s.freeCtr := rfl
@[simp] theorem State.modMyCore_serial (s : State) (f : Core → Core) : (s.modMyCore f).serial = s.serial := rfl
@[simp] theorem State.modMyCore_oob (s : State) (f : Core → Core) : (s.modMyCore f).oob = s.oob := rfl
@[simp] theorem State.modMyCore_words (s : State) (f : Core → Core) : (s.modMyCore f).words = s.words := rfl
@[simp] theorem State.modMyCore_dies (s : State) (f : Core → Core) : (s.modMyCore f).dies = s.dies := rfl
@[simp] theorem State.modMyCore_mem (s : State) (f : Core → Core) : (s.modMyCore f).mem = s.mem := rfl
@[simp] theorem State.modMyCore_host (s : State) (f : Core → Core) : (s.modMyCore f).host = s.host := rfl
@[simp] theorem State.modMyCore_memErrors (s : State) (f : Core → Core) : (s.modMyCore f).memErrors = s.memErrors := rfl
@[simp] theorem State.modMyCore_syncEmpty (s : State) (f : Core → Core) : (s.modMyCore f).syncEmpty = s.syncEmpty := rfl
@[simp] theorem State.modMyCore_reqs (s : State) (f : Core → Core) : (s.modMyCore f).reqs = s.reqs := rfl
@[simp] theorem State.modMyCore_faults (s : State) (f : Core → Core) : (s.modMyCore f).faults = s.faults := rfl
@[simp] theorem State.modMyCore_dropped (s : State) (f : Core → Core) : (s.modMyCore f).dropped = s.dropped := rfl
@[simp] theorem State.modMyCore_dropCount (s : State) (f : Core → Core) : (s.modMyCore f).dropCount = s.dropCount := rfl
@[simp] theorem State.modMyCore_faultHost (s : State) (f : Core → Core) : (s.modMyCore f).faultHost = s.faultHost := rfl
@[simp] theorem State.modMyCore_migDst (s : State) (f : Core → Core) : (s.modMyCore f).migDst = s.migDst := rfl
@[simp] theorem State.modMyCore_migSrc (s : State) (f : Core → Core) : (s.modMyCore f).migSrc = s.migSrc := rfl
@[simp] theorem State.modMyCore_migDone (s : State) (f : Core → Core) : (s.modMyCore f).migDone = s.migDone := rfl
@[simp] theorem State.modMyCore_migBusy (s : State) (f : Core → Core) : (s.modMyCore f).migBusy = s.migBusy := rfl
@[simp] theorem State.modMyCore_migFree (s : State) (f : Core → Core) : (s.modMyCore f).migFree = s.migFree := rfl
@[simp] theorem State.modMyCore_marks (s : State) (f : Core → Core) : (s.modMyCore f).marks = s.marks := rfl
@[simp] theorem State.modMyCore_cut (s : State) (f : Core → Core) : (s.modMyCore f).cut = s.cut := rfl
@[simp] theorem State.modMyCore_fabric (s : State) (f : Core → Core) : (s.modMyCore f).fabric = s.fabric := rfl
@[simp] theorem State.modMyCore_bar (s : State) (f : Core → Core) : (s.modMyCore f).bar = s.bar := rfl
@[simp] theorem State.modMyCore_trust (s : State) (f : Core → Core) : (s.modMyCore f).trust = s.trust := rfl
@[simp] theorem State.modMyCore_jobs (s : State) (f : Core → Core) : (s.modMyCore f).jobs = s.jobs := rfl
@[simp] theorem State.modMyCore_msix (s : State) (f : Core → Core) : (s.modMyCore f).msix = s.msix := rfl
@[simp] theorem State.modMyCore_throttled (s : State) (f : Core → Core) : (s.modMyCore f).throttled = s.throttled := rfl
@[simp] theorem State.modMyCore_skipped (s : State) (f : Core → Core) : (s.modMyCore f).skipped = s.skipped := rfl
@[simp] theorem State.modMyCore_unapplied (s : State) (f : Core → Core) : (s.modMyCore f).unapplied = s.unapplied := rfl
@[simp] theorem State.modMyCore_service (s : State) (f : Core → Core) : (s.modMyCore f).service = s.service := rfl

/-! ### State.modDie -/

@[simp] theorem State.modDie_cur (s : State) (d : Nat) (f : Die → Die) : (s.modDie d f).cur = s.cur := rfl
@[simp] theorem State.modDie_sel (s : State) (d : Nat) (f : Die → Die) : (s.modDie d f).sel = s.sel := rfl
@[simp] theorem State.modDie_rest (s : State) (d : Nat) (f : Die → Die) : (s.modDie d f).rest = s.rest := rfl
@[simp] theorem State.modDie_turn (s : State) (d : Nat) (f : Die → Die) : (s.modDie d f).turn = s.turn := rfl
@[simp] theorem State.modDie_cycle (s : State) (d : Nat) (f : Die → Die) : (s.modDie d f).cycle = s.cycle := rfl
@[simp] theorem State.modDie_pending (s : State) (d : Nat) (f : Die → Die) : (s.modDie d f).pending = s.pending := rfl
@[simp] theorem State.modDie_freeCtr (s : State) (d : Nat) (f : Die → Die) : (s.modDie d f).freeCtr = s.freeCtr := rfl
@[simp] theorem State.modDie_serial (s : State) (d : Nat) (f : Die → Die) : (s.modDie d f).serial = s.serial := rfl
@[simp] theorem State.modDie_oob (s : State) (d : Nat) (f : Die → Die) : (s.modDie d f).oob = s.oob := rfl
@[simp] theorem State.modDie_words (s : State) (d : Nat) (f : Die → Die) : (s.modDie d f).words = s.words := rfl
@[simp] theorem State.modDie_cores (s : State) (d : Nat) (f : Die → Die) : (s.modDie d f).cores = s.cores := rfl
@[simp] theorem State.modDie_mem (s : State) (d : Nat) (f : Die → Die) : (s.modDie d f).mem = s.mem := rfl
@[simp] theorem State.modDie_host (s : State) (d : Nat) (f : Die → Die) : (s.modDie d f).host = s.host := rfl
@[simp] theorem State.modDie_memErrors (s : State) (d : Nat) (f : Die → Die) : (s.modDie d f).memErrors = s.memErrors := rfl
@[simp] theorem State.modDie_syncEmpty (s : State) (d : Nat) (f : Die → Die) : (s.modDie d f).syncEmpty = s.syncEmpty := rfl
@[simp] theorem State.modDie_reqs (s : State) (d : Nat) (f : Die → Die) : (s.modDie d f).reqs = s.reqs := rfl
@[simp] theorem State.modDie_faults (s : State) (d : Nat) (f : Die → Die) : (s.modDie d f).faults = s.faults := rfl
@[simp] theorem State.modDie_dropped (s : State) (d : Nat) (f : Die → Die) : (s.modDie d f).dropped = s.dropped := rfl
@[simp] theorem State.modDie_dropCount (s : State) (d : Nat) (f : Die → Die) : (s.modDie d f).dropCount = s.dropCount := rfl
@[simp] theorem State.modDie_faultHost (s : State) (d : Nat) (f : Die → Die) : (s.modDie d f).faultHost = s.faultHost := rfl
@[simp] theorem State.modDie_migDst (s : State) (d : Nat) (f : Die → Die) : (s.modDie d f).migDst = s.migDst := rfl
@[simp] theorem State.modDie_migSrc (s : State) (d : Nat) (f : Die → Die) : (s.modDie d f).migSrc = s.migSrc := rfl
@[simp] theorem State.modDie_migDone (s : State) (d : Nat) (f : Die → Die) : (s.modDie d f).migDone = s.migDone := rfl
@[simp] theorem State.modDie_migBusy (s : State) (d : Nat) (f : Die → Die) : (s.modDie d f).migBusy = s.migBusy := rfl
@[simp] theorem State.modDie_migFree (s : State) (d : Nat) (f : Die → Die) : (s.modDie d f).migFree = s.migFree := rfl
@[simp] theorem State.modDie_marks (s : State) (d : Nat) (f : Die → Die) : (s.modDie d f).marks = s.marks := rfl
@[simp] theorem State.modDie_cut (s : State) (d : Nat) (f : Die → Die) : (s.modDie d f).cut = s.cut := rfl
@[simp] theorem State.modDie_fabric (s : State) (d : Nat) (f : Die → Die) : (s.modDie d f).fabric = s.fabric := rfl
@[simp] theorem State.modDie_bar (s : State) (d : Nat) (f : Die → Die) : (s.modDie d f).bar = s.bar := rfl
@[simp] theorem State.modDie_trust (s : State) (d : Nat) (f : Die → Die) : (s.modDie d f).trust = s.trust := rfl
@[simp] theorem State.modDie_jobs (s : State) (d : Nat) (f : Die → Die) : (s.modDie d f).jobs = s.jobs := rfl
@[simp] theorem State.modDie_msix (s : State) (d : Nat) (f : Die → Die) : (s.modDie d f).msix = s.msix := rfl
@[simp] theorem State.modDie_throttled (s : State) (d : Nat) (f : Die → Die) : (s.modDie d f).throttled = s.throttled := rfl
@[simp] theorem State.modDie_skipped (s : State) (d : Nat) (f : Die → Die) : (s.modDie d f).skipped = s.skipped := rfl
@[simp] theorem State.modDie_unapplied (s : State) (d : Nat) (f : Die → Die) : (s.modDie d f).unapplied = s.unapplied := rfl
@[simp] theorem State.modDie_service (s : State) (d : Nat) (f : Die → Die) : (s.modDie d f).service = s.service := rfl

/-! ### State.modJob -/

@[simp] theorem State.modJob_cur (s : State) (pid : Nat) (f : Job → Job) : (s.modJob pid f).cur = s.cur := rfl
@[simp] theorem State.modJob_sel (s : State) (pid : Nat) (f : Job → Job) : (s.modJob pid f).sel = s.sel := rfl
@[simp] theorem State.modJob_rest (s : State) (pid : Nat) (f : Job → Job) : (s.modJob pid f).rest = s.rest := rfl
@[simp] theorem State.modJob_turn (s : State) (pid : Nat) (f : Job → Job) : (s.modJob pid f).turn = s.turn := rfl
@[simp] theorem State.modJob_cycle (s : State) (pid : Nat) (f : Job → Job) : (s.modJob pid f).cycle = s.cycle := rfl
@[simp] theorem State.modJob_pending (s : State) (pid : Nat) (f : Job → Job) : (s.modJob pid f).pending = s.pending := rfl
@[simp] theorem State.modJob_freeCtr (s : State) (pid : Nat) (f : Job → Job) : (s.modJob pid f).freeCtr = s.freeCtr := rfl
@[simp] theorem State.modJob_serial (s : State) (pid : Nat) (f : Job → Job) : (s.modJob pid f).serial = s.serial := rfl
@[simp] theorem State.modJob_oob (s : State) (pid : Nat) (f : Job → Job) : (s.modJob pid f).oob = s.oob := rfl
@[simp] theorem State.modJob_words (s : State) (pid : Nat) (f : Job → Job) : (s.modJob pid f).words = s.words := rfl
@[simp] theorem State.modJob_cores (s : State) (pid : Nat) (f : Job → Job) : (s.modJob pid f).cores = s.cores := rfl
@[simp] theorem State.modJob_dies (s : State) (pid : Nat) (f : Job → Job) : (s.modJob pid f).dies = s.dies := rfl
@[simp] theorem State.modJob_mem (s : State) (pid : Nat) (f : Job → Job) : (s.modJob pid f).mem = s.mem := rfl
@[simp] theorem State.modJob_host (s : State) (pid : Nat) (f : Job → Job) : (s.modJob pid f).host = s.host := rfl
@[simp] theorem State.modJob_memErrors (s : State) (pid : Nat) (f : Job → Job) : (s.modJob pid f).memErrors = s.memErrors := rfl
@[simp] theorem State.modJob_syncEmpty (s : State) (pid : Nat) (f : Job → Job) : (s.modJob pid f).syncEmpty = s.syncEmpty := rfl
@[simp] theorem State.modJob_reqs (s : State) (pid : Nat) (f : Job → Job) : (s.modJob pid f).reqs = s.reqs := rfl
@[simp] theorem State.modJob_faults (s : State) (pid : Nat) (f : Job → Job) : (s.modJob pid f).faults = s.faults := rfl
@[simp] theorem State.modJob_dropped (s : State) (pid : Nat) (f : Job → Job) : (s.modJob pid f).dropped = s.dropped := rfl
@[simp] theorem State.modJob_dropCount (s : State) (pid : Nat) (f : Job → Job) : (s.modJob pid f).dropCount = s.dropCount := rfl
@[simp] theorem State.modJob_faultHost (s : State) (pid : Nat) (f : Job → Job) : (s.modJob pid f).faultHost = s.faultHost := rfl
@[simp] theorem State.modJob_migDst (s : State) (pid : Nat) (f : Job → Job) : (s.modJob pid f).migDst = s.migDst := rfl
@[simp] theorem State.modJob_migSrc (s : State) (pid : Nat) (f : Job → Job) : (s.modJob pid f).migSrc = s.migSrc := rfl
@[simp] theorem State.modJob_migDone (s : State) (pid : Nat) (f : Job → Job) : (s.modJob pid f).migDone = s.migDone := rfl
@[simp] theorem State.modJob_migBusy (s : State) (pid : Nat) (f : Job → Job) : (s.modJob pid f).migBusy = s.migBusy := rfl
@[simp] theorem State.modJob_migFree (s : State) (pid : Nat) (f : Job → Job) : (s.modJob pid f).migFree = s.migFree := rfl
@[simp] theorem State.modJob_marks (s : State) (pid : Nat) (f : Job → Job) : (s.modJob pid f).marks = s.marks := rfl
@[simp] theorem State.modJob_cut (s : State) (pid : Nat) (f : Job → Job) : (s.modJob pid f).cut = s.cut := rfl
@[simp] theorem State.modJob_fabric (s : State) (pid : Nat) (f : Job → Job) : (s.modJob pid f).fabric = s.fabric := rfl
@[simp] theorem State.modJob_bar (s : State) (pid : Nat) (f : Job → Job) : (s.modJob pid f).bar = s.bar := rfl
@[simp] theorem State.modJob_trust (s : State) (pid : Nat) (f : Job → Job) : (s.modJob pid f).trust = s.trust := rfl
@[simp] theorem State.modJob_msix (s : State) (pid : Nat) (f : Job → Job) : (s.modJob pid f).msix = s.msix := rfl
@[simp] theorem State.modJob_throttled (s : State) (pid : Nat) (f : Job → Job) : (s.modJob pid f).throttled = s.throttled := rfl
@[simp] theorem State.modJob_skipped (s : State) (pid : Nat) (f : Job → Job) : (s.modJob pid f).skipped = s.skipped := rfl
@[simp] theorem State.modJob_unapplied (s : State) (pid : Nat) (f : Job → Job) : (s.modJob pid f).unapplied = s.unapplied := rfl
@[simp] theorem State.modJob_service (s : State) (pid : Nat) (f : Job → Job) : (s.modJob pid f).service = s.service := rfl

/-! ### State.post -/

@[simp] theorem State.post_cur (s : State) (n : Nat) (e : Instr) : (s.post n e).cur = s.cur := rfl
@[simp] theorem State.post_sel (s : State) (n : Nat) (e : Instr) : (s.post n e).sel = s.sel := rfl
@[simp] theorem State.post_rest (s : State) (n : Nat) (e : Instr) : (s.post n e).rest = s.rest := rfl
@[simp] theorem State.post_turn (s : State) (n : Nat) (e : Instr) : (s.post n e).turn = s.turn := rfl
@[simp] theorem State.post_cycle (s : State) (n : Nat) (e : Instr) : (s.post n e).cycle = s.cycle := rfl
@[simp] theorem State.post_freeCtr (s : State) (n : Nat) (e : Instr) : (s.post n e).freeCtr = s.freeCtr := rfl
@[simp] theorem State.post_serial (s : State) (n : Nat) (e : Instr) : (s.post n e).serial = s.serial := rfl
@[simp] theorem State.post_oob (s : State) (n : Nat) (e : Instr) : (s.post n e).oob = s.oob := rfl
@[simp] theorem State.post_words (s : State) (n : Nat) (e : Instr) : (s.post n e).words = s.words := rfl
@[simp] theorem State.post_cores (s : State) (n : Nat) (e : Instr) : (s.post n e).cores = s.cores := rfl
@[simp] theorem State.post_dies (s : State) (n : Nat) (e : Instr) : (s.post n e).dies = s.dies := rfl
@[simp] theorem State.post_mem (s : State) (n : Nat) (e : Instr) : (s.post n e).mem = s.mem := rfl
@[simp] theorem State.post_host (s : State) (n : Nat) (e : Instr) : (s.post n e).host = s.host := rfl
@[simp] theorem State.post_memErrors (s : State) (n : Nat) (e : Instr) : (s.post n e).memErrors = s.memErrors := rfl
@[simp] theorem State.post_syncEmpty (s : State) (n : Nat) (e : Instr) : (s.post n e).syncEmpty = s.syncEmpty := rfl
@[simp] theorem State.post_reqs (s : State) (n : Nat) (e : Instr) : (s.post n e).reqs = s.reqs := rfl
@[simp] theorem State.post_faults (s : State) (n : Nat) (e : Instr) : (s.post n e).faults = s.faults := rfl
@[simp] theorem State.post_dropped (s : State) (n : Nat) (e : Instr) : (s.post n e).dropped = s.dropped := rfl
@[simp] theorem State.post_dropCount (s : State) (n : Nat) (e : Instr) : (s.post n e).dropCount = s.dropCount := rfl
@[simp] theorem State.post_faultHost (s : State) (n : Nat) (e : Instr) : (s.post n e).faultHost = s.faultHost := rfl
@[simp] theorem State.post_migDst (s : State) (n : Nat) (e : Instr) : (s.post n e).migDst = s.migDst := rfl
@[simp] theorem State.post_migSrc (s : State) (n : Nat) (e : Instr) : (s.post n e).migSrc = s.migSrc := rfl
@[simp] theorem State.post_migDone (s : State) (n : Nat) (e : Instr) : (s.post n e).migDone = s.migDone := rfl
@[simp] theorem State.post_migBusy (s : State) (n : Nat) (e : Instr) : (s.post n e).migBusy = s.migBusy := rfl
@[simp] theorem State.post_migFree (s : State) (n : Nat) (e : Instr) : (s.post n e).migFree = s.migFree := rfl
@[simp] theorem State.post_marks (s : State) (n : Nat) (e : Instr) : (s.post n e).marks = s.marks := rfl
@[simp] theorem State.post_cut (s : State) (n : Nat) (e : Instr) : (s.post n e).cut = s.cut := rfl
@[simp] theorem State.post_fabric (s : State) (n : Nat) (e : Instr) : (s.post n e).fabric = s.fabric := rfl
@[simp] theorem State.post_bar (s : State) (n : Nat) (e : Instr) : (s.post n e).bar = s.bar := rfl
@[simp] theorem State.post_trust (s : State) (n : Nat) (e : Instr) : (s.post n e).trust = s.trust := rfl
@[simp] theorem State.post_jobs (s : State) (n : Nat) (e : Instr) : (s.post n e).jobs = s.jobs := rfl
@[simp] theorem State.post_msix (s : State) (n : Nat) (e : Instr) : (s.post n e).msix = s.msix := rfl
@[simp] theorem State.post_throttled (s : State) (n : Nat) (e : Instr) : (s.post n e).throttled = s.throttled := rfl
@[simp] theorem State.post_skipped (s : State) (n : Nat) (e : Instr) : (s.post n e).skipped = s.skipped := rfl
@[simp] theorem State.post_unapplied (s : State) (n : Nat) (e : Instr) : (s.post n e).unapplied = s.unapplied := rfl
@[simp] theorem State.post_service (s : State) (n : Nat) (e : Instr) : (s.post n e).service = s.service := rfl

/-! ### State.postNow -/

@[simp] theorem State.postNow_cur (s : State) (e : Instr) : (s.postNow e).cur = s.cur := rfl
@[simp] theorem State.postNow_sel (s : State) (e : Instr) : (s.postNow e).sel = s.sel := rfl
@[simp] theorem State.postNow_rest (s : State) (e : Instr) : (s.postNow e).rest = s.rest := rfl
@[simp] theorem State.postNow_turn (s : State) (e : Instr) : (s.postNow e).turn = s.turn := rfl
@[simp] theorem State.postNow_cycle (s : State) (e : Instr) : (s.postNow e).cycle = s.cycle := rfl
@[simp] theorem State.postNow_freeCtr (s : State) (e : Instr) : (s.postNow e).freeCtr = s.freeCtr := rfl
@[simp] theorem State.postNow_serial (s : State) (e : Instr) : (s.postNow e).serial = s.serial := rfl
@[simp] theorem State.postNow_oob (s : State) (e : Instr) : (s.postNow e).oob = s.oob := rfl
@[simp] theorem State.postNow_words (s : State) (e : Instr) : (s.postNow e).words = s.words := rfl
@[simp] theorem State.postNow_cores (s : State) (e : Instr) : (s.postNow e).cores = s.cores := rfl
@[simp] theorem State.postNow_dies (s : State) (e : Instr) : (s.postNow e).dies = s.dies := rfl
@[simp] theorem State.postNow_mem (s : State) (e : Instr) : (s.postNow e).mem = s.mem := rfl
@[simp] theorem State.postNow_host (s : State) (e : Instr) : (s.postNow e).host = s.host := rfl
@[simp] theorem State.postNow_memErrors (s : State) (e : Instr) : (s.postNow e).memErrors = s.memErrors := rfl
@[simp] theorem State.postNow_syncEmpty (s : State) (e : Instr) : (s.postNow e).syncEmpty = s.syncEmpty := rfl
@[simp] theorem State.postNow_reqs (s : State) (e : Instr) : (s.postNow e).reqs = s.reqs := rfl
@[simp] theorem State.postNow_faults (s : State) (e : Instr) : (s.postNow e).faults = s.faults := rfl
@[simp] theorem State.postNow_dropped (s : State) (e : Instr) : (s.postNow e).dropped = s.dropped := rfl
@[simp] theorem State.postNow_dropCount (s : State) (e : Instr) : (s.postNow e).dropCount = s.dropCount := rfl
@[simp] theorem State.postNow_faultHost (s : State) (e : Instr) : (s.postNow e).faultHost = s.faultHost := rfl
@[simp] theorem State.postNow_migDst (s : State) (e : Instr) : (s.postNow e).migDst = s.migDst := rfl
@[simp] theorem State.postNow_migSrc (s : State) (e : Instr) : (s.postNow e).migSrc = s.migSrc := rfl
@[simp] theorem State.postNow_migDone (s : State) (e : Instr) : (s.postNow e).migDone = s.migDone := rfl
@[simp] theorem State.postNow_migBusy (s : State) (e : Instr) : (s.postNow e).migBusy = s.migBusy := rfl
@[simp] theorem State.postNow_migFree (s : State) (e : Instr) : (s.postNow e).migFree = s.migFree := rfl
@[simp] theorem State.postNow_marks (s : State) (e : Instr) : (s.postNow e).marks = s.marks := rfl
@[simp] theorem State.postNow_cut (s : State) (e : Instr) : (s.postNow e).cut = s.cut := rfl
@[simp] theorem State.postNow_fabric (s : State) (e : Instr) : (s.postNow e).fabric = s.fabric := rfl
@[simp] theorem State.postNow_bar (s : State) (e : Instr) : (s.postNow e).bar = s.bar := rfl
@[simp] theorem State.postNow_trust (s : State) (e : Instr) : (s.postNow e).trust = s.trust := rfl
@[simp] theorem State.postNow_jobs (s : State) (e : Instr) : (s.postNow e).jobs = s.jobs := rfl
@[simp] theorem State.postNow_msix (s : State) (e : Instr) : (s.postNow e).msix = s.msix := rfl
@[simp] theorem State.postNow_throttled (s : State) (e : Instr) : (s.postNow e).throttled = s.throttled := rfl
@[simp] theorem State.postNow_skipped (s : State) (e : Instr) : (s.postNow e).skipped = s.skipped := rfl
@[simp] theorem State.postNow_unapplied (s : State) (e : Instr) : (s.postNow e).unapplied = s.unapplied := rfl
@[simp] theorem State.postNow_service (s : State) (e : Instr) : (s.postNow e).service = s.service := rfl

/-! ### State.stay -/

@[simp] theorem State.stay_cur (s : State) (w : Wait) : (State.stay w s).cur = s.cur := rfl
@[simp] theorem State.stay_turn (s : State) (w : Wait) : (State.stay w s).turn = s.turn := rfl
@[simp] theorem State.stay_cycle (s : State) (w : Wait) : (State.stay w s).cycle = s.cycle := rfl
@[simp] theorem State.stay_pending (s : State) (w : Wait) : (State.stay w s).pending = s.pending := rfl
@[simp] theorem State.stay_freeCtr (s : State) (w : Wait) : (State.stay w s).freeCtr = s.freeCtr := rfl
@[simp] theorem State.stay_serial (s : State) (w : Wait) : (State.stay w s).serial = s.serial := rfl
@[simp] theorem State.stay_oob (s : State) (w : Wait) : (State.stay w s).oob = s.oob := rfl
@[simp] theorem State.stay_words (s : State) (w : Wait) : (State.stay w s).words = s.words := rfl
@[simp] theorem State.stay_dies (s : State) (w : Wait) : (State.stay w s).dies = s.dies := rfl
@[simp] theorem State.stay_mem (s : State) (w : Wait) : (State.stay w s).mem = s.mem := rfl
@[simp] theorem State.stay_host (s : State) (w : Wait) : (State.stay w s).host = s.host := rfl
@[simp] theorem State.stay_memErrors (s : State) (w : Wait) : (State.stay w s).memErrors = s.memErrors := rfl
@[simp] theorem State.stay_syncEmpty (s : State) (w : Wait) : (State.stay w s).syncEmpty = s.syncEmpty := rfl
@[simp] theorem State.stay_reqs (s : State) (w : Wait) : (State.stay w s).reqs = s.reqs := rfl
@[simp] theorem State.stay_faults (s : State) (w : Wait) : (State.stay w s).faults = s.faults := rfl
@[simp] theorem State.stay_dropped (s : State) (w : Wait) : (State.stay w s).dropped = s.dropped := rfl
@[simp] theorem State.stay_dropCount (s : State) (w : Wait) : (State.stay w s).dropCount = s.dropCount := rfl
@[simp] theorem State.stay_faultHost (s : State) (w : Wait) : (State.stay w s).faultHost = s.faultHost := rfl
@[simp] theorem State.stay_migDst (s : State) (w : Wait) : (State.stay w s).migDst = s.migDst := rfl
@[simp] theorem State.stay_migSrc (s : State) (w : Wait) : (State.stay w s).migSrc = s.migSrc := rfl
@[simp] theorem State.stay_migDone (s : State) (w : Wait) : (State.stay w s).migDone = s.migDone := rfl
@[simp] theorem State.stay_migBusy (s : State) (w : Wait) : (State.stay w s).migBusy = s.migBusy := rfl
@[simp] theorem State.stay_migFree (s : State) (w : Wait) : (State.stay w s).migFree = s.migFree := rfl
@[simp] theorem State.stay_marks (s : State) (w : Wait) : (State.stay w s).marks = s.marks := rfl
@[simp] theorem State.stay_cut (s : State) (w : Wait) : (State.stay w s).cut = s.cut := rfl
@[simp] theorem State.stay_fabric (s : State) (w : Wait) : (State.stay w s).fabric = s.fabric := rfl
@[simp] theorem State.stay_bar (s : State) (w : Wait) : (State.stay w s).bar = s.bar := rfl
@[simp] theorem State.stay_trust (s : State) (w : Wait) : (State.stay w s).trust = s.trust := rfl
@[simp] theorem State.stay_jobs (s : State) (w : Wait) : (State.stay w s).jobs = s.jobs := rfl
@[simp] theorem State.stay_msix (s : State) (w : Wait) : (State.stay w s).msix = s.msix := rfl
@[simp] theorem State.stay_throttled (s : State) (w : Wait) : (State.stay w s).throttled = s.throttled := rfl
@[simp] theorem State.stay_skipped (s : State) (w : Wait) : (State.stay w s).skipped = s.skipped := rfl
@[simp] theorem State.stay_unapplied (s : State) (w : Wait) : (State.stay w s).unapplied = s.unapplied := rfl
@[simp] theorem State.stay_service (s : State) (w : Wait) : (State.stay w s).service = s.service := rfl

/-! ### State.withdraw -/

@[simp] theorem State.withdraw_cur (s : State) (p : Instr → Bool) : (s.withdraw p).cur = s.cur := rfl
@[simp] theorem State.withdraw_sel (s : State) (p : Instr → Bool) : (s.withdraw p).sel = s.sel := rfl
@[simp] theorem State.withdraw_rest (s : State) (p : Instr → Bool) : (s.withdraw p).rest = s.rest := rfl
@[simp] theorem State.withdraw_turn (s : State) (p : Instr → Bool) : (s.withdraw p).turn = s.turn := rfl
@[simp] theorem State.withdraw_cycle (s : State) (p : Instr → Bool) : (s.withdraw p).cycle = s.cycle := rfl
@[simp] theorem State.withdraw_freeCtr (s : State) (p : Instr → Bool) : (s.withdraw p).freeCtr = s.freeCtr := rfl
@[simp] theorem State.withdraw_serial (s : State) (p : Instr → Bool) : (s.withdraw p).serial = s.serial := rfl
@[simp] theorem State.withdraw_oob (s : State) (p : Instr → Bool) : (s.withdraw p).oob = s.oob := rfl
@[simp] theorem State.withdraw_words (s : State) (p : Instr → Bool) : (s.withdraw p).words = s.words := rfl
@[simp] theorem State.withdraw_cores (s : State) (p : Instr → Bool) : (s.withdraw p).cores = s.cores := rfl
@[simp] theorem State.withdraw_dies (s : State) (p : Instr → Bool) : (s.withdraw p).dies = s.dies := rfl
@[simp] theorem State.withdraw_mem (s : State) (p : Instr → Bool) : (s.withdraw p).mem = s.mem := rfl
@[simp] theorem State.withdraw_host (s : State) (p : Instr → Bool) : (s.withdraw p).host = s.host := rfl
@[simp] theorem State.withdraw_memErrors (s : State) (p : Instr → Bool) : (s.withdraw p).memErrors = s.memErrors := rfl
@[simp] theorem State.withdraw_syncEmpty (s : State) (p : Instr → Bool) : (s.withdraw p).syncEmpty = s.syncEmpty := rfl
@[simp] theorem State.withdraw_reqs (s : State) (p : Instr → Bool) : (s.withdraw p).reqs = s.reqs := rfl
@[simp] theorem State.withdraw_faults (s : State) (p : Instr → Bool) : (s.withdraw p).faults = s.faults := rfl
@[simp] theorem State.withdraw_dropped (s : State) (p : Instr → Bool) : (s.withdraw p).dropped = s.dropped := rfl
@[simp] theorem State.withdraw_dropCount (s : State) (p : Instr → Bool) : (s.withdraw p).dropCount = s.dropCount := rfl
@[simp] theorem State.withdraw_faultHost (s : State) (p : Instr → Bool) : (s.withdraw p).faultHost = s.faultHost := rfl
@[simp] theorem State.withdraw_migDst (s : State) (p : Instr → Bool) : (s.withdraw p).migDst = s.migDst := rfl
@[simp] theorem State.withdraw_migSrc (s : State) (p : Instr → Bool) : (s.withdraw p).migSrc = s.migSrc := rfl
@[simp] theorem State.withdraw_migDone (s : State) (p : Instr → Bool) : (s.withdraw p).migDone = s.migDone := rfl
@[simp] theorem State.withdraw_migBusy (s : State) (p : Instr → Bool) : (s.withdraw p).migBusy = s.migBusy := rfl
@[simp] theorem State.withdraw_migFree (s : State) (p : Instr → Bool) : (s.withdraw p).migFree = s.migFree := rfl
@[simp] theorem State.withdraw_marks (s : State) (p : Instr → Bool) : (s.withdraw p).marks = s.marks := rfl
@[simp] theorem State.withdraw_cut (s : State) (p : Instr → Bool) : (s.withdraw p).cut = s.cut := rfl
@[simp] theorem State.withdraw_fabric (s : State) (p : Instr → Bool) : (s.withdraw p).fabric = s.fabric := rfl
@[simp] theorem State.withdraw_bar (s : State) (p : Instr → Bool) : (s.withdraw p).bar = s.bar := rfl
@[simp] theorem State.withdraw_trust (s : State) (p : Instr → Bool) : (s.withdraw p).trust = s.trust := rfl
@[simp] theorem State.withdraw_jobs (s : State) (p : Instr → Bool) : (s.withdraw p).jobs = s.jobs := rfl
@[simp] theorem State.withdraw_msix (s : State) (p : Instr → Bool) : (s.withdraw p).msix = s.msix := rfl
@[simp] theorem State.withdraw_throttled (s : State) (p : Instr → Bool) : (s.withdraw p).throttled = s.throttled := rfl
@[simp] theorem State.withdraw_skipped (s : State) (p : Instr → Bool) : (s.withdraw p).skipped = s.skipped := rfl
@[simp] theorem State.withdraw_unapplied (s : State) (p : Instr → Bool) : (s.withdraw p).unapplied = s.unapplied := rfl
@[simp] theorem State.withdraw_service (s : State) (p : Instr → Bool) : (s.withdraw p).service = s.service := rfl

/-! ### State.postFree -/

@[simp] theorem State.postFree_cur (s : State) (n : Nat) (e : Instr) : (s.postFree n e).cur = s.cur := rfl
@[simp] theorem State.postFree_sel (s : State) (n : Nat) (e : Instr) : (s.postFree n e).sel = s.sel := rfl
@[simp] theorem State.postFree_rest (s : State) (n : Nat) (e : Instr) : (s.postFree n e).rest = s.rest := rfl
@[simp] theorem State.postFree_turn (s : State) (n : Nat) (e : Instr) : (s.postFree n e).turn = s.turn := rfl
@[simp] theorem State.postFree_cycle (s : State) (n : Nat) (e : Instr) : (s.postFree n e).cycle = s.cycle := rfl
@[simp] theorem State.postFree_serial (s : State) (n : Nat) (e : Instr) : (s.postFree n e).serial = s.serial := rfl
@[simp] theorem State.postFree_oob (s : State) (n : Nat) (e : Instr) : (s.postFree n e).oob = s.oob := rfl
@[simp] theorem State.postFree_words (s : State) (n : Nat) (e : Instr) : (s.postFree n e).words = s.words := rfl
@[simp] theorem State.postFree_cores (s : State) (n : Nat) (e : Instr) : (s.postFree n e).cores = s.cores := rfl
@[simp] theorem State.postFree_dies (s : State) (n : Nat) (e : Instr) : (s.postFree n e).dies = s.dies := rfl
@[simp] theorem State.postFree_mem (s : State) (n : Nat) (e : Instr) : (s.postFree n e).mem = s.mem := rfl
@[simp] theorem State.postFree_host (s : State) (n : Nat) (e : Instr) : (s.postFree n e).host = s.host := rfl
@[simp] theorem State.postFree_memErrors (s : State) (n : Nat) (e : Instr) : (s.postFree n e).memErrors = s.memErrors := rfl
@[simp] theorem State.postFree_syncEmpty (s : State) (n : Nat) (e : Instr) : (s.postFree n e).syncEmpty = s.syncEmpty := rfl
@[simp] theorem State.postFree_reqs (s : State) (n : Nat) (e : Instr) : (s.postFree n e).reqs = s.reqs := rfl
@[simp] theorem State.postFree_faults (s : State) (n : Nat) (e : Instr) : (s.postFree n e).faults = s.faults := rfl
@[simp] theorem State.postFree_dropped (s : State) (n : Nat) (e : Instr) : (s.postFree n e).dropped = s.dropped := rfl
@[simp] theorem State.postFree_dropCount (s : State) (n : Nat) (e : Instr) : (s.postFree n e).dropCount = s.dropCount := rfl
@[simp] theorem State.postFree_faultHost (s : State) (n : Nat) (e : Instr) : (s.postFree n e).faultHost = s.faultHost := rfl
@[simp] theorem State.postFree_migDst (s : State) (n : Nat) (e : Instr) : (s.postFree n e).migDst = s.migDst := rfl
@[simp] theorem State.postFree_migSrc (s : State) (n : Nat) (e : Instr) : (s.postFree n e).migSrc = s.migSrc := rfl
@[simp] theorem State.postFree_migDone (s : State) (n : Nat) (e : Instr) : (s.postFree n e).migDone = s.migDone := rfl
@[simp] theorem State.postFree_migBusy (s : State) (n : Nat) (e : Instr) : (s.postFree n e).migBusy = s.migBusy := rfl
@[simp] theorem State.postFree_migFree (s : State) (n : Nat) (e : Instr) : (s.postFree n e).migFree = s.migFree := rfl
@[simp] theorem State.postFree_marks (s : State) (n : Nat) (e : Instr) : (s.postFree n e).marks = s.marks := rfl
@[simp] theorem State.postFree_cut (s : State) (n : Nat) (e : Instr) : (s.postFree n e).cut = s.cut := rfl
@[simp] theorem State.postFree_fabric (s : State) (n : Nat) (e : Instr) : (s.postFree n e).fabric = s.fabric := rfl
@[simp] theorem State.postFree_bar (s : State) (n : Nat) (e : Instr) : (s.postFree n e).bar = s.bar := rfl
@[simp] theorem State.postFree_trust (s : State) (n : Nat) (e : Instr) : (s.postFree n e).trust = s.trust := rfl
@[simp] theorem State.postFree_jobs (s : State) (n : Nat) (e : Instr) : (s.postFree n e).jobs = s.jobs := rfl
@[simp] theorem State.postFree_msix (s : State) (n : Nat) (e : Instr) : (s.postFree n e).msix = s.msix := rfl
@[simp] theorem State.postFree_throttled (s : State) (n : Nat) (e : Instr) : (s.postFree n e).throttled = s.throttled := rfl
@[simp] theorem State.postFree_skipped (s : State) (n : Nat) (e : Instr) : (s.postFree n e).skipped = s.skipped := rfl
@[simp] theorem State.postFree_unapplied (s : State) (n : Nat) (e : Instr) : (s.postFree n e).unapplied = s.unapplied := rfl
@[simp] theorem State.postFree_service (s : State) (n : Nat) (e : Instr) : (s.postFree n e).service = s.service := rfl

/-! ### State.mail -/

@[simp] theorem State.mail_cur (s : State) (d : Nat) (m : MboxMsg) : (s.mail d m).cur = s.cur := rfl
@[simp] theorem State.mail_sel (s : State) (d : Nat) (m : MboxMsg) : (s.mail d m).sel = s.sel := rfl
@[simp] theorem State.mail_rest (s : State) (d : Nat) (m : MboxMsg) : (s.mail d m).rest = s.rest := rfl
@[simp] theorem State.mail_turn (s : State) (d : Nat) (m : MboxMsg) : (s.mail d m).turn = s.turn := rfl
@[simp] theorem State.mail_cycle (s : State) (d : Nat) (m : MboxMsg) : (s.mail d m).cycle = s.cycle := rfl
@[simp] theorem State.mail_freeCtr (s : State) (d : Nat) (m : MboxMsg) : (s.mail d m).freeCtr = s.freeCtr := rfl
@[simp] theorem State.mail_serial (s : State) (d : Nat) (m : MboxMsg) : (s.mail d m).serial = s.serial := rfl
@[simp] theorem State.mail_oob (s : State) (d : Nat) (m : MboxMsg) : (s.mail d m).oob = s.oob := rfl
@[simp] theorem State.mail_words (s : State) (d : Nat) (m : MboxMsg) : (s.mail d m).words = s.words := rfl
@[simp] theorem State.mail_cores (s : State) (d : Nat) (m : MboxMsg) : (s.mail d m).cores = s.cores := rfl
@[simp] theorem State.mail_dies (s : State) (d : Nat) (m : MboxMsg) : (s.mail d m).dies = s.dies := rfl
@[simp] theorem State.mail_mem (s : State) (d : Nat) (m : MboxMsg) : (s.mail d m).mem = s.mem := rfl
@[simp] theorem State.mail_host (s : State) (d : Nat) (m : MboxMsg) : (s.mail d m).host = s.host := rfl
@[simp] theorem State.mail_memErrors (s : State) (d : Nat) (m : MboxMsg) : (s.mail d m).memErrors = s.memErrors := rfl
@[simp] theorem State.mail_syncEmpty (s : State) (d : Nat) (m : MboxMsg) : (s.mail d m).syncEmpty = s.syncEmpty := rfl
@[simp] theorem State.mail_reqs (s : State) (d : Nat) (m : MboxMsg) : (s.mail d m).reqs = s.reqs := rfl
@[simp] theorem State.mail_faults (s : State) (d : Nat) (m : MboxMsg) : (s.mail d m).faults = s.faults := rfl
@[simp] theorem State.mail_dropped (s : State) (d : Nat) (m : MboxMsg) : (s.mail d m).dropped = s.dropped := rfl
@[simp] theorem State.mail_dropCount (s : State) (d : Nat) (m : MboxMsg) : (s.mail d m).dropCount = s.dropCount := rfl
@[simp] theorem State.mail_faultHost (s : State) (d : Nat) (m : MboxMsg) : (s.mail d m).faultHost = s.faultHost := rfl
@[simp] theorem State.mail_migDst (s : State) (d : Nat) (m : MboxMsg) : (s.mail d m).migDst = s.migDst := rfl
@[simp] theorem State.mail_migSrc (s : State) (d : Nat) (m : MboxMsg) : (s.mail d m).migSrc = s.migSrc := rfl
@[simp] theorem State.mail_migDone (s : State) (d : Nat) (m : MboxMsg) : (s.mail d m).migDone = s.migDone := rfl
@[simp] theorem State.mail_migBusy (s : State) (d : Nat) (m : MboxMsg) : (s.mail d m).migBusy = s.migBusy := rfl
@[simp] theorem State.mail_migFree (s : State) (d : Nat) (m : MboxMsg) : (s.mail d m).migFree = s.migFree := rfl
@[simp] theorem State.mail_marks (s : State) (d : Nat) (m : MboxMsg) : (s.mail d m).marks = s.marks := rfl
@[simp] theorem State.mail_cut (s : State) (d : Nat) (m : MboxMsg) : (s.mail d m).cut = s.cut := rfl
@[simp] theorem State.mail_fabric (s : State) (d : Nat) (m : MboxMsg) : (s.mail d m).fabric = s.fabric := rfl
@[simp] theorem State.mail_bar (s : State) (d : Nat) (m : MboxMsg) : (s.mail d m).bar = s.bar := rfl
@[simp] theorem State.mail_trust (s : State) (d : Nat) (m : MboxMsg) : (s.mail d m).trust = s.trust := rfl
@[simp] theorem State.mail_jobs (s : State) (d : Nat) (m : MboxMsg) : (s.mail d m).jobs = s.jobs := rfl
@[simp] theorem State.mail_msix (s : State) (d : Nat) (m : MboxMsg) : (s.mail d m).msix = s.msix := rfl
@[simp] theorem State.mail_throttled (s : State) (d : Nat) (m : MboxMsg) : (s.mail d m).throttled = s.throttled := rfl
@[simp] theorem State.mail_skipped (s : State) (d : Nat) (m : MboxMsg) : (s.mail d m).skipped = s.skipped := rfl
@[simp] theorem State.mail_unapplied (s : State) (d : Nat) (m : MboxMsg) : (s.mail d m).unapplied = s.unapplied := rfl
@[simp] theorem State.mail_service (s : State) (d : Nat) (m : MboxMsg) : (s.mail d m).service = s.service := rfl

/-! ### State.lateFault -/

@[simp] theorem State.lateFault_cur (s : State) (sid : SId) (f : LateFault) : (s.lateFault sid f).cur = s.cur := rfl
@[simp] theorem State.lateFault_sel (s : State) (sid : SId) (f : LateFault) : (s.lateFault sid f).sel = s.sel := rfl
@[simp] theorem State.lateFault_rest (s : State) (sid : SId) (f : LateFault) : (s.lateFault sid f).rest = s.rest := rfl
@[simp] theorem State.lateFault_turn (s : State) (sid : SId) (f : LateFault) : (s.lateFault sid f).turn = s.turn := rfl
@[simp] theorem State.lateFault_cycle (s : State) (sid : SId) (f : LateFault) : (s.lateFault sid f).cycle = s.cycle := rfl
@[simp] theorem State.lateFault_pending (s : State) (sid : SId) (f : LateFault) : (s.lateFault sid f).pending = s.pending := rfl
@[simp] theorem State.lateFault_freeCtr (s : State) (sid : SId) (f : LateFault) : (s.lateFault sid f).freeCtr = s.freeCtr := rfl
@[simp] theorem State.lateFault_serial (s : State) (sid : SId) (f : LateFault) : (s.lateFault sid f).serial = s.serial := rfl
@[simp] theorem State.lateFault_oob (s : State) (sid : SId) (f : LateFault) : (s.lateFault sid f).oob = s.oob := rfl
@[simp] theorem State.lateFault_words (s : State) (sid : SId) (f : LateFault) : (s.lateFault sid f).words = s.words := rfl
@[simp] theorem State.lateFault_dies (s : State) (sid : SId) (f : LateFault) : (s.lateFault sid f).dies = s.dies := rfl
@[simp] theorem State.lateFault_mem (s : State) (sid : SId) (f : LateFault) : (s.lateFault sid f).mem = s.mem := rfl
@[simp] theorem State.lateFault_host (s : State) (sid : SId) (f : LateFault) : (s.lateFault sid f).host = s.host := rfl
@[simp] theorem State.lateFault_memErrors (s : State) (sid : SId) (f : LateFault) : (s.lateFault sid f).memErrors = s.memErrors := rfl
@[simp] theorem State.lateFault_syncEmpty (s : State) (sid : SId) (f : LateFault) : (s.lateFault sid f).syncEmpty = s.syncEmpty := rfl
@[simp] theorem State.lateFault_reqs (s : State) (sid : SId) (f : LateFault) : (s.lateFault sid f).reqs = s.reqs := rfl
@[simp] theorem State.lateFault_faults (s : State) (sid : SId) (f : LateFault) : (s.lateFault sid f).faults = s.faults := rfl
@[simp] theorem State.lateFault_dropped (s : State) (sid : SId) (f : LateFault) : (s.lateFault sid f).dropped = s.dropped := rfl
@[simp] theorem State.lateFault_dropCount (s : State) (sid : SId) (f : LateFault) : (s.lateFault sid f).dropCount = s.dropCount := rfl
@[simp] theorem State.lateFault_faultHost (s : State) (sid : SId) (f : LateFault) : (s.lateFault sid f).faultHost = s.faultHost := rfl
@[simp] theorem State.lateFault_migDst (s : State) (sid : SId) (f : LateFault) : (s.lateFault sid f).migDst = s.migDst := rfl
@[simp] theorem State.lateFault_migSrc (s : State) (sid : SId) (f : LateFault) : (s.lateFault sid f).migSrc = s.migSrc := rfl
@[simp] theorem State.lateFault_migDone (s : State) (sid : SId) (f : LateFault) : (s.lateFault sid f).migDone = s.migDone := rfl
@[simp] theorem State.lateFault_migBusy (s : State) (sid : SId) (f : LateFault) : (s.lateFault sid f).migBusy = s.migBusy := rfl
@[simp] theorem State.lateFault_migFree (s : State) (sid : SId) (f : LateFault) : (s.lateFault sid f).migFree = s.migFree := rfl
@[simp] theorem State.lateFault_marks (s : State) (sid : SId) (f : LateFault) : (s.lateFault sid f).marks = s.marks := rfl
@[simp] theorem State.lateFault_cut (s : State) (sid : SId) (f : LateFault) : (s.lateFault sid f).cut = s.cut := rfl
@[simp] theorem State.lateFault_fabric (s : State) (sid : SId) (f : LateFault) : (s.lateFault sid f).fabric = s.fabric := rfl
@[simp] theorem State.lateFault_bar (s : State) (sid : SId) (f : LateFault) : (s.lateFault sid f).bar = s.bar := rfl
@[simp] theorem State.lateFault_trust (s : State) (sid : SId) (f : LateFault) : (s.lateFault sid f).trust = s.trust := rfl
@[simp] theorem State.lateFault_jobs (s : State) (sid : SId) (f : LateFault) : (s.lateFault sid f).jobs = s.jobs := rfl
@[simp] theorem State.lateFault_msix (s : State) (sid : SId) (f : LateFault) : (s.lateFault sid f).msix = s.msix := rfl
@[simp] theorem State.lateFault_throttled (s : State) (sid : SId) (f : LateFault) : (s.lateFault sid f).throttled = s.throttled := rfl
@[simp] theorem State.lateFault_skipped (s : State) (sid : SId) (f : LateFault) : (s.lateFault sid f).skipped = s.skipped := rfl
@[simp] theorem State.lateFault_unapplied (s : State) (sid : SId) (f : LateFault) : (s.lateFault sid f).unapplied = s.unapplied := rfl
@[simp] theorem State.lateFault_service (s : State) (sid : SId) (f : LateFault) : (s.lateFault sid f).service = s.service := rfl

/-! ### State.holdCrew -/

@[simp] theorem State.holdCrew_cur (s : State) (sid : SId) : (s.holdCrew sid).cur = s.cur := rfl
@[simp] theorem State.holdCrew_sel (s : State) (sid : SId) : (s.holdCrew sid).sel = s.sel := rfl
@[simp] theorem State.holdCrew_rest (s : State) (sid : SId) : (s.holdCrew sid).rest = s.rest := rfl
@[simp] theorem State.holdCrew_turn (s : State) (sid : SId) : (s.holdCrew sid).turn = s.turn := rfl
@[simp] theorem State.holdCrew_cycle (s : State) (sid : SId) : (s.holdCrew sid).cycle = s.cycle := rfl
@[simp] theorem State.holdCrew_pending (s : State) (sid : SId) : (s.holdCrew sid).pending = s.pending := rfl
@[simp] theorem State.holdCrew_freeCtr (s : State) (sid : SId) : (s.holdCrew sid).freeCtr = s.freeCtr := rfl
@[simp] theorem State.holdCrew_serial (s : State) (sid : SId) : (s.holdCrew sid).serial = s.serial := rfl
@[simp] theorem State.holdCrew_oob (s : State) (sid : SId) : (s.holdCrew sid).oob = s.oob := rfl
@[simp] theorem State.holdCrew_words (s : State) (sid : SId) : (s.holdCrew sid).words = s.words := rfl
@[simp] theorem State.holdCrew_dies (s : State) (sid : SId) : (s.holdCrew sid).dies = s.dies := rfl
@[simp] theorem State.holdCrew_mem (s : State) (sid : SId) : (s.holdCrew sid).mem = s.mem := rfl
@[simp] theorem State.holdCrew_host (s : State) (sid : SId) : (s.holdCrew sid).host = s.host := rfl
@[simp] theorem State.holdCrew_memErrors (s : State) (sid : SId) : (s.holdCrew sid).memErrors = s.memErrors := rfl
@[simp] theorem State.holdCrew_syncEmpty (s : State) (sid : SId) : (s.holdCrew sid).syncEmpty = s.syncEmpty := rfl
@[simp] theorem State.holdCrew_reqs (s : State) (sid : SId) : (s.holdCrew sid).reqs = s.reqs := rfl
@[simp] theorem State.holdCrew_faults (s : State) (sid : SId) : (s.holdCrew sid).faults = s.faults := rfl
@[simp] theorem State.holdCrew_dropped (s : State) (sid : SId) : (s.holdCrew sid).dropped = s.dropped := rfl
@[simp] theorem State.holdCrew_dropCount (s : State) (sid : SId) : (s.holdCrew sid).dropCount = s.dropCount := rfl
@[simp] theorem State.holdCrew_faultHost (s : State) (sid : SId) : (s.holdCrew sid).faultHost = s.faultHost := rfl
@[simp] theorem State.holdCrew_migDst (s : State) (sid : SId) : (s.holdCrew sid).migDst = s.migDst := rfl
@[simp] theorem State.holdCrew_migSrc (s : State) (sid : SId) : (s.holdCrew sid).migSrc = s.migSrc := rfl
@[simp] theorem State.holdCrew_migDone (s : State) (sid : SId) : (s.holdCrew sid).migDone = s.migDone := rfl
@[simp] theorem State.holdCrew_migBusy (s : State) (sid : SId) : (s.holdCrew sid).migBusy = s.migBusy := rfl
@[simp] theorem State.holdCrew_migFree (s : State) (sid : SId) : (s.holdCrew sid).migFree = s.migFree := rfl
@[simp] theorem State.holdCrew_marks (s : State) (sid : SId) : (s.holdCrew sid).marks = s.marks := rfl
@[simp] theorem State.holdCrew_cut (s : State) (sid : SId) : (s.holdCrew sid).cut = s.cut := rfl
@[simp] theorem State.holdCrew_fabric (s : State) (sid : SId) : (s.holdCrew sid).fabric = s.fabric := rfl
@[simp] theorem State.holdCrew_bar (s : State) (sid : SId) : (s.holdCrew sid).bar = s.bar := rfl
@[simp] theorem State.holdCrew_trust (s : State) (sid : SId) : (s.holdCrew sid).trust = s.trust := rfl
@[simp] theorem State.holdCrew_jobs (s : State) (sid : SId) : (s.holdCrew sid).jobs = s.jobs := rfl
@[simp] theorem State.holdCrew_msix (s : State) (sid : SId) : (s.holdCrew sid).msix = s.msix := rfl
@[simp] theorem State.holdCrew_throttled (s : State) (sid : SId) : (s.holdCrew sid).throttled = s.throttled := rfl
@[simp] theorem State.holdCrew_skipped (s : State) (sid : SId) : (s.holdCrew sid).skipped = s.skipped := rfl
@[simp] theorem State.holdCrew_unapplied (s : State) (sid : SId) : (s.holdCrew sid).unapplied = s.unapplied := rfl
@[simp] theorem State.holdCrew_service (s : State) (sid : SId) : (s.holdCrew sid).service = s.service := rfl

/-! ### State.deliver -/

@[simp] theorem State.deliver_cur (s : State) (p : Delivery) : (s.deliver p).cur = s.cur := rfl
@[simp] theorem State.deliver_sel (s : State) (p : Delivery) : (s.deliver p).sel = s.sel := rfl
@[simp] theorem State.deliver_rest (s : State) (p : Delivery) : (s.deliver p).rest = s.rest := rfl
@[simp] theorem State.deliver_turn (s : State) (p : Delivery) : (s.deliver p).turn = s.turn := rfl
@[simp] theorem State.deliver_cycle (s : State) (p : Delivery) : (s.deliver p).cycle = s.cycle := rfl
@[simp] theorem State.deliver_pending (s : State) (p : Delivery) : (s.deliver p).pending = s.pending := rfl
@[simp] theorem State.deliver_freeCtr (s : State) (p : Delivery) : (s.deliver p).freeCtr = s.freeCtr := rfl
@[simp] theorem State.deliver_serial (s : State) (p : Delivery) : (s.deliver p).serial = s.serial := rfl
@[simp] theorem State.deliver_oob (s : State) (p : Delivery) : (s.deliver p).oob = s.oob := rfl
@[simp] theorem State.deliver_words (s : State) (p : Delivery) : (s.deliver p).words = s.words := rfl
@[simp] theorem State.deliver_dies (s : State) (p : Delivery) : (s.deliver p).dies = s.dies := rfl
@[simp] theorem State.deliver_mem (s : State) (p : Delivery) : (s.deliver p).mem = s.mem := rfl
@[simp] theorem State.deliver_host (s : State) (p : Delivery) : (s.deliver p).host = s.host := rfl
@[simp] theorem State.deliver_memErrors (s : State) (p : Delivery) : (s.deliver p).memErrors = s.memErrors := rfl
@[simp] theorem State.deliver_syncEmpty (s : State) (p : Delivery) : (s.deliver p).syncEmpty = s.syncEmpty := rfl
@[simp] theorem State.deliver_reqs (s : State) (p : Delivery) : (s.deliver p).reqs = s.reqs := rfl
@[simp] theorem State.deliver_faults (s : State) (p : Delivery) : (s.deliver p).faults = s.faults := rfl
@[simp] theorem State.deliver_dropped (s : State) (p : Delivery) : (s.deliver p).dropped = s.dropped := rfl
@[simp] theorem State.deliver_dropCount (s : State) (p : Delivery) : (s.deliver p).dropCount = s.dropCount := rfl
@[simp] theorem State.deliver_faultHost (s : State) (p : Delivery) : (s.deliver p).faultHost = s.faultHost := rfl
@[simp] theorem State.deliver_migDst (s : State) (p : Delivery) : (s.deliver p).migDst = s.migDst := rfl
@[simp] theorem State.deliver_migSrc (s : State) (p : Delivery) : (s.deliver p).migSrc = s.migSrc := rfl
@[simp] theorem State.deliver_migDone (s : State) (p : Delivery) : (s.deliver p).migDone = s.migDone := rfl
@[simp] theorem State.deliver_migBusy (s : State) (p : Delivery) : (s.deliver p).migBusy = s.migBusy := rfl
@[simp] theorem State.deliver_migFree (s : State) (p : Delivery) : (s.deliver p).migFree = s.migFree := rfl
@[simp] theorem State.deliver_marks (s : State) (p : Delivery) : (s.deliver p).marks = s.marks := rfl
@[simp] theorem State.deliver_cut (s : State) (p : Delivery) : (s.deliver p).cut = s.cut := rfl
@[simp] theorem State.deliver_fabric (s : State) (p : Delivery) : (s.deliver p).fabric = s.fabric := rfl
@[simp] theorem State.deliver_bar (s : State) (p : Delivery) : (s.deliver p).bar = s.bar := rfl
@[simp] theorem State.deliver_trust (s : State) (p : Delivery) : (s.deliver p).trust = s.trust := rfl
@[simp] theorem State.deliver_jobs (s : State) (p : Delivery) : (s.deliver p).jobs = s.jobs := rfl
@[simp] theorem State.deliver_msix (s : State) (p : Delivery) : (s.deliver p).msix = s.msix := rfl
@[simp] theorem State.deliver_throttled (s : State) (p : Delivery) : (s.deliver p).throttled = s.throttled := rfl
@[simp] theorem State.deliver_skipped (s : State) (p : Delivery) : (s.deliver p).skipped = s.skipped := rfl
@[simp] theorem State.deliver_unapplied (s : State) (p : Delivery) : (s.deliver p).unapplied = s.unapplied := rfl
@[simp] theorem State.deliver_service (s : State) (p : Delivery) : (s.deliver p).service = s.service := rfl

/-! ### State.interrupt -/

@[simp] theorem State.interrupt_cur (s : State) (d : Nat) : (s.interrupt d).cur = s.cur := rfl
@[simp] theorem State.interrupt_sel (s : State) (d : Nat) : (s.interrupt d).sel = s.sel := rfl
@[simp] theorem State.interrupt_rest (s : State) (d : Nat) : (s.interrupt d).rest = s.rest := rfl
@[simp] theorem State.interrupt_turn (s : State) (d : Nat) : (s.interrupt d).turn = s.turn := rfl
@[simp] theorem State.interrupt_cycle (s : State) (d : Nat) : (s.interrupt d).cycle = s.cycle := rfl
@[simp] theorem State.interrupt_pending (s : State) (d : Nat) : (s.interrupt d).pending = s.pending := rfl
@[simp] theorem State.interrupt_freeCtr (s : State) (d : Nat) : (s.interrupt d).freeCtr = s.freeCtr := rfl
@[simp] theorem State.interrupt_serial (s : State) (d : Nat) : (s.interrupt d).serial = s.serial := rfl
@[simp] theorem State.interrupt_oob (s : State) (d : Nat) : (s.interrupt d).oob = s.oob := rfl
@[simp] theorem State.interrupt_words (s : State) (d : Nat) : (s.interrupt d).words = s.words := rfl
@[simp] theorem State.interrupt_dies (s : State) (d : Nat) : (s.interrupt d).dies = s.dies := rfl
@[simp] theorem State.interrupt_mem (s : State) (d : Nat) : (s.interrupt d).mem = s.mem := rfl
@[simp] theorem State.interrupt_host (s : State) (d : Nat) : (s.interrupt d).host = s.host := rfl
@[simp] theorem State.interrupt_memErrors (s : State) (d : Nat) : (s.interrupt d).memErrors = s.memErrors := rfl
@[simp] theorem State.interrupt_syncEmpty (s : State) (d : Nat) : (s.interrupt d).syncEmpty = s.syncEmpty := rfl
@[simp] theorem State.interrupt_reqs (s : State) (d : Nat) : (s.interrupt d).reqs = s.reqs := rfl
@[simp] theorem State.interrupt_faults (s : State) (d : Nat) : (s.interrupt d).faults = s.faults := rfl
@[simp] theorem State.interrupt_dropped (s : State) (d : Nat) : (s.interrupt d).dropped = s.dropped := rfl
@[simp] theorem State.interrupt_dropCount (s : State) (d : Nat) : (s.interrupt d).dropCount = s.dropCount := rfl
@[simp] theorem State.interrupt_faultHost (s : State) (d : Nat) : (s.interrupt d).faultHost = s.faultHost := rfl
@[simp] theorem State.interrupt_migDst (s : State) (d : Nat) : (s.interrupt d).migDst = s.migDst := rfl
@[simp] theorem State.interrupt_migSrc (s : State) (d : Nat) : (s.interrupt d).migSrc = s.migSrc := rfl
@[simp] theorem State.interrupt_migDone (s : State) (d : Nat) : (s.interrupt d).migDone = s.migDone := rfl
@[simp] theorem State.interrupt_migBusy (s : State) (d : Nat) : (s.interrupt d).migBusy = s.migBusy := rfl
@[simp] theorem State.interrupt_migFree (s : State) (d : Nat) : (s.interrupt d).migFree = s.migFree := rfl
@[simp] theorem State.interrupt_marks (s : State) (d : Nat) : (s.interrupt d).marks = s.marks := rfl
@[simp] theorem State.interrupt_cut (s : State) (d : Nat) : (s.interrupt d).cut = s.cut := rfl
@[simp] theorem State.interrupt_fabric (s : State) (d : Nat) : (s.interrupt d).fabric = s.fabric := rfl
@[simp] theorem State.interrupt_bar (s : State) (d : Nat) : (s.interrupt d).bar = s.bar := rfl
@[simp] theorem State.interrupt_trust (s : State) (d : Nat) : (s.interrupt d).trust = s.trust := rfl
@[simp] theorem State.interrupt_jobs (s : State) (d : Nat) : (s.interrupt d).jobs = s.jobs := rfl
@[simp] theorem State.interrupt_msix (s : State) (d : Nat) : (s.interrupt d).msix = s.msix := rfl
@[simp] theorem State.interrupt_throttled (s : State) (d : Nat) : (s.interrupt d).throttled = s.throttled := rfl
@[simp] theorem State.interrupt_skipped (s : State) (d : Nat) : (s.interrupt d).skipped = s.skipped := rfl
@[simp] theorem State.interrupt_unapplied (s : State) (d : Nat) : (s.interrupt d).unapplied = s.unapplied := rfl
@[simp] theorem State.interrupt_service (s : State) (d : Nat) : (s.interrupt d).service = s.service := rfl

/-! ### State.countIssue -/

@[simp] theorem State.countIssue_cur (s : State) : (s.countIssue).cur = s.cur := rfl
@[simp] theorem State.countIssue_turn (s : State) : (s.countIssue).turn = s.turn := rfl
@[simp] theorem State.countIssue_cycle (s : State) : (s.countIssue).cycle = s.cycle := rfl
@[simp] theorem State.countIssue_pending (s : State) : (s.countIssue).pending = s.pending := rfl
@[simp] theorem State.countIssue_freeCtr (s : State) : (s.countIssue).freeCtr = s.freeCtr := rfl
@[simp] theorem State.countIssue_serial (s : State) : (s.countIssue).serial = s.serial := rfl
@[simp] theorem State.countIssue_oob (s : State) : (s.countIssue).oob = s.oob := rfl
@[simp] theorem State.countIssue_words (s : State) : (s.countIssue).words = s.words := rfl
@[simp] theorem State.countIssue_dies (s : State) : (s.countIssue).dies = s.dies := rfl
@[simp] theorem State.countIssue_mem (s : State) : (s.countIssue).mem = s.mem := rfl
@[simp] theorem State.countIssue_host (s : State) : (s.countIssue).host = s.host := rfl
@[simp] theorem State.countIssue_memErrors (s : State) : (s.countIssue).memErrors = s.memErrors := rfl
@[simp] theorem State.countIssue_syncEmpty (s : State) : (s.countIssue).syncEmpty = s.syncEmpty := rfl
@[simp] theorem State.countIssue_reqs (s : State) : (s.countIssue).reqs = s.reqs := rfl
@[simp] theorem State.countIssue_faults (s : State) : (s.countIssue).faults = s.faults := rfl
@[simp] theorem State.countIssue_dropped (s : State) : (s.countIssue).dropped = s.dropped := rfl
@[simp] theorem State.countIssue_dropCount (s : State) : (s.countIssue).dropCount = s.dropCount := rfl
@[simp] theorem State.countIssue_faultHost (s : State) : (s.countIssue).faultHost = s.faultHost := rfl
@[simp] theorem State.countIssue_migDst (s : State) : (s.countIssue).migDst = s.migDst := rfl
@[simp] theorem State.countIssue_migSrc (s : State) : (s.countIssue).migSrc = s.migSrc := rfl
@[simp] theorem State.countIssue_migDone (s : State) : (s.countIssue).migDone = s.migDone := rfl
@[simp] theorem State.countIssue_migBusy (s : State) : (s.countIssue).migBusy = s.migBusy := rfl
@[simp] theorem State.countIssue_migFree (s : State) : (s.countIssue).migFree = s.migFree := rfl
@[simp] theorem State.countIssue_marks (s : State) : (s.countIssue).marks = s.marks := rfl
@[simp] theorem State.countIssue_cut (s : State) : (s.countIssue).cut = s.cut := rfl
@[simp] theorem State.countIssue_fabric (s : State) : (s.countIssue).fabric = s.fabric := rfl
@[simp] theorem State.countIssue_bar (s : State) : (s.countIssue).bar = s.bar := rfl
@[simp] theorem State.countIssue_trust (s : State) : (s.countIssue).trust = s.trust := rfl
@[simp] theorem State.countIssue_jobs (s : State) : (s.countIssue).jobs = s.jobs := rfl
@[simp] theorem State.countIssue_msix (s : State) : (s.countIssue).msix = s.msix := rfl
@[simp] theorem State.countIssue_throttled (s : State) : (s.countIssue).throttled = s.throttled := rfl
@[simp] theorem State.countIssue_skipped (s : State) : (s.countIssue).skipped = s.skipped := rfl
@[simp] theorem State.countIssue_unapplied (s : State) : (s.countIssue).unapplied = s.unapplied := rfl
@[simp] theorem State.countIssue_service (s : State) : (s.countIssue).service = s.service := rfl

/-! ### State.retire -/

@[simp] theorem State.retire_cur (s : State) (n : Nat) : (s.retire n).cur = s.cur := rfl
@[simp] theorem State.retire_turn (s : State) (n : Nat) : (s.retire n).turn = s.turn := rfl
@[simp] theorem State.retire_cycle (s : State) (n : Nat) : (s.retire n).cycle = s.cycle := rfl
@[simp] theorem State.retire_pending (s : State) (n : Nat) : (s.retire n).pending = s.pending := rfl
@[simp] theorem State.retire_freeCtr (s : State) (n : Nat) : (s.retire n).freeCtr = s.freeCtr := rfl
@[simp] theorem State.retire_serial (s : State) (n : Nat) : (s.retire n).serial = s.serial := rfl
@[simp] theorem State.retire_oob (s : State) (n : Nat) : (s.retire n).oob = s.oob := rfl
@[simp] theorem State.retire_words (s : State) (n : Nat) : (s.retire n).words = s.words := rfl
@[simp] theorem State.retire_dies (s : State) (n : Nat) : (s.retire n).dies = s.dies := rfl
@[simp] theorem State.retire_mem (s : State) (n : Nat) : (s.retire n).mem = s.mem := rfl
@[simp] theorem State.retire_host (s : State) (n : Nat) : (s.retire n).host = s.host := rfl
@[simp] theorem State.retire_memErrors (s : State) (n : Nat) : (s.retire n).memErrors = s.memErrors := rfl
@[simp] theorem State.retire_syncEmpty (s : State) (n : Nat) : (s.retire n).syncEmpty = s.syncEmpty := rfl
@[simp] theorem State.retire_reqs (s : State) (n : Nat) : (s.retire n).reqs = s.reqs := rfl
@[simp] theorem State.retire_faults (s : State) (n : Nat) : (s.retire n).faults = s.faults := rfl
@[simp] theorem State.retire_dropped (s : State) (n : Nat) : (s.retire n).dropped = s.dropped := rfl
@[simp] theorem State.retire_dropCount (s : State) (n : Nat) : (s.retire n).dropCount = s.dropCount := rfl
@[simp] theorem State.retire_faultHost (s : State) (n : Nat) : (s.retire n).faultHost = s.faultHost := rfl
@[simp] theorem State.retire_migDst (s : State) (n : Nat) : (s.retire n).migDst = s.migDst := rfl
@[simp] theorem State.retire_migSrc (s : State) (n : Nat) : (s.retire n).migSrc = s.migSrc := rfl
@[simp] theorem State.retire_migDone (s : State) (n : Nat) : (s.retire n).migDone = s.migDone := rfl
@[simp] theorem State.retire_migBusy (s : State) (n : Nat) : (s.retire n).migBusy = s.migBusy := rfl
@[simp] theorem State.retire_migFree (s : State) (n : Nat) : (s.retire n).migFree = s.migFree := rfl
@[simp] theorem State.retire_marks (s : State) (n : Nat) : (s.retire n).marks = s.marks := rfl
@[simp] theorem State.retire_cut (s : State) (n : Nat) : (s.retire n).cut = s.cut := rfl
@[simp] theorem State.retire_fabric (s : State) (n : Nat) : (s.retire n).fabric = s.fabric := rfl
@[simp] theorem State.retire_bar (s : State) (n : Nat) : (s.retire n).bar = s.bar := rfl
@[simp] theorem State.retire_trust (s : State) (n : Nat) : (s.retire n).trust = s.trust := rfl
@[simp] theorem State.retire_jobs (s : State) (n : Nat) : (s.retire n).jobs = s.jobs := rfl
@[simp] theorem State.retire_msix (s : State) (n : Nat) : (s.retire n).msix = s.msix := rfl
@[simp] theorem State.retire_throttled (s : State) (n : Nat) : (s.retire n).throttled = s.throttled := rfl
@[simp] theorem State.retire_skipped (s : State) (n : Nat) : (s.retire n).skipped = s.skipped := rfl
@[simp] theorem State.retire_unapplied (s : State) (n : Nat) : (s.retire n).unapplied = s.unapplied := rfl
@[simp] theorem State.retire_service (s : State) (n : Nat) : (s.retire n).service = s.service := rfl

/-! ### State.jump -/

@[simp] theorem State.jump_cur (s : State) (x : Word) : (s.jump x).cur = s.cur := rfl
@[simp] theorem State.jump_turn (s : State) (x : Word) : (s.jump x).turn = s.turn := rfl
@[simp] theorem State.jump_cycle (s : State) (x : Word) : (s.jump x).cycle = s.cycle := rfl
@[simp] theorem State.jump_pending (s : State) (x : Word) : (s.jump x).pending = s.pending := rfl
@[simp] theorem State.jump_freeCtr (s : State) (x : Word) : (s.jump x).freeCtr = s.freeCtr := rfl
@[simp] theorem State.jump_serial (s : State) (x : Word) : (s.jump x).serial = s.serial := rfl
@[simp] theorem State.jump_oob (s : State) (x : Word) : (s.jump x).oob = s.oob := rfl
@[simp] theorem State.jump_words (s : State) (x : Word) : (s.jump x).words = s.words := rfl
@[simp] theorem State.jump_dies (s : State) (x : Word) : (s.jump x).dies = s.dies := rfl
@[simp] theorem State.jump_mem (s : State) (x : Word) : (s.jump x).mem = s.mem := rfl
@[simp] theorem State.jump_host (s : State) (x : Word) : (s.jump x).host = s.host := rfl
@[simp] theorem State.jump_memErrors (s : State) (x : Word) : (s.jump x).memErrors = s.memErrors := rfl
@[simp] theorem State.jump_syncEmpty (s : State) (x : Word) : (s.jump x).syncEmpty = s.syncEmpty := rfl
@[simp] theorem State.jump_reqs (s : State) (x : Word) : (s.jump x).reqs = s.reqs := rfl
@[simp] theorem State.jump_faults (s : State) (x : Word) : (s.jump x).faults = s.faults := rfl
@[simp] theorem State.jump_dropped (s : State) (x : Word) : (s.jump x).dropped = s.dropped := rfl
@[simp] theorem State.jump_dropCount (s : State) (x : Word) : (s.jump x).dropCount = s.dropCount := rfl
@[simp] theorem State.jump_faultHost (s : State) (x : Word) : (s.jump x).faultHost = s.faultHost := rfl
@[simp] theorem State.jump_migDst (s : State) (x : Word) : (s.jump x).migDst = s.migDst := rfl
@[simp] theorem State.jump_migSrc (s : State) (x : Word) : (s.jump x).migSrc = s.migSrc := rfl
@[simp] theorem State.jump_migDone (s : State) (x : Word) : (s.jump x).migDone = s.migDone := rfl
@[simp] theorem State.jump_migBusy (s : State) (x : Word) : (s.jump x).migBusy = s.migBusy := rfl
@[simp] theorem State.jump_migFree (s : State) (x : Word) : (s.jump x).migFree = s.migFree := rfl
@[simp] theorem State.jump_marks (s : State) (x : Word) : (s.jump x).marks = s.marks := rfl
@[simp] theorem State.jump_cut (s : State) (x : Word) : (s.jump x).cut = s.cut := rfl
@[simp] theorem State.jump_fabric (s : State) (x : Word) : (s.jump x).fabric = s.fabric := rfl
@[simp] theorem State.jump_bar (s : State) (x : Word) : (s.jump x).bar = s.bar := rfl
@[simp] theorem State.jump_trust (s : State) (x : Word) : (s.jump x).trust = s.trust := rfl
@[simp] theorem State.jump_jobs (s : State) (x : Word) : (s.jump x).jobs = s.jobs := rfl
@[simp] theorem State.jump_msix (s : State) (x : Word) : (s.jump x).msix = s.msix := rfl
@[simp] theorem State.jump_throttled (s : State) (x : Word) : (s.jump x).throttled = s.throttled := rfl
@[simp] theorem State.jump_skipped (s : State) (x : Word) : (s.jump x).skipped = s.skipped := rfl
@[simp] theorem State.jump_unapplied (s : State) (x : Word) : (s.jump x).unapplied = s.unapplied := rfl
@[simp] theorem State.jump_service (s : State) (x : Word) : (s.jump x).service = s.service := rfl

/-! ### State.fresh -/

@[simp] theorem State.fresh_cur (s : State) : (s.fresh.2).cur = s.cur := rfl
@[simp] theorem State.fresh_sel (s : State) : (s.fresh.2).sel = s.sel := rfl
@[simp] theorem State.fresh_rest (s : State) : (s.fresh.2).rest = s.rest := rfl
@[simp] theorem State.fresh_turn (s : State) : (s.fresh.2).turn = s.turn := rfl
@[simp] theorem State.fresh_cycle (s : State) : (s.fresh.2).cycle = s.cycle := rfl
@[simp] theorem State.fresh_pending (s : State) : (s.fresh.2).pending = s.pending := rfl
@[simp] theorem State.fresh_serial (s : State) : (s.fresh.2).serial = s.serial := rfl
@[simp] theorem State.fresh_oob (s : State) : (s.fresh.2).oob = s.oob := rfl
@[simp] theorem State.fresh_words (s : State) : (s.fresh.2).words = s.words := rfl
@[simp] theorem State.fresh_cores (s : State) : (s.fresh.2).cores = s.cores := rfl
@[simp] theorem State.fresh_dies (s : State) : (s.fresh.2).dies = s.dies := rfl
@[simp] theorem State.fresh_mem (s : State) : (s.fresh.2).mem = s.mem := rfl
@[simp] theorem State.fresh_host (s : State) : (s.fresh.2).host = s.host := rfl
@[simp] theorem State.fresh_memErrors (s : State) : (s.fresh.2).memErrors = s.memErrors := rfl
@[simp] theorem State.fresh_syncEmpty (s : State) : (s.fresh.2).syncEmpty = s.syncEmpty := rfl
@[simp] theorem State.fresh_reqs (s : State) : (s.fresh.2).reqs = s.reqs := rfl
@[simp] theorem State.fresh_faults (s : State) : (s.fresh.2).faults = s.faults := rfl
@[simp] theorem State.fresh_dropped (s : State) : (s.fresh.2).dropped = s.dropped := rfl
@[simp] theorem State.fresh_dropCount (s : State) : (s.fresh.2).dropCount = s.dropCount := rfl
@[simp] theorem State.fresh_faultHost (s : State) : (s.fresh.2).faultHost = s.faultHost := rfl
@[simp] theorem State.fresh_migDst (s : State) : (s.fresh.2).migDst = s.migDst := rfl
@[simp] theorem State.fresh_migSrc (s : State) : (s.fresh.2).migSrc = s.migSrc := rfl
@[simp] theorem State.fresh_migDone (s : State) : (s.fresh.2).migDone = s.migDone := rfl
@[simp] theorem State.fresh_migBusy (s : State) : (s.fresh.2).migBusy = s.migBusy := rfl
@[simp] theorem State.fresh_migFree (s : State) : (s.fresh.2).migFree = s.migFree := rfl
@[simp] theorem State.fresh_marks (s : State) : (s.fresh.2).marks = s.marks := rfl
@[simp] theorem State.fresh_cut (s : State) : (s.fresh.2).cut = s.cut := rfl
@[simp] theorem State.fresh_fabric (s : State) : (s.fresh.2).fabric = s.fabric := rfl
@[simp] theorem State.fresh_bar (s : State) : (s.fresh.2).bar = s.bar := rfl
@[simp] theorem State.fresh_trust (s : State) : (s.fresh.2).trust = s.trust := rfl
@[simp] theorem State.fresh_jobs (s : State) : (s.fresh.2).jobs = s.jobs := rfl
@[simp] theorem State.fresh_msix (s : State) : (s.fresh.2).msix = s.msix := rfl
@[simp] theorem State.fresh_throttled (s : State) : (s.fresh.2).throttled = s.throttled := rfl
@[simp] theorem State.fresh_skipped (s : State) : (s.fresh.2).skipped = s.skipped := rfl
@[simp] theorem State.fresh_unapplied (s : State) : (s.fresh.2).unapplied = s.unapplied := rfl
@[simp] theorem State.fresh_service (s : State) : (s.fresh.2).service = s.service := rfl

/-! ### State.nextSerial -/

@[simp] theorem State.nextSerial_cur (s : State) : (s.nextSerial.2).cur = s.cur := rfl
@[simp] theorem State.nextSerial_sel (s : State) : (s.nextSerial.2).sel = s.sel := rfl
@[simp] theorem State.nextSerial_rest (s : State) : (s.nextSerial.2).rest = s.rest := rfl
@[simp] theorem State.nextSerial_turn (s : State) : (s.nextSerial.2).turn = s.turn := rfl
@[simp] theorem State.nextSerial_cycle (s : State) : (s.nextSerial.2).cycle = s.cycle := rfl
@[simp] theorem State.nextSerial_pending (s : State) : (s.nextSerial.2).pending = s.pending := rfl
@[simp] theorem State.nextSerial_freeCtr (s : State) : (s.nextSerial.2).freeCtr = s.freeCtr := rfl
@[simp] theorem State.nextSerial_oob (s : State) : (s.nextSerial.2).oob = s.oob := rfl
@[simp] theorem State.nextSerial_words (s : State) : (s.nextSerial.2).words = s.words := rfl
@[simp] theorem State.nextSerial_cores (s : State) : (s.nextSerial.2).cores = s.cores := rfl
@[simp] theorem State.nextSerial_dies (s : State) : (s.nextSerial.2).dies = s.dies := rfl
@[simp] theorem State.nextSerial_mem (s : State) : (s.nextSerial.2).mem = s.mem := rfl
@[simp] theorem State.nextSerial_host (s : State) : (s.nextSerial.2).host = s.host := rfl
@[simp] theorem State.nextSerial_memErrors (s : State) : (s.nextSerial.2).memErrors = s.memErrors := rfl
@[simp] theorem State.nextSerial_syncEmpty (s : State) : (s.nextSerial.2).syncEmpty = s.syncEmpty := rfl
@[simp] theorem State.nextSerial_reqs (s : State) : (s.nextSerial.2).reqs = s.reqs := rfl
@[simp] theorem State.nextSerial_faults (s : State) : (s.nextSerial.2).faults = s.faults := rfl
@[simp] theorem State.nextSerial_dropped (s : State) : (s.nextSerial.2).dropped = s.dropped := rfl
@[simp] theorem State.nextSerial_dropCount (s : State) : (s.nextSerial.2).dropCount = s.dropCount := rfl
@[simp] theorem State.nextSerial_faultHost (s : State) : (s.nextSerial.2).faultHost = s.faultHost := rfl
@[simp] theorem State.nextSerial_migDst (s : State) : (s.nextSerial.2).migDst = s.migDst := rfl
@[simp] theorem State.nextSerial_migSrc (s : State) : (s.nextSerial.2).migSrc = s.migSrc := rfl
@[simp] theorem State.nextSerial_migDone (s : State) : (s.nextSerial.2).migDone = s.migDone := rfl
@[simp] theorem State.nextSerial_migBusy (s : State) : (s.nextSerial.2).migBusy = s.migBusy := rfl
@[simp] theorem State.nextSerial_migFree (s : State) : (s.nextSerial.2).migFree = s.migFree := rfl
@[simp] theorem State.nextSerial_marks (s : State) : (s.nextSerial.2).marks = s.marks := rfl
@[simp] theorem State.nextSerial_cut (s : State) : (s.nextSerial.2).cut = s.cut := rfl
@[simp] theorem State.nextSerial_fabric (s : State) : (s.nextSerial.2).fabric = s.fabric := rfl
@[simp] theorem State.nextSerial_bar (s : State) : (s.nextSerial.2).bar = s.bar := rfl
@[simp] theorem State.nextSerial_trust (s : State) : (s.nextSerial.2).trust = s.trust := rfl
@[simp] theorem State.nextSerial_jobs (s : State) : (s.nextSerial.2).jobs = s.jobs := rfl
@[simp] theorem State.nextSerial_msix (s : State) : (s.nextSerial.2).msix = s.msix := rfl
@[simp] theorem State.nextSerial_throttled (s : State) : (s.nextSerial.2).throttled = s.throttled := rfl
@[simp] theorem State.nextSerial_skipped (s : State) : (s.nextSerial.2).skipped = s.skipped := rfl
@[simp] theorem State.nextSerial_unapplied (s : State) : (s.nextSerial.2).unapplied = s.unapplied := rfl
@[simp] theorem State.nextSerial_service (s : State) : (s.nextSerial.2).service = s.service := rfl

end Sys2Proof.Machine
end

