-- ==== Sys2Proof/Laws/Cores.lean ====
section
/-! SUPPORT. What reading a core, a strand or a crew gives after one of them has been changed. -/

namespace Sys2Proof.Machine

/-- Finding in a list of cores after one has been put there. -/
theorem find_putCore_self (c : Core) (l : List Core) : (putCore c l).find? (fun x => x.id == c.id) = some c := by
  induction l with
  | nil => simp [putCore]
  | cons d ds ih =>
    by_cases h : d.id = c.id
    · simp [putCore, h]
    · simp [putCore, h, ih]

theorem find_putCore_ne (c : Core) (l : List Core) (i : Nat) (h : c.id ≠ i) :
    (putCore c l).find? (fun x => x.id == i) = l.find? fun x => x.id == i := by
  induction l with
  | nil => simp [putCore, h]
  | cons d ds ih =>
    by_cases hd : d.id = c.id
    · have : d.id ≠ i := hd ▸ h
      simp [putCore, hd, h]
    · simp only [putCore, if_neg hd, List.find?_cons, ih]

/-- The core just put there is the one that is read. -/
@[simp] theorem State.core_setCore_self (s : State) (c : Core) : (s.setCore c).core c.id = c := by
  simp [State.core, State.setCore, find_putCore_self]

theorem State.core_setCore_ne (s : State) (c : Core) (i : Nat) (h : c.id ≠ i) : (s.setCore c).core i = s.core i := by
  simp [State.core, State.setCore, find_putCore_ne c _ i h]

@[simp] theorem State.core_modCore_self (s : State) (i : Nat) (f : Core → Core) :
    (s.modCore i f).core i = { f (s.core i) with id := i } :=
  State.core_setCore_self s { f (s.core i) with id := i }

theorem State.core_modCore_ne (s : State) (i j : Nat) (f : Core → Core) (h : i ≠ j) : (s.modCore i f).core j = s.core j :=
  State.core_setCore_ne s { f (s.core i) with id := i } j h

/-- The identity of a core that is read is the one asked for. -/
@[simp] theorem State.core_id (s : State) (i : Nat) : (s.core i).id = i := by
  unfold State.core
  split
  · next c h => simpa using List.find?_some h
  · simp only [Core.reset]; split <;> rfl

@[simp] theorem Core.setStrand_id (c : Core) (p : Nat) (st : Strand) : (c.setStrand p st).id = c.id := rfl
@[simp] theorem Core.setStrand_crews (c : Core) (p : Nat) (st : Strand) : (c.setStrand p st).crews = c.crews := rfl
@[simp] theorem Core.setStrand_hasp (c : Core) (p : Nat) (st : Strand) : (c.setStrand p st).hasp = c.hasp := rfl
@[simp] theorem Core.setStrand_haspCtl (c : Core) (p : Nat) (st : Strand) : (c.setStrand p st).haspCtl = c.haspCtl := rfl
@[simp] theorem Core.setStrand_slots (c : Core) (p : Nat) (st : Strand) : (c.setStrand p st).slots = c.slots := rfl
@[simp] theorem Core.setStrand_handlerEntry (c : Core) (p : Nat) (st : Strand) :
    (c.setStrand p st).handlerEntry = c.handlerEntry := rfl

@[simp] theorem Core.strand_setStrand_self (c : Core) (p : Nat) (st : Strand) (h : p < 17) :
    (c.setStrand p st).strand p = st := by
  simp [Core.strand, Core.setStrand, h]

theorem Core.strand_setStrand_ne (c : Core) (p q : Nat) (st : Strand) (h : p ≠ q) :
    (c.setStrand p st).strand q = c.strand q := by
  simp only [Core.strand, Core.setStrand]
  rw [Vector.getElem?_setIfInBounds_ne h]

/-- A strand just written is the one that is read. -/
@[simp] theorem State.strand_modStrand_self (s : State) (sid : SId) (f : Strand → Strand) (h : sid.pos < 17) :
    (s.modStrand sid f).strand sid = f (s.strand sid) := by
  simp only [State.strand, State.modStrand, State.setStrand, State.core_modCore_self]
  exact Core.strand_setStrand_self _ _ _ h

/-- Writing a strand leaves every other strand alone. -/
theorem State.strand_modStrand_ne (s : State) (a b : SId) (f : Strand → Strand) (h : a ≠ b) :
    (s.modStrand a f).strand b = s.strand b := by
  simp only [State.strand, State.modStrand, State.setStrand]
  by_cases hc : a.core = b.core
  · have hp : a.pos ≠ b.pos := fun hp => h (by cases a; cases b; simp_all)
    rw [hc, State.core_modCore_self]
    exact Core.strand_setStrand_ne _ _ _ _ hp
  · rw [State.core_modCore_ne _ _ _ _ hc]

@[simp] theorem State.me_modMe (s : State) (f : Strand → Strand) (h : s.cur.pos < 17) : (s.modMe f).me = f s.me := by
  simp only [State.me, State.modMe, State.modStrand_cur]
  exact State.strand_modStrand_self s s.cur f h

/-- Writing a strand leaves the crews of every core alone. -/
@[simp] theorem State.modStrand_crews (s : State) (sid : SId) (f : Strand → Strand) (i : Nat) :
    ((s.modStrand sid f).core i).crews = (s.core i).crews := by
  simp only [State.modStrand, State.setStrand]
  by_cases h : sid.core = i
  · subst h; simp
  · rw [State.core_modCore_ne _ _ _ _ h]

@[simp] theorem State.modStrand_hasp (s : State) (sid : SId) (f : Strand → Strand) (i : Nat) :
    ((s.modStrand sid f).core i).hasp = (s.core i).hasp := by
  simp only [State.modStrand, State.setStrand]
  by_cases h : sid.core = i
  · subst h; simp
  · rw [State.core_modCore_ne _ _ _ _ h]

@[simp] theorem State.modStrand_slots (s : State) (sid : SId) (f : Strand → Strand) (i : Nat) :
    ((s.modStrand sid f).core i).slots = (s.core i).slots := by
  simp only [State.modStrand, State.setStrand]
  by_cases h : sid.core = i
  · subst h; simp
  · rw [State.core_modCore_ne _ _ _ _ h]

@[simp] theorem State.modStrand_handlerEntry (s : State) (sid : SId) (f : Strand → Strand) (i : Nat) :
    ((s.modStrand sid f).core i).handlerEntry = (s.core i).handlerEntry := by
  simp only [State.modStrand, State.setStrand]
  by_cases h : sid.core = i
  · subst h; simp
  · rw [State.core_modCore_ne _ _ _ _ h]

@[simp] theorem State.modStrand_ownerOf (s : State) (a b : SId) (f : Strand → Strand) :
    (s.modStrand a f).ownerOf b = s.ownerOf b := by
  simp [State.ownerOf, Core.ownerAt, Core.crewAt]

@[simp] theorem State.modStrand_owned (s : State) (a : SId) (f : Strand → Strand) (i : Nat) (o : Owner) :
    (s.modStrand a f).owned i o = s.owned i o := by
  cases o <;> simp [State.owned, Core.owned]

@[simp] theorem State.modMe_myCrew (s : State) (f : Strand → Strand) : (s.modMe f).myCrew = s.myCrew := by
  simp [State.myCrew, State.modMe]

@[simp] theorem State.modMe_ownerOf (s : State) (f : Strand → Strand) (b : SId) : (s.modMe f).ownerOf b = s.ownerOf b := by
  simp [State.modMe]

/-- A die just changed is the one that is read. -/
theorem State.die_modDie_self (s : State) (d : Nat) (f : Die → Die) (h : d < 4) : (s.modDie d f).die d = f (s.die d) := by
  simp [State.die, State.modDie, h]

theorem State.die_modDie_ne (s : State) (d e : Nat) (f : Die → Die) (h : d ≠ e) : (s.modDie d f).die e = s.die e := by
  simp only [State.die, State.modDie]
  rw [Vector.getElem?_setIfInBounds_ne h]

end Sys2Proof.Machine
end

