-- ==== Sys2Proof/Laws/Memory.lean ====
section
/-! SUPPORT. Byte memories: the canonical form, that every memory operation keeps it, and what a read gives after a write. -/

namespace Sys2Proof.Machine

/-- The canonical form: addresses strictly rising, no zero byte listed. -/
theorem Memory.wf_iff (m : Memory) : Memory.wf m = true ↔ m.Pairwise (fun c d => c.1 < d.1) ∧ ∀ c ∈ m, c.2 ≠ 0 := by
  induction m with
  | nil => simp [Memory.wf]
  | cons c rest ih =>
    cases rest with
    | nil => simp [Memory.wf]
    | cons d rest =>
      have step : Memory.wf (c :: d :: rest) = (c.2 != 0 && decide (c.1 < d.1) && Memory.wf (d :: rest)) := rfl
      rw [step, Bool.and_eq_true, ih, List.pairwise_cons (a := c)]
      simp only [Bool.and_eq_true, bne_iff_ne, decide_eq_true_eq]
      constructor
      · rintro ⟨⟨h0, h1⟩, hp, hz⟩
        refine ⟨⟨fun e he => ?_, hp⟩, fun e he => ?_⟩
        · rcases List.mem_cons.1 he with rfl | he
          · exact h1
          · exact lt_trans h1 ((List.pairwise_cons.1 hp).1 e he)
        · rcases List.mem_cons.1 he with rfl | he
          · exact h0
          · exact hz e he
      · rintro ⟨⟨ha, hp⟩, hz⟩
        exact ⟨⟨hz c (by simp), ha d (by simp)⟩, hp, fun e he => hz e (List.mem_cons_of_mem _ he)⟩

/-- Leaving cells out keeps the form. -/
theorem Memory.wf_filter (m : Memory) (p : Host.Cell → Bool) (h : Memory.wf m = true) : Memory.wf (m.filter p) = true := by
  rw [Memory.wf_iff] at h ⊢
  exact ⟨h.1.filter p, fun c hc => h.2 c (List.mem_filter.1 hc).1⟩

theorem Memory.wf_truncate (m : Memory) (a : Nat) (h : Memory.wf m = true) : Memory.wf (m.truncate a) = true :=
  Memory.wf_filter m _ h

/-- The cells of consecutive bytes lie in their range, rise, and are not zero. -/
theorem mem_cellsFrom (bs : List Byte) : ∀ (a : Nat) (c : Host.Cell), c ∈ cellsFrom a bs →
    a ≤ c.1 ∧ c.1 < a + bs.length ∧ c.2 ≠ 0 := by
  induction bs with
  | nil => simp [cellsFrom]
  | cons b bs ih =>
    intro a c hc
    by_cases hb : b = 0
    · simp only [cellsFrom, hb, if_true] at hc
      have := ih (a + 1) c hc
      simp only [List.length_cons]
      exact ⟨by omega, by omega, this.2.2⟩
    · simp only [cellsFrom, hb, if_false, List.mem_cons] at hc
      rcases hc with rfl | hc
      · exact ⟨le_refl _, by simp, hb⟩
      · have := ih (a + 1) c hc
        simp only [List.length_cons]
        exact ⟨by omega, by omega, this.2.2⟩

theorem cellsFrom_pairwise (bs : List Byte) : ∀ a, (cellsFrom a bs).Pairwise fun c d => c.1 < d.1 := by
  induction bs with
  | nil => simp [cellsFrom]
  | cons b bs ih =>
    intro a
    by_cases hb : b = 0
    · simpa [cellsFrom, hb] using ih (a + 1)
    · simp only [cellsFrom, hb, if_false, List.pairwise_cons]
      exact ⟨fun c hc => by have := mem_cellsFrom bs (a + 1) c hc; omega, ih (a + 1)⟩

/-- A write keeps the canonical form. -/
theorem Memory.wf_write (m : Memory) (a : Nat) (bs : List Byte) (h : Memory.wf m = true) : Memory.wf (m.write a bs) = true := by
  rw [Memory.wf_iff] at h ⊢
  refine ⟨?_, ?_⟩
  · rw [Memory.write, List.pairwise_append, List.pairwise_append]
    refine ⟨h.1.filter _, ⟨cellsFrom_pairwise bs a, h.1.filter _, fun c hc d hd => ?_⟩, fun c hc d hd => ?_⟩
    · have := mem_cellsFrom bs a c hc
      have hd := (List.mem_filter.1 hd).2
      simp only [decide_eq_true_eq] at hd
      omega
    · have hc := (List.mem_filter.1 hc).2
      simp only [decide_eq_true_eq] at hc
      rcases List.mem_append.1 hd with hd | hd
      · have := mem_cellsFrom bs a d hd; omega
      · have hd := (List.mem_filter.1 hd).2
        simp only [decide_eq_true_eq] at hd
        omega
  · intro c hc
    rw [Memory.write] at hc
    rcases List.mem_append.1 hc with hc | hc
    · exact h.2 c (List.mem_filter.1 hc).1
    · rcases List.mem_append.1 hc with hc | hc
      · exact (mem_cellsFrom bs a c hc).2.2
      · exact h.2 c (List.mem_filter.1 hc).1

theorem Memory.wf_writeNat (m : Memory) (a n v : Nat) (h : Memory.wf m = true) : Memory.wf (m.writeNat a n v) = true :=
  Memory.wf_write m a _ h

theorem Memory.wf_writeMasked (m : Memory) (a : Nat) (bs : List Byte) (on : List Bool) (h : Memory.wf m = true) :
    Memory.wf (m.writeMasked a bs on) = true := Memory.wf_write m a _ h

/-- The byte of consecutive cells at an address. -/
theorem find_cellsFrom (bs : List Byte) : ∀ (a x : Nat), a ≤ x → x < a + bs.length →
    (match (cellsFrom a bs).find? (fun c => c.1 == x) with | some c => c.2 | none => 0) = bs.getD (x - a) 0 := by
  induction bs with
  | nil => intro a x h1 h2; simp at h2; omega
  | cons b bs ih =>
    intro a x h1 h2
    by_cases hx : x = a
    · subst hx
      by_cases hb : b = 0
      · have none_ : (cellsFrom (x + 1) bs).find? (fun c => c.1 == x) = none := by
          rw [List.find?_eq_none]
          intro c hc
          have := mem_cellsFrom bs (x + 1) c hc
          simp only [beq_iff_eq]
          omega
        simp [cellsFrom, hb, none_]
      · simp only [cellsFrom, if_neg hb]; simp
    · have h3 : a + 1 ≤ x := by omega
      have h4 : x < a + 1 + bs.length := by simp only [List.length_cons] at h2; omega
      have he : x - a = x - (a + 1) + 1 := by omega
      by_cases hb : b = 0
      · simp only [cellsFrom, hb, if_true]
        rw [ih (a + 1) x h3 h4, he]
        simp
      · have hne : ¬ a = x := by omega
        simp only [cellsFrom, hb, if_false, List.find?_cons, he, List.getD_cons_succ]
        have : (a == x) = false := by simp [hne]
        simp only [this]
        exact ih (a + 1) x h3 h4

theorem find_append_of_none {α : Type} (l r : List α) (p : α → Bool) (h : l.find? p = none) :
    (l ++ r).find? p = r.find? p := by
  rw [List.find?_append, h]; rfl

/-- A read inside the bytes written gives the byte written. -/
theorem Memory.read_write_in (m : Memory) (a x : Nat) (bs : List Byte) (h1 : a ≤ x) (h2 : x < a + bs.length) :
    (m.write a bs).read x = bs.getD (x - a) 0 := by
  have low : (m.filter fun c => decide (c.1 < a)).find? (fun c => c.1 == x) = none := by
    rw [List.find?_eq_none]
    intro c hc
    have := (List.mem_filter.1 hc).2
    simp only [decide_eq_true_eq] at this
    simp only [beq_iff_eq]; omega
  have high : (m.filter fun c => decide (a + bs.length ≤ c.1)).find? (fun c => c.1 == x) = none := by
    rw [List.find?_eq_none]
    intro c hc
    have := (List.mem_filter.1 hc).2
    simp only [decide_eq_true_eq] at this
    simp only [beq_iff_eq]; omega
  rw [← find_cellsFrom bs a x h1 h2, Memory.read, Memory.write, find_append_of_none _ _ _ low, List.find?_append, high]
  cases (cellsFrom a bs).find? (fun c => c.1 == x) <;> rfl

/-- A read outside the bytes written gives what it gave before. -/
theorem Memory.read_write_out (m : Memory) (a x : Nat) (bs : List Byte) (h : x < a ∨ a + bs.length ≤ x) :
    (m.write a bs).read x = m.read x := by
  have mid : (cellsFrom a bs).find? (fun c => c.1 == x) = none := by
    rw [List.find?_eq_none]
    intro c hc
    have := mem_cellsFrom bs a c hc
    simp only [beq_iff_eq]; omega
  have keep (q : Nat → Bool) (hq : q x = true) :
      (m.filter fun c => q c.1).find? (fun c => c.1 == x) = m.find? fun c => c.1 == x := by
    rw [List.find?_filter]
    congr 1
    funext c
    by_cases hc : c.1 = x
    · simp [hc, hq]
    · simp [hc]
  have drop (q : Nat → Bool) (hq : q x = false) :
      (m.filter fun c => q c.1).find? (fun c => c.1 == x) = none := by
    rw [List.find?_eq_none]
    intro c hc
    have := (List.mem_filter.1 hc).2
    simp only [beq_iff_eq]
    intro hcx
    rw [hcx, hq] at this
    exact absurd this (by simp)
  rw [Memory.read, Memory.read, Memory.write, List.find?_append, List.find?_append, mid]
  rcases h with h | h
  · rw [keep (fun y => decide (y < a)) (by simpa using h), drop (fun y => decide (a + bs.length ≤ y)) (by simp; omega)]
    cases m.find? (fun c => c.1 == x) <;> rfl
  · rw [drop (fun y => decide (y < a)) (by simp; omega), keep (fun y => decide (a + bs.length ≤ y)) (by simpa using h)]
    cases m.find? (fun c => c.1 == x) <;> rfl

end Sys2Proof.Machine
end

