-- ==== Sys2Proof/Laws/Operands.lean ====
section
/-! SUPPORT. The course of an issue: what happens once the operands are ready, and what else can happen. -/

namespace Sys2Proof.Machine

/-- A list of checks that all pass. -/
theorem firstNotReady_go (check : Opnd → Ready) (os : List Opnd) (h : ∀ o ∈ os, check o = .go) :
    firstNotReady check os = .go := by
  induction os with
  | nil => rfl
  | cons o os ih => simp [firstNotReady, h o (by simp), ih fun p hp => h p (List.mem_cons_of_mem _ hp)]

/-- Src's checks pass on an operand that can be read. -/
theorem State.sourceReady_go (s : State) (o : Opnd) (h : s.canRead o) : s.sourceReady o = .go := by
  obtain ⟨-, hf, hb⟩ := h
  unfold State.sourceReady
  cases hq : s.me.bound o with
  | none => simp [hf]
  | some q =>
    obtain ⟨h1, h2⟩ := hb q hq
    simp [h1, h2, hf]

/-- A destination's checks pass on an operand that can be written. -/
theorem State.destReady_go (s : State) (o : Opnd) (h : s.canWrite o) : s.destReady o = .go := by
  obtain ⟨-, hb⟩ := h
  unfold State.destReady
  cases hq : s.me.bound o with
  | none => rw [hq] at hb; simpa using hb
  | some q => rw [hq] at hb; simp [hb.1, hb.2]

/-- The windows hold every operand that can be read or written. -/
theorem State.inWindow_all (s : State) (srcs dsts : List Opnd) (h : s.canIssue srcs dsts) :
    (srcs ++ dsts).all s.inWindow = true := by
  rw [List.all_eq_true]
  intro o ho
  rcases List.mem_append.1 ho with ho | ho
  · exact (h.1 o ho).1
  · exact (h.2.1 o ho).1

/-- Register-space operands wait for no earlier acquire. -/
theorem State.mayUse (s : State) (srcs dsts : List Opnd) (h : s.canIssue srcs dsts) :
    (!(srcs ++ dsts).all Opnd.isScalar && s.holdsLater s.cur) = false := by
  rcases h.2.2 with h | h <;> simp only [h, Bool.not_true, Bool.false_and, Bool.and_false]

/-- Sources that can be read are read. -/
theorem State.withSources_go (s : State) (info : Word) (srcs names : List Opnd) (k : State → State) (h : s.canIssue srcs names) :
    s.withSources info srcs names k = k s := by
  unfold State.withSources
  rw [s.inWindow_all srcs names h, s.mayUse srcs names h, firstNotReady_go _ _ fun o ho => s.sourceReady_go o (h.1 o ho)]
  rfl

/-- Destinations that can be written are not waited for. -/
theorem State.withDests_go (s : State) (info : Word) (dsts : List Opnd) (k : State → State) (h : ∀ o ∈ dsts, s.canWrite o) :
    s.withDests info dsts k = k s := by
  unfold State.withDests
  rw [firstNotReady_go _ _ fun o ho => s.destReady_go o (h o ho)]

/-- The effect of an instruction whose operands are ready and whose own trap condition does not hold. -/
theorem State.issue_go (s : State) (info : Word) (srcs dsts : List Opnd) (check : State → Option Nat)
    (k : State → State → State) (h : s.canIssue srcs dsts) (hc : check s = none) :
    s.issue info srcs dsts check k = k s (s.popAll srcs) := by
  unfold State.issue
  rw [s.withSources_go info srcs dsts _ h]
  simp only [hc]
  exact s.withDests_go info dsts _ h.2.1

/-- Everything an issue can do: a window trap, a wait for an earlier acquire, a stop at a source, the instruction's own trap, a stop at a destination, or
the effect. -/
theorem State.issue_cases (s : State) (info : Word) (srcs dsts : List Opnd) (check : State → Option Nat)
    (k : State → State → State) :
    (∃ c, s.issue info srcs dsts check k = s.trap c info) ∨ (∃ w, s.issue info srcs dsts check k = s.lend w) ∨
      (check s = none ∧ s.issue info srcs dsts check k = k s (s.popAll srcs)) := by
  unfold State.issue State.withSources
  split
  · exact .inl ⟨_, rfl⟩
  · split
    · exact .inr (.inl ⟨_, rfl⟩)
    · split
      · exact .inl ⟨_, rfl⟩
      · exact .inr (.inl ⟨_, rfl⟩)
      · dsimp only
        split
        · exact .inl ⟨_, rfl⟩
        · next hc =>
          unfold State.withDests
          split
          · exact .inl ⟨_, rfl⟩
          · exact .inr (.inl ⟨_, rfl⟩)
          · exact .inr (.inr ⟨hc, rfl⟩)

/-- Sources none of which is bound are left alone. -/
theorem State.popAll_unbound (s : State) (srcs : List Opnd) (h : ∀ o ∈ srcs, s.unbound o) : s.popAll srcs = s := by
  have : srcs.filterMap s.me.bound = [] := by
    rw [List.filterMap_eq_nil_iff]
    exact h
  simp [State.popAll, this]

/-- A scalar that is not bound is written. -/
theorem State.putS_unbound (s : State) (r : Reg) (x : Word) (h : s.unbound (.s r false)) :
    s.putS r x = s.modMe fun st => (st.put r x).setFull r := by
  unfold State.putS
  rw [show s.me.bound (.s r false) = none from h]

/-- Writing the register that reads zero changes nothing. -/
theorem Strand.put_setFull_zero (st : Strand) (x : Word) : (st.put 0 x).setFull 0 = st := by
  simp [Strand.put, Strand.setFull]

/-- What a register reads after another or the same one is written. -/
theorem Strand.get_put (st : Strand) (r q : Reg) (x : Word) :
    (st.put r x).get q = if q = r ∧ r ≠ 0 then x else st.get q := by
  unfold Strand.put Strand.get
  by_cases hr : r = 0
  · simp [hr]
  · by_cases hq : q = 0
    · have : ¬ (q = r ∧ r ≠ 0) := fun h => hr (h.1 ▸ hq)
      rw [if_pos hq, if_neg this, if_pos hq]
    · simp only [hr, hq, if_false, ne_eq, not_false_eq_true, and_true]
      by_cases h : q = r
      · subst h
        simp only [if_true]
        exact Vector.getElem_set_self _
      · have hn : r.toNat ≠ q.toNat := fun e => h (BitVec.eq_of_toNat_eq e.symm)
        simp only [h, if_false]
        exact Vector.getElem_set_ne _ _ hn

@[simp] theorem Strand.get_setFull (st : Strand) (r q : Reg) : (st.setFull r).get q = st.get q := by
  unfold Strand.setFull; split <;> rfl
@[simp] theorem Strand.get_setEmpty (st : Strand) (r q : Reg) : (st.setEmpty r).get q = st.get q := by
  unfold Strand.setEmpty; split <;> rfl

end Sys2Proof.Machine
end

