-- ==== Sys2Proof/Tests/Slice0.lean ====
section
/-! SUPPORT. Tests. Words written out from the spec's encoding tables, one ill-formed term for each well-formedness check, a small
step of each family, and for each statement's hypotheses a state that meets them. -/

namespace Sys2Proof.Tests

open Sys2Proof.Machine Sys2Proof.Claims

/-! ### A small machine -/

/-- The operands of a base word. -/
def rf (d a b : Reg) : RF := ⟨d, a, b, false, false, 0⟩
/-- The same with a qualifier. -/
def rq (d a b : Reg) (q : BitVec 2) : RF := ⟨d, a, b, false, false, q⟩
/-- An extension with a handle and a type. -/
def ex (h : BitVec 16) (t : BitVec 4) : Ext := ⟨h, 0, 0, 0, t, 0, 0⟩
/-- An extension with a word E2. -/
def e2 (w : BitVec 32) : Ext := ⟨0, 0, 0, 0, 0, 0, w⟩

/-- An extension of the offset mode or another. -/
def xm (m : BitVec 2) (w : BitVec 32) : Ext := ⟨0, 0, 0, 0, 0, m, w⟩
/-- An access extension: scope, order, mask, type, one coordinate s9. -/
def xa (scope : BitVec 4) (order mask : BitVec 3) (type : BitVec 4) : Ext := ⟨1, scope, order, mask, type, 1, 9⟩

/-- A crew of one strand at position 0: task 2 of PID 1, with 64 quanta, 8 slots and 2 accumulator slots. -/
def crew : Crew :=
  { task := 2, pid := 1, pos := [0], hold := ⟨64, 8, 2⟩, floor := ⟨32, 4, 1⟩, claim := ⟨128, 16, 4⟩, acMask := 3 }

/-- Its strand, with numbers in s1 to s4. -/
def strand0 : Strand :=
  { pc := 0x1000, s := (((Vector.replicate 32 0).set 1 64).set 2 7).set 3 0xFFFFFFFFFFFFFFFF#64 }

/-- A core with that crew. -/
def core0 : Core := { id := 0, strands := (Vector.replicate 17 {}).set 0 strand0, crews := [crew] }

/-- A machine in its hundredth cycle in which that strand is to issue. -/
def m0 : State := { cur := ⟨0, 0⟩, sel := true, cycle := 100, cores := [core0] }

/-! ### Hypotheses that a check decides -/

/-- Operands that no stream is bound to, that lie in the window, and whose bits let them be read or written; no acquire holds back those
in register space. -/
def ready (s : State) (srcs dsts : List Opnd) : Bool :=
  srcs.all (fun o => s.inWindow o && s.isFull o && (s.me.bound o).isNone) && dsts.all (fun o => s.inWindow o && s.isFree o && (s.me.bound o).isNone) &&
    ((srcs ++ dsts).all Opnd.isScalar || !s.holdsLater s.cur)

theorem canRead_of (s : State) (o : Opnd) (h : (s.inWindow o && s.isFull o && (s.me.bound o).isNone) = true) : s.canRead o := by
  simp only [Bool.and_eq_true, Option.isNone_iff_eq_none] at h
  exact ⟨h.1.1, h.1.2, fun q hq => by simp [h.2] at hq⟩

theorem canWrite_of (s : State) (o : Opnd) (h : (s.inWindow o && s.isFree o && (s.me.bound o).isNone) = true) : s.canWrite o := by
  simp only [Bool.and_eq_true, Option.isNone_iff_eq_none] at h
  exact ⟨h.1.1, by rw [h.2]; exact h.1.2⟩

theorem canIssue_of (s : State) (srcs dsts : List Opnd) (h : ready s srcs dsts = true) : s.canIssue srcs dsts := by
  simp only [ready, Bool.and_eq_true] at h
  obtain ⟨⟨h₁, h₂⟩, h₃⟩ := h
  exact ⟨fun o ho => canRead_of s o (List.all_eq_true.1 h₁ o ho), fun o ho => canWrite_of s o (List.all_eq_true.1 h₂ o ho), by simpa using h₃⟩

/-! ### Decoding: one word of every instruction row

Each word is the row's bits in spec/opcode_table.json, or LEN, major and OP of R33, R46 and R47 with the extension's fields of R36 and R37 and the
literal behind them, with operands of our own. -/

/-- The words of `n` bits decode to the instruction. -/
abbrev reads (n w : Nat) (i : Instr) : Prop := decodeTableWord n w = some i

set_option maxRecDepth 20000 in
theorem test_decode_zeroWord :
    reads 32 0x00000000 (.zeroWord) := by decide

set_option maxRecDepth 20000 in
theorem test_decode_integer_1 :
    reads 32 0x01188300 (.add ⟨3, 2, 1, true, false, 0⟩) ∧
    reads 32 0x01188301 (.sub ⟨3, 2, 1, true, false, 0⟩) ∧
    reads 32 0x01188302 (.mul ⟨3, 2, 1, true, false, 0⟩) ∧
    reads 32 0x01188323 (.mulh ⟨3, 2, 1, true, false, 1⟩) ∧
    reads 32 0x01188324 (.div ⟨3, 2, 1, true, false, 1⟩) ∧
    reads 32 0x01188325 (.rem ⟨3, 2, 1, true, false, 1⟩) ∧
    reads 32 0x01188306 (.and ⟨3, 2, 1, true, false, 0⟩) ∧
    reads 32 0x01188307 (.or ⟨3, 2, 1, true, false, 0⟩) ∧
    reads 32 0x01188308 (.xor ⟨3, 2, 1, true, false, 0⟩) ∧
    reads 32 0x01188309 (.shl ⟨3, 2, 1, true, false, 0⟩) ∧
    reads 32 0x0118830A (.shr ⟨3, 2, 1, true, false, 0⟩) ∧
    reads 32 0x0118830B (.sha ⟨3, 2, 1, true, false, 0⟩) ∧
    reads 32 0x0118832C (.min ⟨3, 2, 1, true, false, 1⟩) ∧
    reads 32 0x0118832D (.max ⟨3, 2, 1, true, false, 1⟩) ∧
    reads 32 0x0118810E (.clz ⟨3, 2, 0, true, false, 0⟩) ∧
    reads 32 0x0118810F (.popc ⟨3, 2, 0, true, false, 0⟩) ∧
    reads 32 0x01188130 (.sext ⟨3, 2, 0, true, false, 1⟩) ∧
    reads 96 0x0123456789ABCDEF81188100 (.addLiteral ⟨3, 2, 0, true, false, 0⟩ 0x123456789ABCDEF#64) ∧
    reads 96 0x0123456789ABCDEF81188101 (.subLiteral ⟨3, 2, 0, true, false, 0⟩ 0x123456789ABCDEF#64) ∧
    reads 96 0x0123456789ABCDEF81188102 (.mulLiteral ⟨3, 2, 0, true, false, 0⟩ 0x123456789ABCDEF#64) := by decide

set_option maxRecDepth 20000 in
theorem test_decode_integer_2 :
    reads 96 0x0123456789ABCDEF81188123 (.mulhLiteral ⟨3, 2, 0, true, false, 1⟩ 0x123456789ABCDEF#64) ∧
    reads 96 0x0123456789ABCDEF81188124 (.divLiteral ⟨3, 2, 0, true, false, 1⟩ 0x123456789ABCDEF#64) ∧
    reads 96 0x0123456789ABCDEF81188125 (.remLiteral ⟨3, 2, 0, true, false, 1⟩ 0x123456789ABCDEF#64) ∧
    reads 96 0x0123456789ABCDEF81188106 (.andLiteral ⟨3, 2, 0, true, false, 0⟩ 0x123456789ABCDEF#64) ∧
    reads 96 0x0123456789ABCDEF81188107 (.orLiteral ⟨3, 2, 0, true, false, 0⟩ 0x123456789ABCDEF#64) ∧
    reads 96 0x0123456789ABCDEF81188108 (.xorLiteral ⟨3, 2, 0, true, false, 0⟩ 0x123456789ABCDEF#64) ∧
    reads 96 0x0123456789ABCDEF81188109 (.shlLiteral ⟨3, 2, 0, true, false, 0⟩ 0x123456789ABCDEF#64) ∧
    reads 96 0x0123456789ABCDEF8118810A (.shrLiteral ⟨3, 2, 0, true, false, 0⟩ 0x123456789ABCDEF#64) ∧
    reads 96 0x0123456789ABCDEF8118810B (.shaLiteral ⟨3, 2, 0, true, false, 0⟩ 0x123456789ABCDEF#64) ∧
    reads 96 0x0123456789ABCDEF8118812C (.minLiteral ⟨3, 2, 0, true, false, 1⟩ 0x123456789ABCDEF#64) ∧
    reads 96 0x0123456789ABCDEF8118812D (.maxLiteral ⟨3, 2, 0, true, false, 1⟩ 0x123456789ABCDEF#64) := by decide

set_option maxRecDepth 20000 in
theorem test_decode_immediate :
    reads 32 0x0218BA50 (.addImmediate ⟨3, 2, true, 421⟩) ∧
    reads 32 0x0218BA51 (.subImmediate ⟨3, 2, true, 421⟩) ∧
    reads 32 0x0218BA52 (.mulImmediate ⟨3, 2, true, 421⟩) ∧
    reads 32 0x0218BA53 (.andImmediate ⟨3, 2, true, 421⟩) ∧
    reads 32 0x0218BA54 (.orImmediate ⟨3, 2, true, 421⟩) ∧
    reads 32 0x0218BA55 (.xorImmediate ⟨3, 2, true, 421⟩) ∧
    reads 32 0x0218A256 (.shlImmediate ⟨3, 2, true, 37⟩) ∧
    reads 32 0x0218A257 (.shrImmediate ⟨3, 2, true, 37⟩) ∧
    reads 32 0x0218A258 (.shaImmediate ⟨3, 2, true, 37⟩) := by decide

set_option maxRecDepth 20000 in
theorem test_decode_moves :
    reads 32 0x03188100 (.mov ⟨3, 2, 0, true, false, 0⟩) ∧
    reads 96 0x0123456789ABCDEF83180001 (.li ⟨3, 0, 0, false, false, 0⟩ 0x123456789ABCDEF#64) ∧
    reads 96 0x000900050000000243188102 (.bfx ⟨3, 2, 0, true, false, 0⟩ ⟨0, 0, 0, 0, 0, 2, 0x90005⟩) ∧
    reads 96 0x000900050000000243188103 (.bfi ⟨3, 2, 0, true, false, 0⟩ ⟨0, 0, 0, 0, 0, 2, 0x90005⟩) := by decide

set_option maxRecDepth 20000 in
theorem test_decode_mix :
    reads 32 0x04188300 (.mix ⟨3, 2, 1, true, false, 0⟩) := by decide

set_option maxRecDepth 20000 in
theorem test_decode_compare :
    reads 32 0x08008354 (.cmp ⟨0, 2, 1, true, false, 2⟩ 20) ∧
    reads 96 0x0123456789ABCDEF88008152 (.cmpLiteral ⟨0, 2, 0, true, false, 2⟩ 18 0x123456789ABCDEF#64) := by decide

set_option maxRecDepth 20000 in
theorem test_decode_compareImmediate :
    reads 32 0x0928A754 (.cmpImmediate ⟨2, true, 179, 2, 20⟩) := by decide

set_option maxRecDepth 20000 in
theorem test_decode_branches :
    reads 32 0x0A2FFFFE (.b 3145726) ∧
    reads 32 0x0A6FFFFE (.bl 3145726) := by decide

set_option maxRecDepth 20000 in
theorem test_decode_branchRegister :
    reads 32 0x0B008100 (.br ⟨0, 2, 0, true, false, 0⟩) ∧
    reads 32 0x0B008101 (.blr ⟨0, 2, 0, true, false, 0⟩) ∧
    reads 32 0x0B000002 (.ret) ∧
    reads 96 0x0000FFFF000000004B008103 (.loop ⟨0, 2, 0, true, false, 0⟩ ⟨0, 0, 0, 0, 0, 0, 0xFFFF⟩) ∧
    reads 32 0x0B000004 (.lbrk) := by decide

set_option maxRecDepth 20000 in
theorem test_decode_float :
    reads 32 0x0C188320 (.fadd ⟨3, 2, 1, true, false, 1⟩) ∧
    reads 32 0x0C188321 (.fsub ⟨3, 2, 1, true, false, 1⟩) ∧
    reads 32 0x0C188322 (.fmul ⟨3, 2, 1, true, false, 1⟩) ∧
    reads 32 0x0C188323 (.fdiv ⟨3, 2, 1, true, false, 1⟩) ∧
    reads 32 0x0C188304 (.fmin ⟨3, 2, 1, true, false, 0⟩) ∧
    reads 32 0x0C188305 (.fmax ⟨3, 2, 1, true, false, 0⟩) ∧
    reads 32 0x0C188126 (.fsqrt ⟨3, 2, 0, true, false, 1⟩) ∧
    reads 32 0x0C188327 (.fma ⟨3, 2, 1, true, false, 1⟩) := by decide

set_option maxRecDepth 20000 in
theorem test_decode_floatConvert :
    reads 32 0x0D188120 (.cvtfi ⟨3, 2, 0, true, false, 1⟩) ∧
    reads 32 0x0D188121 (.cvtfn ⟨3, 2, 0, true, false, 1⟩) ∧
    reads 32 0x0D188122 (.cvtif ⟨3, 2, 0, true, false, 1⟩) ∧
    reads 32 0x0D188123 (.cvtnf ⟨3, 2, 0, true, false, 1⟩) ∧
    reads 32 0x0D188104 (.fclass ⟨3, 2, 0, true, false, 0⟩) := by decide

set_option maxRecDepth 20000 in
theorem test_decode_floatTranscendental :
    reads 32 0x0E188100 (.fexp2 ⟨3, 2, 0, true, false, 0⟩) ∧
    reads 32 0x0E188101 (.flog2 ⟨3, 2, 0, true, false, 0⟩) ∧
    reads 32 0x0E188102 (.frcp ⟨3, 2, 0, true, false, 0⟩) ∧
    reads 32 0x0E188103 (.frsq ⟨3, 2, 0, true, false, 0⟩) := by decide

set_option maxRecDepth 20000 in
theorem test_decode_floatCompare :
    reads 32 0x0F008343 (.fcmp ⟨0, 2, 1, true, false, 2⟩ 3) := by decide

set_option maxRecDepth 20000 in
theorem test_decode_vector_1 :
    reads 32 0x10188320 (.vadd ⟨3, 2, 1, true, false, 1⟩) ∧
    reads 32 0x10188321 (.vsub ⟨3, 2, 1, true, false, 1⟩) ∧
    reads 32 0x10188322 (.vmul ⟨3, 2, 1, true, false, 1⟩) ∧
    reads 32 0x10188323 (.vmin ⟨3, 2, 1, true, false, 1⟩) ∧
    reads 32 0x10188324 (.vmax ⟨3, 2, 1, true, false, 1⟩) ∧
    reads 32 0x10188325 (.vand ⟨3, 2, 1, true, false, 1⟩) ∧
    reads 32 0x10188326 (.vor ⟨3, 2, 1, true, false, 1⟩) ∧
    reads 32 0x10188327 (.vxor ⟨3, 2, 1, true, false, 1⟩) ∧
    reads 32 0x10188348 (.vshl ⟨3, 2, 1, true, false, 2⟩) ∧
    reads 32 0x10188349 (.vshr ⟨3, 2, 1, true, false, 2⟩) ∧
    reads 32 0x1018834A (.vsha ⟨3, 2, 1, true, false, 2⟩) ∧
    reads 32 0x1018832B (.vdiv ⟨3, 2, 1, true, false, 1⟩) ∧
    reads 96 0x000000070000004D50188100 (.vaddExt ⟨3, 2, 0, true, false, 0⟩ ⟨0, 0, 0, 1, 3, 1, 0x7⟩) ∧
    reads 96 0x00000000000000C850188381 (.vsubExt ⟨3, 2, 1, true, true, 0⟩ ⟨0, 0, 0, 3, 2, 0, 0x0⟩) ∧
    reads 96 0x000000070000004D50188102 (.vmulExt ⟨3, 2, 0, true, false, 0⟩ ⟨0, 0, 0, 1, 3, 1, 0x7⟩) ∧
    reads 96 0x00000000000000C850188383 (.vminExt ⟨3, 2, 1, true, true, 0⟩ ⟨0, 0, 0, 3, 2, 0, 0x0⟩) ∧
    reads 96 0x000000070000004D50188104 (.vmaxExt ⟨3, 2, 0, true, false, 0⟩ ⟨0, 0, 0, 1, 3, 1, 0x7⟩) ∧
    reads 96 0x00000000000000C850188385 (.vandExt ⟨3, 2, 1, true, true, 0⟩ ⟨0, 0, 0, 3, 2, 0, 0x0⟩) ∧
    reads 96 0x000000070000004D50188106 (.vorExt ⟨3, 2, 0, true, false, 0⟩ ⟨0, 0, 0, 1, 3, 1, 0x7⟩) ∧
    reads 96 0x00000000000000C850188387 (.vxorExt ⟨3, 2, 1, true, true, 0⟩ ⟨0, 0, 0, 3, 2, 0, 0x0⟩) := by decide

set_option maxRecDepth 20000 in
theorem test_decode_vector_2 :
    reads 96 0x000000070000004D50188108 (.vshlExt ⟨3, 2, 0, true, false, 0⟩ ⟨0, 0, 0, 1, 3, 1, 0x7⟩) ∧
    reads 96 0x00000000000000C850188389 (.vshrExt ⟨3, 2, 1, true, true, 0⟩ ⟨0, 0, 0, 3, 2, 0, 0x0⟩) ∧
    reads 96 0x000000070000004D5018810A (.vshaExt ⟨3, 2, 0, true, false, 0⟩ ⟨0, 0, 0, 1, 3, 1, 0x7⟩) ∧
    reads 96 0x00000000000000EC5018838B (.vdivExt ⟨3, 2, 1, true, true, 0⟩ ⟨0, 0, 0, 3, 11, 0, 0x0⟩) := by decide

set_option maxRecDepth 20000 in
theorem test_decode_vectorFused :
    reads 32 0x11188320 (.vfma ⟨3, 2, 1, true, false, 1⟩) ∧
    reads 32 0x11188321 (.vfms ⟨3, 2, 1, true, false, 1⟩) ∧
    reads 32 0x11188122 (.vabs ⟨3, 2, 0, true, false, 1⟩) ∧
    reads 32 0x11188123 (.vneg ⟨3, 2, 0, true, false, 1⟩) ∧
    reads 32 0x11188124 (.vsqrt ⟨3, 2, 0, true, false, 1⟩) ∧
    reads 32 0x11188325 (.vsel ⟨3, 2, 1, true, false, 1⟩) ∧
    reads 96 0x000000000000017051188380 (.vfmaExt ⟨3, 2, 1, true, true, 0⟩ ⟨0, 0, 0, 5, 12, 0, 0x0⟩) ∧
    reads 96 0x000000000000017051188381 (.vfmsExt ⟨3, 2, 1, true, true, 0⟩ ⟨0, 0, 0, 5, 12, 0, 0x0⟩) ∧
    reads 96 0x000000000000017051188102 (.vabsExt ⟨3, 2, 0, true, false, 0⟩ ⟨0, 0, 0, 5, 12, 0, 0x0⟩) ∧
    reads 96 0x000000000000017051188103 (.vnegExt ⟨3, 2, 0, true, false, 0⟩ ⟨0, 0, 0, 5, 12, 0, 0x0⟩) ∧
    reads 96 0x000000000000017051188104 (.vsqrtExt ⟨3, 2, 0, true, false, 0⟩ ⟨0, 0, 0, 5, 12, 0, 0x0⟩) ∧
    reads 96 0x000000000000017051188385 (.vselExt ⟨3, 2, 1, true, true, 0⟩ ⟨0, 0, 0, 5, 12, 0, 0x0⟩) := by decide

set_option maxRecDepth 20000 in
theorem test_decode_vectorCompare :
    reads 32 0x12188323 (.vcmp ⟨3, 2, 1, true, false, 1⟩ 3) ∧
    reads 96 0x000000000000009852188384 (.vcmpExt ⟨3, 2, 1, true, true, 0⟩ 4 ⟨0, 0, 0, 2, 6, 0, 0x0⟩) := by decide

set_option maxRecDepth 20000 in
theorem test_decode_masks :
    reads 32 0x13188300 (.mand ⟨3, 2, 1, true, false, 0⟩) ∧
    reads 32 0x13188301 (.mor ⟨3, 2, 1, true, false, 0⟩) ∧
    reads 32 0x13188302 (.mxor ⟨3, 2, 1, true, false, 0⟩) ∧
    reads 32 0x13188103 (.mnot ⟨3, 2, 0, true, false, 0⟩) ∧
    reads 32 0x13188104 (.mpopc ⟨3, 2, 0, true, false, 0⟩) := by decide

set_option maxRecDepth 20000 in
theorem test_decode_vectorConvert :
    reads 32 0x14188123 (.vcvt ⟨3, 2, 0, true, false, 1⟩ 3) ∧
    reads 96 0x000000030000010054188122 (.vcvtExt ⟨3, 2, 0, true, false, 1⟩ 2 ⟨0, 0, 0, 4, 0, 0, 0x3⟩) := by decide

set_option maxRecDepth 20000 in
theorem test_decode_vectorTranscendental :
    reads 32 0x15188100 (.vexp2 ⟨3, 2, 0, true, false, 0⟩) ∧
    reads 32 0x15188101 (.vlog2 ⟨3, 2, 0, true, false, 0⟩) ∧
    reads 32 0x15188102 (.vrcp ⟨3, 2, 0, true, false, 0⟩) ∧
    reads 32 0x15188103 (.vrsq ⟨3, 2, 0, true, false, 0⟩) ∧
    reads 32 0x15188104 (.vexp ⟨3, 2, 0, true, false, 0⟩) ∧
    reads 96 0x00000000000001AC55188100 (.vexp2Ext ⟨3, 2, 0, true, false, 0⟩ ⟨0, 0, 0, 6, 11, 0, 0x0⟩) ∧
    reads 96 0x00000000000001AC55188101 (.vlog2Ext ⟨3, 2, 0, true, false, 0⟩ ⟨0, 0, 0, 6, 11, 0, 0x0⟩) ∧
    reads 96 0x00000000000001AC55188102 (.vrcpExt ⟨3, 2, 0, true, false, 0⟩ ⟨0, 0, 0, 6, 11, 0, 0x0⟩) ∧
    reads 96 0x00000000000001AC55188103 (.vrsqExt ⟨3, 2, 0, true, false, 0⟩ ⟨0, 0, 0, 6, 11, 0, 0x0⟩) ∧
    reads 96 0x00000000000001AC55188104 (.vexpExt ⟨3, 2, 0, true, false, 0⟩ ⟨0, 0, 0, 6, 11, 0, 0x0⟩) := by decide

set_option maxRecDepth 20000 in
theorem test_decode_reductions :
    reads 32 0x18188120 (.vrsum ⟨3, 2, 0, true, false, 1⟩) ∧
    reads 32 0x18188121 (.vrmax ⟨3, 2, 0, true, false, 1⟩) ∧
    reads 32 0x18188122 (.vrmin ⟨3, 2, 0, true, false, 1⟩) ∧
    reads 32 0x18188123 (.vscan ⟨3, 2, 0, true, false, 1⟩) ∧
    reads 32 0x18188124 (.vscanX ⟨3, 2, 0, true, false, 1⟩) ∧
    reads 96 0x00000000000001DC58188100 (.vrsumExt ⟨3, 2, 0, true, false, 0⟩ ⟨0, 0, 0, 7, 7, 0, 0x0⟩) ∧
    reads 96 0x00000000000001DC58188101 (.vrmaxExt ⟨3, 2, 0, true, false, 0⟩ ⟨0, 0, 0, 7, 7, 0, 0x0⟩) ∧
    reads 96 0x00000000000001DC58188102 (.vrminExt ⟨3, 2, 0, true, false, 0⟩ ⟨0, 0, 0, 7, 7, 0, 0x0⟩) ∧
    reads 96 0x00000000000001DC58188103 (.vscanExt ⟨3, 2, 0, true, false, 0⟩ ⟨0, 0, 0, 7, 7, 0, 0x0⟩) ∧
    reads 96 0x00000000000001DC58188104 (.vscanXExt ⟨3, 2, 0, true, false, 0⟩ ⟨0, 0, 0, 7, 7, 0, 0x0⟩) := by decide

set_option maxRecDepth 20000 in
theorem test_decode_permutes :
    reads 32 0x19188300 (.vperm ⟨3, 2, 1, true, false, 0⟩) ∧
    reads 96 0x0000007F0000004059188100 (.vpermRotate ⟨3, 2, 0, true, false, 0⟩ ⟨0, 0, 0, 1, 0, 0, 0x7F⟩) ∧
    reads 32 0x19188101 (.vbcast ⟨3, 2, 0, true, false, 0⟩) ∧
    reads 96 0x000000000000004059188101 (.vbcastExt ⟨3, 2, 0, true, false, 0⟩ ⟨0, 0, 0, 1, 0, 0, 0x0⟩) ∧
    reads 32 0x19188302 (.vins ⟨3, 2, 1, true, false, 0⟩) ∧
    reads 96 0x000000640000000059188102 (.vinsImmediate ⟨3, 2, 0, true, false, 0⟩ ⟨0, 0, 0, 0, 0, 0, 0x64⟩) ∧
    reads 32 0x19188203 (.vext ⟨3, 2, 1, false, false, 0⟩) ∧
    reads 96 0x000000640000008059188283 (.vextImmediate ⟨3, 2, 1, false, true, 0⟩ ⟨0, 0, 0, 2, 0, 0, 0x64⟩) ∧
    reads 32 0x19188104 (.vtrans ⟨3, 2, 0, true, false, 0⟩) ∧
    reads 32 0x19188105 (.viota ⟨3, 2, 0, true, false, 0⟩) ∧
    reads 96 0x000000000000008059188105 (.viotaExt ⟨3, 2, 0, true, false, 0⟩ ⟨0, 0, 0, 2, 0, 0, 0x0⟩) := by decide

set_option maxRecDepth 20000 in
theorem test_decode_topK :
    reads 32 0x1A008300 (.vtopkAdd ⟨0, 2, 1, true, false, 0⟩) ∧
    reads 96 0x00000000000000B05A008380 (.vtopkAddExt ⟨0, 2, 1, true, true, 0⟩ ⟨0, 0, 0, 2, 12, 0, 0x0⟩) ∧
    reads 32 0x1A188001 (.vtopkDrain ⟨3, 2, 0, false, false, 0⟩) ∧
    reads 32 0x1A008102 (.vtopkClr ⟨0, 2, 0, true, false, 0⟩) := by decide

set_option maxRecDepth 20000 in
theorem test_decode_windows :
    reads 32 0x1B188100 (.wadd ⟨3, 2, 0, true, false, 0⟩) ∧
    reads 96 0x00000000000000AC5B188100 (.waddExt ⟨3, 2, 0, true, false, 0⟩ ⟨0, 0, 0, 2, 11, 0, 0x0⟩) ∧
    reads 32 0x1B188301 (.waddm ⟨3, 2, 1, true, false, 0⟩) ∧
    reads 96 0x00000000000000B05B188381 (.waddmExt ⟨3, 2, 1, true, true, 0⟩ ⟨0, 0, 0, 2, 12, 0, 0x0⟩) ∧
    reads 32 0x1B188122 (.wrnd ⟨3, 2, 0, true, false, 1⟩) ∧
    reads 96 0x00000000000000B05B188122 (.wrndExt ⟨3, 2, 0, true, false, 1⟩ ⟨0, 0, 0, 2, 12, 0, 0x0⟩) ∧
    reads 32 0x1B188123 (.wmean ⟨3, 2, 0, true, false, 1⟩) ∧
    reads 96 0x00000000000000805B188123 (.wmeanExt ⟨3, 2, 0, true, false, 1⟩ ⟨0, 0, 0, 2, 0, 0, 0x0⟩) ∧
    reads 32 0x1B188324 (.wscale ⟨3, 2, 1, true, false, 1⟩) ∧
    reads 96 0x00000000000000B05B1883A4 (.wscaleExt ⟨3, 2, 1, true, true, 1⟩ ⟨0, 0, 0, 2, 12, 0, 0x0⟩) := by decide

set_option maxRecDepth 20000 in
theorem test_decode_views :
    reads 32 0x1C008320 (.setview ⟨0, 2, 1, true, false, 1⟩) ∧
    reads 32 0x1C188101 (.vmov ⟨3, 2, 0, true, false, 0⟩) ∧
    reads 32 0x1C188102 (.spld ⟨3, 2, 0, true, false, 0⟩) ∧
    reads 96 0x00008001000000005C188102 (.spldOffset ⟨3, 2, 0, true, false, 0⟩ ⟨0, 0, 0, 0, 0, 0, 0x8001⟩) ∧
    reads 32 0x1C008303 (.spst ⟨0, 2, 1, true, false, 0⟩) ∧
    reads 96 0x00008001000000005C008383 (.spstOffset ⟨0, 2, 1, true, true, 0⟩ ⟨0, 0, 0, 0, 0, 0, 0x8001⟩) := by decide

set_option maxRecDepth 20000 in
theorem test_decode_streams :
    reads 96 0x00100128123400255D188000 (.sopen ⟨3, 2, 0, false, false, 0⟩ ⟨4660, 0, 0, 0, 9, 1, 0x100128⟩) ∧
    reads 32 0x1D188001 (.stend ⟨3, 2, 0, false, false, 0⟩) ∧
    reads 32 0x1D008002 (.sclose ⟨0, 2, 0, false, false, 0⟩) := by decide

set_option maxRecDepth 20000 in
theorem test_decode_fibers :
    reads 96 0x00000000123400005E188380 (.fopen ⟨3, 2, 1, true, true, 0⟩ ⟨4660, 0, 0, 0, 0, 0, 0x0⟩) ∧
    reads 32 0x1E188001 (.fadv ⟨3, 2, 0, false, false, 0⟩) ∧
    reads 32 0x1E188002 (.ftend ⟨3, 2, 0, false, false, 0⟩) ∧
    reads 32 0x1E008003 (.fclose ⟨0, 2, 0, false, false, 0⟩) ∧
    reads 32 0x1E188204 (.fisect ⟨3, 2, 1, false, false, 0⟩) := by decide

set_option maxRecDepth 20000 in
theorem test_decode_slots :
    reads 32 0x20188120 (.ldSlot ⟨3, 2, 0, true, false, 1⟩) ∧
    reads 96 0x000000090000001560188160 (.ldSlotExt ⟨3, 2, 0, true, false, 3⟩ ⟨0, 0, 0, 0, 5, 1, 0x9⟩) ∧
    reads 32 0x20188122 (.vldSlot ⟨3, 2, 0, true, false, 1⟩) ∧
    reads 96 0x00003FFF0000012460188122 (.vldSlotExt ⟨3, 2, 0, true, false, 1⟩ ⟨0, 0, 0, 4, 9, 0, 0x3FFF⟩) ∧
    reads 32 0x20008301 (.stSlot ⟨0, 2, 1, true, false, 0⟩) ∧
    reads 96 0x000000100000002060008381 (.stSlotExt ⟨0, 2, 1, true, true, 0⟩ ⟨0, 0, 0, 0, 8, 0, 0x10⟩) ∧
    reads 32 0x20008303 (.vstSlot ⟨0, 2, 1, true, false, 0⟩) ∧
    reads 96 0x000000100000012860008383 (.vstSlotExt ⟨0, 2, 1, true, true, 0⟩ ⟨0, 0, 0, 4, 10, 0, 0x10⟩) ∧
    reads 96 0x040000000000000260008104 (.setfeE ⟨0, 2, 0, true, false, 0⟩ ⟨0, 0, 0, 0, 0, 2, 0x4000000⟩) ∧
    reads 96 0x000103FF0000000260008124 (.setfeF ⟨0, 2, 0, true, false, 1⟩ ⟨0, 0, 0, 0, 0, 2, 0x103FF⟩) ∧
    reads 96 0x004000070000000260188105 (.tstfe ⟨3, 2, 0, true, false, 0⟩ ⟨0, 0, 0, 0, 0, 2, 0x400007⟩) := by decide

set_option maxRecDepth 20000 in
theorem test_decode_keys :
    reads 32 0x21188320 (.klook ⟨3, 2, 1, true, false, 1⟩) ∧
    reads 96 0x0123456789ABCDEFA11802A0 (.klookLiteral ⟨3, 0, 1, false, true, 1⟩ 0x123456789ABCDEF#64) ∧
    reads 96 0x0000000900000001611883E1 (.kbind ⟨3, 2, 1, true, true, 3⟩ ⟨0, 0, 0, 0, 0, 1, 0x9⟩) ∧
    reads 160 0x0123456789ABCDEF0000000900000001E11802C1 (.kbindLiteral ⟨3, 0, 1, false, true, 2⟩ ⟨0, 0, 0, 0, 0, 1, 0x9⟩ 0x123456789ABCDEF#64) ∧
    reads 32 0x21188302 (.kpin ⟨3, 2, 1, true, false, 0⟩) ∧
    reads 96 0x0123456789ABCDEFA1180282 (.kpinLiteral ⟨3, 0, 1, false, true, 0⟩ 0x123456789ABCDEF#64) ∧
    reads 32 0x21188303 (.kunpin ⟨3, 2, 1, true, false, 0⟩) ∧
    reads 96 0x0123456789ABCDEFA1180283 (.kunpinLiteral ⟨3, 0, 1, false, true, 0⟩ 0x123456789ABCDEF#64) ∧
    reads 32 0x21188304 (.kunbind ⟨3, 2, 1, true, false, 0⟩) ∧
    reads 96 0x0123456789ABCDEFA1180284 (.kunbindLiteral ⟨3, 0, 1, false, true, 0⟩ 0x123456789ABCDEF#64) ∧
    reads 32 0x21180005 (.kvict ⟨3, 0, 0, false, false, 0⟩) ∧
    reads 32 0x21188106 (.kstat ⟨3, 2, 0, true, false, 0⟩) ∧
    reads 96 0x0123456789ABCDEFA1180006 (.kstatLiteral ⟨3, 0, 0, false, false, 0⟩ 0x123456789ABCDEF#64) := by decide

set_option maxRecDepth 20000 in
theorem test_decode_sharedMaps :
    reads 96 0x00000000003F0000621883A0 (.kmlook ⟨3, 2, 1, true, true, 1⟩ ⟨63, 0, 0, 0, 0, 0, 0x0⟩) ∧
    reads 160 0x0123456789ABCDEF00000000003F0000E21802A0 (.kmlookLiteral ⟨3, 0, 1, false, true, 1⟩ ⟨63, 0, 0, 0, 0, 0, 0x0⟩ 0x123456789ABCDEF#64) ∧
    reads 96 0x00000009003F0001621883A1 (.kmbind ⟨3, 2, 1, true, true, 1⟩ ⟨63, 0, 0, 0, 0, 1, 0x9⟩) ∧
    reads 160 0x0123456789ABCDEF00000009003F0001E21802A1 (.kmbindLiteral ⟨3, 0, 1, false, true, 1⟩ ⟨63, 0, 0, 0, 0, 1, 0x9⟩ 0x123456789ABCDEF#64) ∧
    reads 96 0x00000000003F000062188382 (.kmpin ⟨3, 2, 1, true, true, 0⟩ ⟨63, 0, 0, 0, 0, 0, 0x0⟩) ∧
    reads 160 0x0123456789ABCDEF00000000003F0000E2180282 (.kmpinLiteral ⟨3, 0, 1, false, true, 0⟩ ⟨63, 0, 0, 0, 0, 0, 0x0⟩ 0x123456789ABCDEF#64) ∧
    reads 96 0x00000000003F000062188383 (.kmunpin ⟨3, 2, 1, true, true, 0⟩ ⟨63, 0, 0, 0, 0, 0, 0x0⟩) ∧
    reads 160 0x0123456789ABCDEF00000000003F0000E2180283 (.kmunpinLiteral ⟨3, 0, 1, false, true, 0⟩ ⟨63, 0, 0, 0, 0, 0, 0x0⟩ 0x123456789ABCDEF#64) ∧
    reads 96 0x00000000003F000062188384 (.kmunbind ⟨3, 2, 1, true, true, 0⟩ ⟨63, 0, 0, 0, 0, 0, 0x0⟩) ∧
    reads 160 0x0123456789ABCDEF00000000003F0000E2180284 (.kmunbindLiteral ⟨3, 0, 1, false, true, 0⟩ ⟨63, 0, 0, 0, 0, 0, 0x0⟩ 0x123456789ABCDEF#64) ∧
    reads 96 0x00000000003F000062188105 (.kmstat ⟨3, 2, 0, true, false, 0⟩ ⟨63, 0, 0, 0, 0, 0, 0x0⟩) ∧
    reads 160 0x0123456789ABCDEF00000000003F0000E2180005 (.kmstatLiteral ⟨3, 0, 0, false, false, 0⟩ ⟨63, 0, 0, 0, 0, 0, 0x0⟩ 0x123456789ABCDEF#64) := by decide

set_option maxRecDepth 20000 in
theorem test_decode_layouts :
    reads 96 0x00000000FFFF000064008380 (.lnarrow ⟨0, 2, 1, true, true, 0⟩ ⟨65535, 0, 0, 0, 0, 0, 0x0⟩) ∧
    reads 96 0x00000007FFFF000064180001 (.lread ⟨3, 0, 0, false, false, 0⟩ ⟨65535, 0, 0, 0, 0, 0, 0x7⟩) ∧
    reads 96 0x00000007FFFF000064008102 (.lwrite ⟨0, 2, 0, true, false, 0⟩ ⟨65535, 0, 0, 0, 0, 0, 0x7⟩) := by decide

set_option maxRecDepth 20000 in
theorem test_decode_deviceAccess :
    reads 96 0x000000090102921965180020 (.ldDevice ⟨3, 0, 0, false, false, 1⟩ ⟨258, 9, 1, 0, 6, 1, 0x9⟩) ∧
    reads 96 0x000000090102941165008101 (.stDevice ⟨0, 2, 0, true, false, 0⟩ ⟨258, 9, 2, 0, 4, 1, 0x9⟩) ∧
    reads 96 0x00320C410102996965180022 (.vldDevice ⟨3, 0, 0, false, false, 1⟩ ⟨258, 9, 4, 5, 10, 1, 0x320C41⟩) ∧
    reads 96 0x000000090102956565008103 (.vstDevice ⟨0, 2, 0, true, false, 0⟩ ⟨258, 9, 2, 5, 9, 1, 0x9⟩) := by decide

set_option maxRecDepth 20000 in
theorem test_decode_gatherScatter :
    reads 96 0x000000000102036866188100 (.gather ⟨3, 2, 0, true, false, 0⟩ ⟨258, 0, 1, 5, 10, 0, 0x0⟩) ∧
    reads 96 0x000000090102956566008381 (.scatter ⟨0, 2, 1, true, true, 0⟩ ⟨258, 9, 2, 5, 9, 1, 0x9⟩) := by decide

set_option maxRecDepth 20000 in
theorem test_decode_atomics :
    reads 96 0x000000090102962167188100 (.aadd ⟨3, 2, 0, true, false, 0⟩ ⟨258, 9, 3, 0, 8, 1, 0x9⟩) ∧
    reads 96 0x000000090102962167188101 (.amin ⟨3, 2, 0, true, false, 0⟩ ⟨258, 9, 3, 0, 8, 1, 0x9⟩) ∧
    reads 96 0x000000090102962167188102 (.amax ⟨3, 2, 0, true, false, 0⟩ ⟨258, 9, 3, 0, 8, 1, 0x9⟩) ∧
    reads 96 0x000000090102962167188103 (.aand ⟨3, 2, 0, true, false, 0⟩ ⟨258, 9, 3, 0, 8, 1, 0x9⟩) ∧
    reads 96 0x000000090102962167188104 (.aor ⟨3, 2, 0, true, false, 0⟩ ⟨258, 9, 3, 0, 8, 1, 0x9⟩) ∧
    reads 96 0x000000090102962167188105 (.axor ⟨3, 2, 0, true, false, 0⟩ ⟨258, 9, 3, 0, 8, 1, 0x9⟩) ∧
    reads 96 0x000000090102962167188106 (.aswap ⟨3, 2, 0, true, false, 0⟩ ⟨258, 9, 3, 0, 8, 1, 0x9⟩) ∧
    reads 96 0x000000090102962167188387 (.acas ⟨3, 2, 1, true, true, 0⟩ ⟨258, 9, 3, 0, 8, 1, 0x9⟩) ∧
    reads 96 0x000000090102962167188388 (.acas4 ⟨3, 2, 1, true, true, 0⟩ ⟨258, 9, 3, 0, 8, 1, 0x9⟩) ∧
    reads 96 0x000000090102962167188109 (.aenq ⟨3, 2, 0, true, false, 0⟩ ⟨258, 9, 3, 0, 8, 1, 0x9⟩) ∧
    reads 96 0x00000009000042016718838A (.achase ⟨3, 2, 1, true, true, 0⟩ ⟨0, 4, 1, 0, 0, 1, 0x9⟩) := by decide

set_option maxRecDepth 20000 in
theorem test_decode_locks :
    reads 96 0x000000090102922168180000 (.rwrd ⟨3, 0, 0, false, false, 0⟩ ⟨258, 9, 1, 0, 8, 1, 0x9⟩) ∧
    reads 96 0x000000090102962168180001 (.rwwr ⟨3, 0, 0, false, false, 0⟩ ⟨258, 9, 3, 0, 8, 1, 0x9⟩) ∧
    reads 96 0x000000090102942168000002 (.rwrdx ⟨0, 0, 0, false, false, 0⟩ ⟨258, 9, 2, 0, 8, 1, 0x9⟩) ∧
    reads 96 0x000000090102982168000003 (.rwwrx ⟨0, 0, 0, false, false, 0⟩ ⟨258, 9, 4, 0, 8, 1, 0x9⟩) ∧
    reads 96 0x000000090102902168180024 (.rwtry ⟨3, 0, 0, false, false, 1⟩ ⟨258, 9, 0, 0, 8, 1, 0x9⟩) ∧
    reads 96 0x000000090102922168180005 (.ldsync ⟨3, 0, 0, false, false, 0⟩ ⟨258, 9, 1, 0, 8, 1, 0x9⟩) ∧
    reads 96 0x000000090102942168008106 (.stsync ⟨0, 2, 0, true, false, 0⟩ ⟨258, 9, 2, 0, 8, 1, 0x9⟩) := by decide

set_option maxRecDepth 20000 in
theorem test_decode_waitne :
    reads 96 0x000000090102921D69188100 (.waitne ⟨3, 2, 0, true, false, 0⟩ ⟨258, 9, 1, 0, 7, 1, 0x9⟩) := by decide

set_option maxRecDepth 20000 in
theorem test_decode_chains :
    reads 32 0x2A188D00 (.chapp ⟨3, 2, 6, true, false, 0⟩) ∧
    reads 32 0x2A008D01 (.chwait ⟨0, 2, 6, true, false, 0⟩) ∧
    reads 32 0x2A180C02 (.chseq ⟨3, 0, 6, false, false, 0⟩) := by decide

set_option maxRecDepth 20000 in
theorem test_decode_bulkAndReuse :
    reads 32 0x2B008100 (.btset ⟨0, 2, 0, true, false, 0⟩) ∧
    reads 32 0x2B188101 (.bten ⟨3, 2, 0, true, false, 0⟩) ∧
    reads 32 0x2B008102 (.rbset ⟨0, 2, 0, true, false, 0⟩) := by decide

set_option maxRecDepth 20000 in
theorem test_decode_accumulators :
    reads 32 0x2C008300 (.msave ⟨0, 2, 1, true, false, 0⟩) ∧
    reads 32 0x2C188301 (.mload ⟨3, 2, 1, true, false, 0⟩) ∧
    reads 32 0x2C008102 (.mzero ⟨0, 2, 0, true, false, 0⟩) := by decide

set_option maxRecDepth 20000 in
theorem test_decode_channels :
    reads 32 0x2E008D00 (.send ⟨0, 2, 6, true, false, 0⟩) ∧
    reads 32 0x2E180C01 (.recv ⟨3, 0, 6, false, false, 0⟩) ∧
    reads 32 0x2E188C02 (.recvnb ⟨3, 2, 6, false, false, 0⟩) ∧
    reads 32 0x2E000C03 (.eos ⟨0, 0, 6, false, false, 0⟩) := by decide

set_option maxRecDepth 20000 in
theorem test_decode_park :
    reads 32 0x2F000000 (.parkRes) ∧
    reads 32 0x2F000020 (.parkPool) := by decide

set_option maxRecDepth 20000 in
theorem test_decode_barriers :
    reads 32 0x30180400 (.barrive ⟨3, 0, 2, false, false, 0⟩) ∧
    reads 32 0x30180401 (.bwait ⟨3, 0, 2, false, false, 0⟩) ∧
    reads 32 0x30180402 (.bsync ⟨3, 0, 2, false, false, 0⟩) ∧
    reads 32 0x30180403 (.bdrop ⟨3, 0, 2, false, false, 0⟩) := by decide

set_option maxRecDepth 20000 in
theorem test_decode_devnum :
    reads 32 0x32180000 (.devnum ⟨3, 0, 0, false, false, 0⟩) := by decide

set_option maxRecDepth 20000 in
theorem test_decode_multicast :
    reads 96 0x07FF00030000A40273188100 (.mcst ⟨3, 2, 0, true, false, 0⟩ ⟨0, 10, 2, 0, 0, 2, 0x7FF0003⟩) := by decide

set_option maxRecDepth 20000 in
theorem test_decode_sleet :
    reads 96 0x001000290102000174008380 (.slsend ⟨0, 2, 1, true, true, 0⟩ ⟨258, 0, 0, 0, 0, 1, 0x100029⟩) := by decide

set_option maxRecDepth 20000 in
theorem test_decode_reduce :
    reads 96 0x000000030000A02C75188280 (.reduce ⟨3, 2, 1, false, true, 0⟩ ⟨0, 10, 0, 0, 11, 0, 0x3⟩) := by decide

set_option maxRecDepth 20000 in
theorem test_decode_crews :
    reads 32 0x36188120 (.claim ⟨3, 2, 0, true, false, 1⟩) ∧
    reads 96 0x0000FFFF0000000076180040 (.claimImmediate ⟨3, 0, 0, false, false, 2⟩ ⟨0, 0, 0, 0, 0, 0, 0xFFFF⟩) ∧
    reads 32 0x36188121 (.acq ⟨3, 2, 0, true, false, 1⟩) ∧
    reads 96 0x0000FFFF0000000076180041 (.acqImmediate ⟨3, 0, 0, false, false, 2⟩ ⟨0, 0, 0, 0, 0, 0, 0xFFFF⟩) ∧
    reads 32 0x36188122 (.acqNb ⟨3, 2, 0, true, false, 1⟩) ∧
    reads 96 0x0000FFFF0000000076180042 (.acqNbImmediate ⟨3, 0, 0, false, false, 2⟩ ⟨0, 0, 0, 0, 0, 0, 0xFFFF⟩) ∧
    reads 32 0x36008123 (.rel ⟨0, 2, 0, true, false, 1⟩) ∧
    reads 96 0x0000FFFF0000000076000043 (.relImmediate ⟨0, 0, 0, false, false, 2⟩ ⟨0, 0, 0, 0, 0, 0, 0xFFFF⟩) := by decide

set_option maxRecDepth 20000 in
theorem test_decode_trapReturn :
    reads 96 0x0000FFFF0000000078000000 (.trap ⟨0, 0, 0, false, false, 0⟩ ⟨0, 0, 0, 0, 0, 0, 0xFFFF⟩) ∧
    reads 32 0x38000001 (.returnOp) := by decide

set_option maxRecDepth 20000 in
theorem test_decode_control :
    reads 96 0x000001030000000079180000 (.crrd ⟨3, 0, 0, false, false, 0⟩ ⟨0, 0, 0, 0, 0, 0, 0x103⟩) ∧
    reads 96 0x000001030000000079008101 (.crwr ⟨0, 2, 0, true, false, 0⟩ ⟨0, 0, 0, 0, 0, 0, 0x103⟩) := by decide

set_option maxRecDepth 20000 in
theorem test_decode_order :
    reads 32 0x3A000020 (.fence ⟨0, 0, 0, false, false, 1⟩) ∧
    reads 96 0x000000030000A8007A000020 (.fenceExt ⟨0, 0, 0, false, false, 1⟩ ⟨0, 10, 4, 0, 0, 0, 0x3⟩) ∧
    reads 32 0x3A008101 (.ppoint ⟨0, 2, 0, true, false, 0⟩) ∧
    reads 32 0x3A000002 (.yield) ∧
    reads 32 0x3A000003 (.halt) := by decide

set_option maxRecDepth 20000 in
theorem test_decode_translation :
    reads 32 0x3B008300 (.tlbinv ⟨0, 2, 1, true, false, 0⟩) ∧
    reads 32 0x3B000001 (.replay) := by decide

set_option maxRecDepth 20000 in
theorem test_decode_breakWord :
    reads 32 0xFFFFFFFF (.breakWord) := by decide

/-- Words that the spec prints for its examples (R99 sub s4, s0, s4 to setview.v s4, s5): each decodes to what its assembly says. -/
theorem test_specWords_1 :
    reads 32 0x01200801 (.sub (rf 4 0 4)) ∧
    reads 32 0x024A0387 (.shrImmediate ⟨9, 8, false, 56⟩) ∧
    reads 96 0x0008003800000002432A0002 (.bfx (rf 5 8 0) (xm 2 0x80038)) ∧
    reads 32 0x04318E00 (.mix (rf 6 6 7)) ∧
    reads 32 0x09024020 (.cmpImmediate ⟨9, false, 0, 1, 0⟩) ∧
    reads 32 0x0A3FFFFA (.b (-6)) ∧
    reads 32 0x0A400028 (.bl 40) ∧
    reads 96 0x00000002000000004B00C003 (.loop (rf 0 3 0) (xm 0 2)) ∧
    reads 32 0x0D214020 (.cvtfi (rq 4 5 0 1)) ∧
    reads 96 0x000000020000000079200000 (.crrd (rf 4 0 0) (xm 0 2)) ∧
    reads 96 0x000000200000000076280001 (.acqImmediate (rq 5 0 0 0) (xm 0 32)) ∧
    reads 96 0x000000020000000076380042 (.acqNbImmediate (rq 7 0 0 2) (xm 0 2)) ∧
    reads 96 0x000000040000000076300040 (.claimImmediate (rq 6 0 0 2) (xm 0 4)) ∧
    reads 32 0x1C010A00 (.setview (rf 0 4 5)) := by decide

/-- Words that the spec prints for its examples (spst s16, sk, #8 to waitne.n64.acq.die s8, 5, s0, s0): each decodes to what its assembly says. -/
theorem test_specWords_2 :
    reads 96 0x00000008000000005C043E03 (.spstOffset (rf 0 16 31) (xm 0 8)) ∧
    reads 96 0x00100062000900015D100000 (.sopen (rf 2 0 0) ⟨9, 0, 0, 0, 0, 1, 0x100062⟩) ∧
    reads 32 0x1D480001 (.stend (rf 9 0 0)) ∧
    reads 32 0x1D000002 (.sclose (rf 0 0 0)) ∧
    reads 32 0x1E200204 (.fisect (rf 4 0 1)) ∧
    reads 96 0x040000000000000260050004 (.setfeE (rf 0 20 0) (xm 2 0x4000000)) ∧
    reads 96 0x0040000000000002604B0005 (.tstfe (rf 9 12 0) (xm 2 0x400000)) ∧
    reads 32 0x21600005 (.kvict (rf 12 0 0)) ∧
    reads 32 0x214A8006 (.kstat (rf 9 10 0)) ∧
    reads 96 0x000000000003000062429620 (.kmlook (rq 8 10 11 1) (ex 3 0)) ∧
    reads 96 0x0000000D0003000162429621 (.kmbind (rq 8 10 11 1) ⟨3, 0, 0, 0, 0, 1, 13⟩) ∧
    reads 96 0x00000002000350316638C000 (.gather (rf 7 3 0) ⟨3, 5, 0, 0, 12, 1, 2⟩) ∧
    reads 32 0x3B010A00 (.tlbinv (rf 0 4 5)) ∧
    reads 96 0x000000000005422169400000 (.waitne (rf 8 0 0) ⟨5, 4, 1, 0, 8, 1, 0⟩) := by decide

/-- Words that the spec prints for its examples (mzero s4 to slsend s9, 60, s2, v5): each decodes to what its assembly says. -/
theorem test_specWords_3 :
    reads 32 0x2C010002 (.mzero (rf 0 4 0)) ∧
    reads 32 0x2C010A00 (.msave (rf 0 4 5)) ∧
    reads 32 0x3A01C001 (.ppoint (rf 0 7 0)) ∧
    reads 96 0x00000002000000005430C003 (.vcvtExt (rf 6 3 0) 3 (xm 0 2)) ∧
    reads 32 0x154A0004 (.vexp (rf 9 8 0)) ∧
    reads 32 0x1820C000 (.vrsum (rf 4 3 0)) ∧
    reads 96 0x000000070000000059298603 (.vextImmediate (rf 5 6 3) (xm 0 7)) ∧
    reads 32 0x19080004 (.vtrans (rf 1 0 0)) ∧
    reads 96 0x000200010000A4027331C000 (.mcst (rf 6 7 0) ⟨0, 10, 2, 0, 0, 2, 0x20001⟩) ∧
    reads 32 0x32200000 (.devnum (rf 4 0 0)) ∧
    reads 96 0x000000050000000078000000 (.trap (rf 0 0 0) (xm 0 5)) ∧
    reads 96 0x000001120000000079010001 (.crwr (rf 0 4 0) (xm 0 0x112)) ∧
    reads 96 0x000000020007520168200001 (.rwwr (rf 4 0 0) ⟨7, 5, 1, 0, 0, 1, 2⟩) ∧
    reads 96 0x00000002003C000174015200 (.slsend (rf 0 5 9) ⟨60, 0, 0, 0, 0, 1, 2⟩) := by decide

/-! ### Well-formedness: an ill-formed term for each check, which the check refuses, beside a well-formed one -/

/-- Refused terms. -/
abbrev ill (l : List Instr) : Prop := l.all (fun i => !i.wf) = true
/-- Accepted terms. -/
abbrev well (l : List Instr) : Prop := l.all Instr.wf = true

/-- R45: a register outside its class (w, t, m, q, f, the chain and the membership field), and a register where the form has none. -/
theorem test_wf_class :
    ill [.wadd (rf 8 0 0), .vtrans (rf 8 0 0), .vtrans (rf 0 8 0), .mand (rf 8 0 0), .mand (rf 0 8 0), .waddm (rf 0 0 8), .stend (rf 1 8 0), .fadv (rf 1 4 0),
      .fisect (rf 1 0 4), .chwait (rf 0 1 8), .bwait (rf 1 0 4), .clz (rf 1 2 3), .br (rf 1 2 0), .devnum (rf 1 2 0)] ∧
    well [.wadd (rf 7 31 0), .vtrans (rf 7 7 0), .mand (rf 7 7 7), .stend (rf 1 7 0), .fisect (rf 1 3 3), .chwait (rf 0 1 7), .bwait (rf 1 0 3), .send (rf 0 1 31)] := by
  decide

/-- R34: an empty policy where the row has no such operand or none that takes one; a QF that the row does not list. -/
theorem test_wf_policy_and_qf :
    ill [.clz ⟨1, 2, 0, false, true, 0⟩, .recvnb ⟨1, 2, 0, true, false, 0⟩, .add (rq 1 2 3 1), .div (rq 1 2 3 2), .fmin (rq 1 2 3 1), .vshl (rq 1 2 3 0), .vdiv (rq 1 2 3 2),
      .setview (rq 0 1 2 3), .fence (rq 0 0 0 2), .claim (rq 1 2 0 3)] ∧
    well [.clz ⟨1, 2, 0, true, false, 0⟩, .div (rq 1 2 3 1), .vshl (rq 1 2 3 2), .setview (rq 0 1 2 2), .fence (rq 0 0 0 1)] := by decide

/-- R34, R48: a condition or a conversion that there is none of, and a rounding mode on a conversion that does not round. -/
theorem test_wf_op :
    ill [.cmp (rf 0 1 2) 8, .cmp (rf 0 1 2) 0x10, .cmpImmediate ⟨1, false, 3, 0, 0x16⟩, .fcmp (rf 0 1 2) 8, .vcmp (rf 0 1 2) 9, .vcvt (rf 1 2 0) 17, .vcvt (rq 1 2 0 1) 1] ∧
    well [.cmp (rf 0 1 2) 7, .cmp (rf 0 1 2) 0x12, .fcmp (rf 0 1 2) 7, .vcvt (rf 1 2 0) 16, .vcvt (rq 1 2 0 1) 0] := by decide

/-- R35, R259: a shift by 64, two equal destinations of a drain, an event. -/
theorem test_wf_relations :
    ill [.shlImmediate ⟨1, 2, false, 64⟩, .vtopkDrain (rf 3 3 0), .issueTurn 0] ∧
    well [.shlImmediate ⟨1, 2, false, 63⟩, .addImmediate ⟨1, 2, false, 511⟩, .vtopkDrain (rf 3 4 0)] := by decide

/-- R37, R46: immediates out of range, a bit field past bit 63, a granule range past slot's end, an unused field that is not 0. -/
theorem test_wf_immediates :
    ill [.loop (rf 0 1 0) (xm 0 0), .loop (rf 0 1 0) (xm 1 5), .loop (rf 0 1 0) (xm 0 0x10001), .loop (rf 0 1 0) { xm 0 5 with mask := 1 }, .bfx (rf 1 2 0) (xm 2 60),
      .bfx (rf 1 2 0) (xm 2 0x5003C), .vpermRotate (rf 1 2 0) (xm 0 128), .crrd (rf 1 0 0) (xm 0 4096), .lread (rf 1 0 0) (xm 0 8), .setfeE (rf 0 1 0) (xm 2 0x203FF),
      .tstfe (rf 1 2 0) (xm 2 0x410000), .ldSlotExt (rf 1 2 0) (xm 0 16384), .vcvtExt (rf 1 2 0) 0 (xm 0 2), .kbind (rf 1 2 3) (xm 0 9), .fopen (rf 0 1 2) (xm 0 1)] ∧
    well [.loop (rf 0 1 0) (xm 0 5), .bfx (rf 1 2 0) (xm 2 0x4003C), .vpermRotate (rf 1 2 0) { xm 0 127 with mask := 1 }, .crrd (rf 1 0 0) (xm 0 4095),
      .setfeE (rf 0 1 0) (xm 2 0x103FF), .tstfe (rf 1 2 0) (xm 2 0x400000), .vcvtExt (rf 1 2 0) 0 (xm 0 1), .kbind (rf 1 2 3) (xm 1 9)] := by decide

/-- R36-R43: a SCOPE, an ORDER, a TYPE or a MASK that the form does not take, a handle that is no map, too few registers or a stray one. -/
theorem test_wf_extensions :
    ill [.vaddExt (rf 1 2 3) { xm 0 0 with type := 4 }, .vaddExt (rq 1 2 3 1) { xm 0 0 with type := 3 }, .vaddExt (rf 1 2 3) (xm 1 9), .vabsExt (rf 1 2 0) { xm 0 0 with type := 7 },
      .vexp2Ext (rf 1 2 0) { xm 0 0 with type := 3 }, .stSlotExt (rf 0 1 2) { xm 0 0 with mask := 1 }, .kmlook (rf 1 2 3) { xm 0 0 with handle := 64 },
      .kmbind (rf 1 2 3) (xm 0 0), .lnarrow (rf 0 1 2) { xm 0 0 with scope := 1 }, .ldDevice (rf 1 0 0) (xa 10 0 0 0), .ldDevice (rf 1 0 0) (xa 0 2 0 0),
      .ldDevice (rf 1 0 0) (xa 0 0 1 0), .ldDevice (rf 1 0 0) (xa 0 0 0 9), .ldDevice (rf 1 0 0) { xa 0 0 0 0 with e2 := 0x129 }, .ldDevice (rf 1 0 0) (xm 0 0),
      .achase (rf 1 2 3) (xa 0 0 0 0), .sopen (rf 1 0 0) (xa 0 1 0 0), .mcst (rf 1 2 0) { xm 2 0x20000 with scope := 9 }, .mcst (rf 1 2 0) { xm 2 0x10000 with scope := 10 },
      .slsend (rf 0 1 2) (xa 1 0 0 0), .reduce (rf 1 2 3) { xm 0 0 with scope := 10, type := 3 }, .fenceExt (rf 0 0 0) { xm 0 1 with scope := 9 }] ∧
    well [.vaddExt (rf 1 2 3) { xm 0 0 with type := 3 }, .vaddExt (rf 1 2 0) (xm 1 9), .kmlook (rf 1 2 3) { xm 0 0 with handle := 63 }, .ldDevice (rf 1 0 0) (xa 9 4 0 8),
      .achase (rf 1 2 3) { xa 9 4 0 0 with handle := 0 }, .mcst (rf 1 2 0) { xm 2 0x20003 with scope := 10 }, .reduce (rf 1 2 3) { xm 0 3 with scope := 10, type := 11 },
      .fenceExt (rf 0 0 0) { xm 0 3 with scope := 10 }] := by decide

theorem witness_DecodeAndEncodeAgree :
    (Instr.vldDevice ⟨31, 0, 0, false, false, 1⟩ ⟨0xFFFF, 9, 4, 7, 12, 1, 0x3FFFFF⟩).wf = true ∧ Instr.halt.wf = true ∧
    decode [3, 0, 0, 0x3A, 1, 2, 3] = .ok .halt := by decide

/-! ### What a word that is no instruction decodes to (R32, R38-R46) -/

theorem test_decode_refuses :
    decodeTableWord 32 0x3F000000 = none ∧ decodeTableWord 32 0x01000011 = none ∧ decodeTableWord 64 0x41000000 = none ∧ decodeTableWord 32 0x0A800000 = none ∧
    decodeTableWord 32 0x0B000005 = none ∧ decodeTableWord 32 0x2F000040 = none ∧ decodeTableWord 32 0x38000041 = none ∧ decodeTableWord 32 0x09000080 = none ∧
    decode [3, 0, 0] = .error .truncated := by decide

/-! ### One step of an instruction, its results by hand from its rule -/

/-- The state after an instruction; one without a core where the instruction does not complete. -/
def next (i : Instr) (s : State) : State :=
  match exec i s with
  | .next t => t
  | _ => { s with cores := [] }

/-- The instruction answers a next state with this value in s4, and the PC behind a word. -/
abbrev gives (s : State) (i : Instr) (v : Word) : Prop := (next i s).me.s[4] = v ∧ (next i s).me.pc = 0x1004

/-- The instruction sends this value for s4 on its way, and leaves s4 empty until it lands (R61). -/
abbrev sends (s : State) (i : Instr) (v : Word) : Prop :=
  (next i s).pending.map (·.ev) = [.deliver ⟨s.cur, .crew 2, [(4, v)], [], [], []⟩] ∧ (next i s).me.isFull 4 = false ∧ (next i s).me.pc = 0x1004

/-- R99 on 64, 7 and -1. -/
theorem test_integer :
    gives m0 (.add (rf 4 1 2)) 71 ∧ gives m0 (.add (rf 4 3 2)) 6 ∧ gives m0 (.sub (rf 4 2 1)) 0xFFFFFFFFFFFFFFC7#64 ∧ gives m0 (.mul (rf 4 3 2)) 0xFFFFFFFFFFFFFFF9#64 ∧
    gives m0 (.mulh (rf 4 3 2)) 0xFFFFFFFFFFFFFFFF#64 ∧ gives m0 (.mulh (rq 4 3 2 1)) 6 ∧ gives m0 (.min (rf 4 3 2)) 0xFFFFFFFFFFFFFFFF#64 ∧
    gives m0 (.max (rf 4 3 2)) 7 ∧ gives m0 (.max (rq 4 3 2 1)) 0xFFFFFFFFFFFFFFFF#64 := by decide

/-- R99: division goes on its way; by 0 it gives all ones, the remainder x. -/
theorem test_division :
    sends m0 (.div (rf 4 1 2)) 9 ∧ sends m0 (.rem (rf 4 1 2)) 1 ∧ sends m0 (.div (rf 4 1 3)) 0xFFFFFFFFFFFFFFC0#64 ∧ sends m0 (.div (rq 4 1 3 1)) 0 ∧
    sends m0 (.div (rf 4 1 5)) 0xFFFFFFFFFFFFFFFF#64 ∧ sends m0 (.rem (rf 4 1 5)) 64 := by decide

/-- R99: a shift takes y[5:0], which of 64 is 0. -/
theorem test_logicAndShifts :
    gives m0 (.and (rf 4 3 1)) 64 ∧ gives m0 (.or (rf 4 1 2)) 71 ∧ gives m0 (.xor (rf 4 3 2)) 0xFFFFFFFFFFFFFFF8#64 ∧ gives m0 (.shl (rf 4 2 2)) 896 ∧
    gives m0 (.shl (rf 4 2 1)) 7 ∧ gives m0 (.shr (rf 4 3 2)) 0x01FFFFFFFFFFFFFF#64 ∧ gives m0 (.sha (rf 4 3 2)) 0xFFFFFFFFFFFFFFFF#64 ∧
    gives m0 (.clz (rf 4 1 0)) 57 ∧ gives m0 (.popc (rf 4 3 0)) 64 ∧ gives m0 (.sext (rf 4 1 0)) 64 := by decide

/-- R100-R102. -/
theorem test_immediatesAndMoves :
    gives m0 (.addImmediate ⟨4, 1, false, 0x1FF⟩) 63 ∧ gives m0 (.shaImmediate ⟨4, 3, false, 63⟩) 0xFFFFFFFFFFFFFFFF#64 ∧ gives m0 (.mov (rf 4 2 0)) 7 ∧
    (next (.li (rf 4 0 0) 0xFEDCBA9876543210#64) m0).me.s[4] = 0xFEDCBA9876543210#64 ∧
    (next (.bfx (rf 4 2 0) (xm 2 0x20001)) m0).me.s[4] = 3 ∧ (next (.bfi (rf 2 1 0) (xm 2 0x30001)) m0).me.s[2] = 1 ∧ gives m0 (.mix (rf 4 0 0)) 0 := by decide

/-- R105, R106: targets count from the branch's own address; the link is the next one. -/
theorem test_branches :
    (next (.b 1) m0).me.pc = 0x1004 ∧ (next (.b (-1)) m0).me.pc = 0xFFC ∧ (next (.bl 4) m0).me.s[30] = 0x1004 ∧ (next (.bl 4) m0).me.pc = 0x1010 ∧
    (next (.br (rf 0 1 0)) m0).me.pc = 64 ∧ (next (.blr (rf 0 1 0)) m0).me.s[30] = 0x1004 ∧ (next .ret m0).me.pc = 0 := by decide

/-- R103: 64 = 7 fails and annuls the next instruction, 64 = 64 holds; -1 < 7 as signed, not as unsigned. -/
theorem test_compare :
    (next (.cmp (rq 0 1 2 1) 0) m0).me.annul = 1 ∧ (next (.cmp (rq 0 1 1 1) 0) m0).me.annul = 0 ∧
    (next (.cmp (rq 0 3 2 3) 2) m0).me.annul = 0 ∧ (next (.cmp (rq 0 3 2 3) 0x12) m0).me.annul = 3 := by decide

/-- R107: the loop of 7 turns opens, and one of 0 turns skips its body. -/
theorem test_loop :
    (next (.loop (rf 0 2 0) (xm 0 2)) m0).me.pc = 0x100C ∧ (next (.loop (rf 0 2 0) (xm 0 2)) m0).me.loops.length = 1 ∧
    (next (.loop (rf 0 5 0) (xm 0 2)) m0).me.pc = 0x1014 ∧ (next (.loop (rf 0 5 0) (xm 0 2)) m0).me.loops = [] := by decide

/-- 1.0 and 3.0 in s5 and s6. -/
def mf : State := m0.modMe fun st => { st with s := (st.s.set 5 0x3F800000).set 6 0x40400000 }

/-- R110: the bit patterns of 2, 9, -2, and of 1/3 to nearest and toward 0. -/
theorem test_float :
    gives mf (.fadd (rf 4 5 5)) 0x40000000 ∧ gives mf (.fmul (rf 4 6 6)) 0x41100000 ∧ gives mf (.fsub (rf 4 5 6)) 0xC0000000 ∧
    sends mf (.fdiv (rf 4 5 6)) 0x3EAAAAAB ∧ sends mf (.fdiv (rq 4 5 6 1)) 0x3EAAAAAA ∧ gives mf (.fmin (rf 4 5 6)) 0x3F800000 := by decide +kernel

/-- The strand stands at the handler, privileged, with this cause (NEST set), resume address and information (R350, R351). -/
abbrev traps (i : Instr) (code : Nat) (resume info : Word) : Prop :=
  let t := (next i m0).me
  t.pc = 0x8000000000000000#64 ∧ t.priv = true ∧ t.trapCause = BitVec.ofNat 64 (2 ^ 61 + code) ∧ t.trapPc = resume ∧ t.trapInfo = info

/-- R49, R52, R354: Zero Word, BREAK without debug, RETURN and HALT in user mode, a branch to 7, and TRAP #5, which alone resumes behind itself. -/
theorem test_traps :
    traps .zeroWord 0x01 0x1000 0 ∧ traps .breakWord 0x02 0x1000 0 ∧ traps .returnOp 0x04 0x1000 0 ∧ traps .halt 0x04 0x1000 0 ∧
    traps (.br (rf 0 2 0)) 0x05 0x1000 0 ∧ traps (.trap (rf 0 0 0) (xm 0 5)) 0x07 0x100C 5 := by decide

/-- R357: RETURN in the handler goes back to TRAP_PC, in the mode that TRAP_CAUSE holds. -/
theorem test_return :
    let t := (next .returnOp (m0.modMe fun st => { st with priv := true, trapPc := 0x2000, trapCause := 0x2000000000000007#64 })).me
    t.pc = 0x2000 ∧ t.priv = false ∧ t.trapCause.getLsbD 61 = false := by decide

/-- R351: the handler writes TRAP_PC; user mode has no access to it (R113). -/
theorem test_controlRegisters :
    (next (.crwr (rf 0 1 0) (xm 0 0x100)) (m0.modMe fun st => { st with priv := true })).me.trapPc = 64 ∧
    (next (.crrd (rf 4 0 0) (xm 0 0x100)) (m0.modMe fun st => { st with priv := true, trapPc := 0x2000 })).me.s[4] = 0x2000 ∧
    (next (.crrd (rf 4 0 0) (xm 0 2)) m0).me.pc = 0x100C ∧ (next (.crrd (rf 4 0 0) (xm 0 0x100)) m0).me.pc = 0x8000000000000000#64 := by decide

/-! ### For the hypotheses of each statement, a state that meets them together, with one for each of its clauses where they differ -/


/-! ### The statements' hypotheses are met: scalar instructions, control flow and traps -/

theorem witness_ScalarResults :
    m0.canIssue [.s 1 false, .s 2 false] [.s 3 false] ∧ m0.canIssue [.s 1 false] [.s 3 false] ∧
    m0.canIssue [] [.s 0 false] ∧ m0.canIssue [.s 1 false, .s 31 false] [.s 31 false] :=
  ⟨canIssue_of _ _ _ (by decide), canIssue_of _ _ _ (by decide), canIssue_of _ _ _ (by decide), canIssue_of _ _ _ (by decide)⟩

theorem witness_MixIsABijection : m0.canIssue [.s 6 false, .s 7 false] [.s 6 false] := canIssue_of _ _ _ (by decide)

theorem witness_ControlFlow_compares : m0.canIssue [.s 1 false, .s 2 false] [] ∧ m0.canIssue [.s 1 true] [] :=
  ⟨canIssue_of _ _ _ (by decide), canIssue_of _ _ _ (by decide)⟩

theorem witness_ScalarFloats : m0.canIssue [.s 1 false, .s 2 false, .s 4 false] [.s 4 false] ∧ m0.canIssue [.s 1 false] [.s 4 false] ∧
    m0.canIssue [.s 1 false, .s 2 false] [.s 0 false] :=
  ⟨canIssue_of _ _ _ (by decide), canIssue_of _ _ _ (by decide), canIssue_of _ _ _ (by decide)⟩

theorem witness_FloatRounding :
    (Fmt.f32.decode 0x7FC00000).isNan = true ∧ (Fmt.bf16.decode 0x7FC0).isNan = true ∧
    Fmt.f32.decode 0x7F800000 = .inf false ∧ Fmt.f32.decode 0xFF800000 = .inf true ∧
    Fmt.f32.decode 0x80000000 = .fin true 0 (-149) ∧ Fmt.f32.decode 0 = .fin false 0 (-149) ∧
    Fmt.f32.decode 0x3F800000 = .fin false 8388608 (-23) ∧ Fmt.f32.decode 0xBF800000 = .fin true 8388608 (-23) ∧
    scaledTo (-23) false 8388608 (-23) = scaledTo (-23) false 8388608 (-23) ∧
    0x3F800000 < 2 ^ Fmt.f32.width ∧ 0x3F800000 = Fmt.f32.round .rz false ⟨false, 8388608, -23, false⟩ := by decide

/-- One above 2^24 lies half way between two FP32 candidates, of which the even one is the lower; e4m3's largest value is 448. -/
theorem witness_FloatRounding_candidates :
    (2 ^ 24 + 1 ≠ 0 ∧ Fmt.f32.roundVal .rne false (.fin false (2 ^ 24 + 1) 0) = 0x4B800000 ∧ Fmt.f32.roundVal .rne false (.fin false (2 ^ 24 + 3) 0) = 0x4B800002 ∧
      Fmt.f32.roundVal .ru false (.fin false (2 ^ 24 + 1) 0) = 0x4B800001 ∧ Fmt.f32.roundVal .rd false (.fin true (2 ^ 24 + 1) 0) = 0xCB800001 ∧
      Fmt.f32.roundVal .rz false (.fin true (2 ^ 24 + 1) 0) = 0xCB800000) ∧
    (Fmt.e4m3.roundVal .rne true (.fin false 1000 0) = 0x7E ∧ Fmt.e4m3.roundVal .rne false (.fin false 1000 0) = 0x7F) := by decide

theorem witness_OperandsAndRetirement : m0.cur.pos < 17 ∧ m0.unbound (.s 0 false) ∧ m0.unbound (.s 31 false) :=
  ⟨by decide, by unfold State.unbound; decide, by unfold State.unbound; decide⟩

theorem witness_ControlFlow : m0.canIssue [] [.s 30 false] ∧ m0.canIssue [.s 1 false] [] ∧ m0.canIssue [.s 30 false] [] ∧
    m0.canIssue [.s 1 false] [.s 30 false] :=
  ⟨canIssue_of _ _ _ (by decide), canIssue_of _ _ _ (by decide), canIssue_of _ _ _ (by decide), canIssue_of _ _ _ (by decide)⟩

theorem witness_YieldForSixteenCycles : m0.cur.pos < 17 ∧
    ((m0.modMe fun st => { st with yielding := true }).strand ⟨0, 0⟩).yielding = true := by decide

/-- A job whose tasks are debugged by their owner. -/
def job1 : Job :=
  { pid := 1, root := 0, layout := 0, tasksAt := 0, chansAt := 0, groupsAt := 0, smapDir := 0, jobArea := 0, sendStall := 0, nchan := 0,
    tag := 9, dbg := true, live := true, wide := false, done := false, tasks := [], chans := [], groups := [], barriers := [], seqs := [], members := [],
    rounds := [], waits := [], nextRound := [], early := [] }

/-- The small machine with a job. -/
def withJob (j : Job) : State := { m0 with jobs := [j] }

/-- The small machine in a handler. -/
def inHandler (s : State) : State :=
  s.modMe fun st => { st with priv := true, trapCause := 0x6C00000000000007#64, trapPc := 0x2000, aside := [⟨3, 0x2000, 0x2010⟩] }

/-- A late fault. -/
def late1 : LateFault := ⟨0x40, 0x1000, 5, false, false, 0, 0⟩

theorem witness_TrapEntry_exact : m0.cur.pos < 17 ∧ 0x10 < 256 ∧ m0.me.annul < 4 ∧ m0.me.trapCause.getLsbD 61 = false := by decide

theorem witness_TrapEntry_break :
    (let s : State := { withJob job1 with bar := { dbg := 1 } }
     s.job? (s.pidOf s.cur) = some job1 ∧ (s.bar.dbg = 2 ∨ (s.bar.dbg = 1 ∧ job1.dbg = true))) ∧
    (withJob job1).job? ((withJob job1).pidOf (withJob job1).cur) = some job1 ∧
    (withJob job1).bar.dbg ≠ 2 ∧ ¬((withJob job1).bar.dbg = 1 ∧ job1.dbg = true) := by decide

theorem witness_TrapEntry_late :
    let s := m0.modMe fun st => { st with late := [late1] }
    (s.strand ⟨0, 0⟩).late = late1 :: [] ∧ (s.strand ⟨0, 0⟩).trapCause.getLsbD 61 = false ∧ (s.strand ⟨0, 0⟩).wait = none := by decide

theorem witness_TrapEntry_double :
    ((inHandler m0).cur.pos < 17 ∧ (inHandler m0).me.trapCause.getLsbD 61 = true ∧ (inHandler m0).cur.core < 256 ∧
      (inHandler m0).cur.pos < 16 ∧ (inHandler m0).ownerOf (inHandler m0).cur ≠ .chain7) ∧
    (let s := inHandler { m0 with cur := ⟨0, 16⟩ }
     s.cur.pos = 16 ∧ s.cur.core < 256 ∧ s.me.trapCause.getLsbD 61 = true) ∧
    (let s := inHandler { m0 with cur := ⟨256, 0⟩ }
     256 ≤ s.cur.core ∧ s.me.trapCause.getLsbD 61 = true) := by decide

theorem witness_ReturnFromTrap : (inHandler m0).cur.pos < 17 ∧ (inHandler m0).me.priv = true ∧ m0.me.priv = false ∧
    strand0.annul < 4 ∧ strand0.aside = [] ∧ strand0.wait = none ∧ strand0.spin = none := by decide

/-! ### Vector instructions -/

theorem witness_VectorArithmeticForms :
    widthOf (typeNamed (rf 3 1 2) none) ∈ [8, 16, 32] ∧ typeNamed (rf 3 1 2) none ∈ [11, 12] ∧
    min 32 (widthOf (typeNamed (rf 3 1 2) (some (ex 0 8)))) ∈ [8, 16, 32] ∧ widthOf (typeNamed (rf 3 1 2) (some (ex 0 1))) ∈ [8, 16, 32] ∧
    m0.canIssue [.v 1 false, secondOperand (rf 3 1 2) none] [.v 3 false] ∧
    m0.canIssue [.v 31 false, secondOperand (rf 31 31 0) (some { ex 0 1 with xm := 1 })] [.v 31 false] ∧
    m0.canIssue [.v 1 false, secondOperand (rf 3 1 2) none, .v 3 false] [.v 3 false] ∧ m0.canIssue [.v 1 false] [.v 3 false] :=
  ⟨by decide, by decide, by decide, by decide, canIssue_of _ _ _ (by decide), canIssue_of _ _ _ (by decide), canIssue_of _ _ _ (by decide),
    canIssue_of _ _ _ (by decide)⟩

set_option maxRecDepth 4000 in
theorem witness_VectorArithmeticForms_write :
    m0.placed ∧ m0.unbound (.v 31 false) ∧ (List.replicate 128 (7 : W32)).length = 128 ∧ (List.replicate 128 true).length = 128 :=
  ⟨⟨by decide, by decide⟩, by unfold State.unbound; decide, by decide, by decide⟩

theorem witness_VectorComparesAndConversions :
    (7#5).toNat < 8 ∧ widthOf (typeNamed (rf 3 1 2) (some (ex 0 11))) ∈ [8, 16, 32] ∧ 7 < 8 ∧ (1 : Nat) ≠ 7 ∧
    m0.canIssue [.v 1 false, secondOperand (rf 3 1 2) (some (ex 0 11))] [] ∧ m0.canIssue [] [.s 4 false] ∧
    (16#5).toNat ≤ 16 ∧ m0.canIssue [.v 1 false] [.v 3 false] ∧
    (3 = (match some (e2 3) with | none => 0 | some x => x.immA) ∧ (8 ≤ (16#5).toNat ∧ (16#5).toNat ≤ 11 → 3 = 0)) ∧
    0 = (match (none : Option Ext) with | none => 0 | some x => x.immA) :=
  ⟨by decide, by decide, by decide, by decide, canIssue_of _ _ _ (by decide), canIssue_of _ _ _ (by decide), by decide, canIssue_of _ _ _ (by decide),
    by decide, by decide⟩

theorem witness_VectorFunctions :
    widthOf (floatNamed (rf 3 1 0) none) ∈ [8, 16, 32] ∧ typeNamed (rf 3 1 0) none ∈ [3, 7, 11, 12] ∧
    typeNamed (rf 3 1 0) (some (ex 0 11)) ∈ [3, 7, 11, 12] ∧ m0.canIssue [.v 1 false] [.s 4 false] ∧ m0.canIssue [.v 1 false] [.v 3 false] ∧
    (∀ p ∈ [0xFFFFFFFF, 0], p < 2 ^ 32) ∧ ([0xFFFFFFFF, 0] : List Nat) ≠ [] :=
  ⟨by decide, by decide, by decide, canIssue_of _ _ _ (by decide), canIssue_of _ _ _ (by decide), by decide, by decide⟩

theorem witness_PermutesAndTopK :
    m0.canIssue [.v 1 false, .v 2 false] [.v 3 false] ∧ m0.canIssue [.s 1 false] [.v 3 false] ∧
    m0.canIssue [.s 1 false, .s 2 false, .v 3 false] [.v 3 false] ∧ m0.canIssue [.v 2 false] [.s 3 false, .s 4 false] ∧
    m0.canIssue [.tile 7 false] [.tile 0 false] ∧ m0.canIssue [.v 1 false, .s 2 false] [] ∧ m0.canIssue [] [.v 3 false, .v 4 false] ∧
    m0.canIssue [.s 1 false] [] ∧ m0.me.topk.cands.length ≤ m0.me.topk.k ∧
    m0.me.topk.cands.Pairwise fun c d => outranks d c = false :=
  ⟨canIssue_of _ _ _ (by decide), canIssue_of _ _ _ (by decide), canIssue_of _ _ _ (by decide), canIssue_of _ _ _ (by decide),
    canIssue_of _ _ _ (by decide), canIssue_of _ _ _ (by decide), canIssue_of _ _ _ (by decide), canIssue_of _ _ _ (by decide), by decide, by decide⟩

/-- A full buffer of one candidate, 2 of index 9, and a lane that outranks it, one of the same value and a lower index, and a NaN behind both. -/
theorem witness_PermutesAndTopK_places :
    let all : List (W32 × W32) := [(0x40000000, 9), (0x40400000, 1), (0x7FC00000, 0), (0x40000000, 3)]
    ([(0x40000000, 9)] : List (W32 × W32)).length ≤ 1 ∧ placeIn all 1 = 0 ∧ placeIn all 3 = 1 ∧ placeIn all 0 = 2 ∧ placeIn all 2 = 3 := by decide

set_option maxRecDepth 20000 in
theorem witness_WindowAccumulators :
    m0.windowBusy 3 = false ∧ m0.windowBusy 7 = false ∧ m0.canIssue [.v 1 false, .w 3 false] [.w 3 false] ∧
    m0.canIssue [.w 7 false] [.w 7 false, .v 3 false] ∧ m0.canIssue [.w 7 false, .s 2 false] [.w 7 false, .v 3 false] ∧
    (m0.windowLanes 7)[127]?.isSome = true :=
  ⟨by decide, by decide, canIssue_of _ _ _ (by decide), canIssue_of _ _ _ (by decide), canIssue_of _ _ _ (by decide), by decide⟩

/-- Window lanes with some of the flags. -/
def lane (nan p n o : Bool) : WVal := ⟨0, ⟨nan, p, n, o, 0⟩⟩

set_option exponentiation.threshold 400 in
theorem witness_WindowSumsAreOrderFree :
    (-149 ≤ (-149 : Int) ∧ -2 ^ 319 ≤ (lane false false false false).w ∧ (lane false false false false).w < 2 ^ 319) ∧
    ([FVal.fin false 1 0, .fin true 1 0] : List FVal).Perm [.fin true 1 0, .fin false 1 0] ∧
    ([FVal.fin false 1 0, .fin true 1 0].foldl WVal.addVal (lane false false false false)).fl.ovf = false ∧
    ([FVal.fin true 1 0, .fin false 1 0].foldl WVal.addVal (lane false false false false)).fl.ovf = false ∧
    (lane true false false false).fl.nan = true ∧ (lane false true true false).fl.pinf = true ∧ (lane false true false true).fl.nan = false ∧
    (lane false false true false).fl.ninf = true ∧ (lane false false false true).fl.ovf = true ∧ (lane false false false false).w = 0 :=
  ⟨by simp [lane], List.Perm.swap _ _ _, by decide, by decide, by decide, by decide, by decide, by decide, by decide, by decide⟩

/-! ### Crew space -/

/-- The small machine in which s1 holds the value. -/
def with1 (x : Word) : State := m0.modMe fun st => st.put 1 x

/-- The small machine beside a crew that lacks 235 slots. -/
def tight : State :=
  m0.modMyCore fun c => { c with crews := [crew, { task := 5, pid := 1, pos := [1], hold := ⟨0, 4, 0⟩, claim := ⟨0, 239, 0⟩ }] }

theorem witness_ResourceForms_claim : m0.canIssue (amountSrcs (rq 3 1 0 2) none) [.s 3 false] ∧ (rq 3 1 0 2).qf.toNat < 3 ∧
    m0.canIssue (amountSrcs (rq 3 1 0 2) (some (e2 1))) [.s 3 false] :=
  ⟨canIssue_of _ _ _ (by decide), by decide, canIssue_of _ _ _ (by decide)⟩

theorem witness_ResourceForms_acquire :
    m0.placed ∧ m0.myAcq = none ∧ (rq 3 0 0 0).qf.toNat < 3 ∧ m0.canIssue (amountSrcs (rq 3 0 0 0) none) [.s 3 false] ∧
    m0.unbound (.s 3 false) ∧ m0.unbound (.s 0 false) ∧ (3 : Reg) ≠ 0 ∧
    -- beyond the claim; 0; granted; not granted
    partOf m0.myCrew.claim 0 < partOf m0.myCrew.hold 0 + amountOf (rq 3 1 0 0) (some (e2 65)) m0 ∧
    amountOf (rq 3 0 0 0) none m0 = 0 ∧ partOf m0.myCrew.hold 0 + 0 ≤ partOf m0.myCrew.claim 0 ∧
    partOf m0.myCrew.hold 0 + amountOf (rq 3 1 0 0) none m0 ≤ partOf m0.myCrew.claim 0 ∧ amountOf (rq 3 1 0 0) none m0 ≠ 0 ∧
    m0.myCore.grantable (some m0.myCrew.task) (resOf 0 64) = true ∧
    partOf tight.myCrew.hold 1 + 8 ≤ partOf tight.myCrew.claim 1 ∧
    tight.myCore.grantable (some tight.myCrew.task) (resOf 1 8) = true ∧ 
    (let t := tight.modMyCrew fun w => { w with claim := { w.claim with sl := 248 } }
     partOf t.myCrew.hold 1 + 2 ≤ partOf t.myCrew.claim 1 ∧ t.myCore.grantable (some t.myCrew.task) (resOf 1 2) = false) :=
  ⟨⟨by decide, by decide⟩, by decide, by decide, canIssue_of _ _ _ (by decide), by unfold State.unbound; decide, by unfold State.unbound; decide,
    by decide, by decide, by decide, by decide, by decide, by decide, by decide, by decide, by decide, by decide⟩

theorem witness_ResourceForms_release :
    m0.canIssue (amountSrcs (rf 0 1 0) none) [] ∧
    ((rf 0 1 0).qf = 0 ∧ m0.myCrew.floor.rq + 32 ≤ m0.myCrew.hold.rq ∧
      m0.streamAbove m0.cur.core m0.myCrew (m0.myCrew.windowSize - 1024 * 32) = false ∧ m0.myCrew.empty = []) ∧
    (m0.myCrew.floor.sl + 4 ≤ m0.myCrew.hold.sl ∧ m0.myCharge + 4 ≤ m0.myCrew.hold.sl) ∧
    (BitVec.ofNat 8 2 &&& ~~~m0.myCrew.acMask = 0 ∧ m0.myCrew.floor.ac + maskCount (BitVec.ofNat 8 2) ≤ m0.myCrew.hold.ac ∧
      m0.myCore.tileNames (m0.ownerOf m0.cur) (BitVec.ofNat 8 2) = false) ∧
    m0.myCrew.hold.rq < m0.myCrew.floor.rq + 33 ∧ m0.myCrew.hold.sl < m0.myCrew.floor.sl + 5 ∧
    BitVec.ofNat 8 4 &&& ~~~m0.myCrew.acMask ≠ 0 ∧ m0.myCrew.hold.ac < m0.myCrew.floor.ac + maskCount (BitVec.ofNat 8 3) :=
  ⟨canIssue_of _ _ _ (by decide), by decide, by decide, by decide, by decide, by decide, by decide, by decide⟩

theorem witness_GrantsAreSafe : core0.grantable (some 2) ⟨64, 8, 2⟩ = true ∧ core0.grantable none ⟨0, 1, 0⟩ = true := by decide

theorem witness_ViewsAndWindow :
    m0.canIssue [.s 1 false, .s 2 false] [] ∧ (rq 0 1 2 2).qf.toNat < 3 ∧ m0.canIssue [.v 1 false] [.v 3 false] ∧ m0.canIssue [.s 1 false] [] ∧
    m0.canWrite (.s 4 false) ∧
    ((64 : Nat) % 8 = 0 ∧ 64 + 8 ≤ 1024 * m0.myCrew.hold.rq ∧ 64 / 64 ∉ m0.myCrew.empty ∧ m0.myCrew.linesFree (64 / 64) 1 = true) ∧
    (65528 % 8 = 0 ∧ 65528 + 8 ≤ 1024 * m0.myCrew.hold.rq) ∧ 1024 * m0.myCrew.hold.rq < 65536 + 8 ∧ (m0.sval 2).toNat % 8 ≠ 0 :=
  ⟨canIssue_of _ _ _ (by decide), by decide, canIssue_of _ _ _ (by decide), canIssue_of _ _ _ (by decide), canWrite_of _ _ (by decide),
    by decide, by decide, by decide, by decide⟩

theorem witness_ViewsAndWindow_outside :
    let s := m0.modMyCrew fun w => { w with hold := { w.hold with rq := 15 } }
    1024 * s.myCrew.hold.rq < s.me.vView.base + (31 : Reg).toNat * s.me.vView.stride + 512 := by decide

/-! ### Streams, slots and key maps -/

/-- A record of rank 1: base, space, format, permissions (1 R, 2 W, 4 A, 8 N), extent and stride; no scale. -/
def record1 (base space fmt perm ext stride : Nat) : Nat :=
  base + space * 2 ^ 58 + fmt * 2 ^ 64 + 2 ^ 72 + 2 ^ 75 + perm * 2 ^ 76 + ext * 2 ^ 128 + stride <<< 256 + 0xFFFF <<< 416

/-- The small machine with a job that has accepted every feature, whose core holds the record under handle 7. -/
def withRecord1 (r : Nat) : State :=
  let s := m0.modMyCore fun c => { c with lcache := [(recKey 1 7, r)] }
  { s with jobs := [job1], bar := { drvLo := 0x7FF } }

/-- 1,024 elements of eight bytes at virtual address 0x10000 that may be read, written, worked on atomically and narrowed. -/
def longs : Nat := record1 0x10000 0 4 15 1024 8

set_option exponentiation.threshold 600 in
set_option maxRecDepth 20000 in
theorem witness_StreamsAndFibres_open :
    let s := withRecord1 longs
    let x := ex 7 4
    s.record s.cur.core (s.pidOf s.cur) x.handle.toNat = .ok longs ∧ (s.me.stream 2).cls = 0 ∧ s.me.bound (.s 9 false) = none ∧
    s.inWindow (.s 9 false) = true ∧ s.isFree (.s 9 false) = true ∧ ((coordRegs x).map fun c => Opnd.s c false).length ≤ recRank longs ∧
    recFormat longs = 4 := by decide

theorem witness_StreamsAndFibres_sources : (withRecord1 longs).canIssue [.s 0 false] [] ∧ m0.canIssue [] [.s 3 false] :=
  ⟨canIssue_of _ _ _ (by decide), canIssue_of _ _ _ (by decide)⟩

/-- The small machine with a scalar stream bound to s9, of which one element has been fetched. -/
def streaming : State :=
  (withRecord1 longs).modMe fun st => (st.setStream 7 { cls := 1, handle := 7, reg := 9, type := 4, record := longs, fetched := [[5, 0, 0, 0, 0, 0, 0, 0]] }).setEmpty 9

set_option exponentiation.threshold 600 in
set_option maxRecDepth 20000 in
theorem witness_StreamsAndFibres_land :
    (streaming.me.stream 7).cls = 1 ∧ streaming.cur.pos < 17 ∧ (∀ r ∈ streaming.reqs, ¬(r.sid = streaming.cur ∧ r.kind = .append 7)) ∧
    ((streaming.strand ⟨0, 0⟩).stream 7).fetched = [5, 0, 0, 0, 0, 0, 0, 0] :: [] ∧ ((streaming.strand ⟨0, 0⟩).stream 7).landed = false ∧
    ((streaming.strand ⟨0, 0⟩).stream 7).reg ≠ 0 ∧ (m0.me.stream 7).cls = 0 := by decide

/-- The small machine with a vector stream bound to v9, of which one element has been fetched, and the place of an append to a scalar stream. -/
def streamingVec : State :=
  (withRecord1 longs).modMe fun st => st.setStream 7 { cls := 2, handle := 7, reg := 9, type := 4, record := longs, fetched := [List.replicate 512 3] }

set_option exponentiation.threshold 600 in
set_option maxRecDepth 20000 in
theorem witness_StreamsAndFibres_vector :
    (streamingVec.me.stream 7).cls = 2 ∧ (∀ r ∈ streamingVec.reqs, ¬(r.sid = streamingVec.cur ∧ r.kind = .append 7)) ∧ 7 < 8 ∧
    streamingVec.ownerOf ⟨0, 0⟩ ≠ .chain7 ∧ ((streamingVec.strand ⟨0, 0⟩).stream 7).fetched = List.replicate 512 3 :: [] ∧
    (List.replicate 512 (3 : Byte)).length = 512 ∧ ((streamingVec.strand ⟨0, 0⟩).stream 7).landed = false ∧
    (streamingVec.strand ⟨0, 0⟩).bound (.v 9 false) = some 7 := by decide

set_option exponentiation.threshold 600 in
set_option maxRecDepth 20000 in
theorem witness_OperandsAndRetirement_late :
    m0.me.bound (.s 9 false) = none ∧ streaming.me.bound (.s 9 false) = some 7 ∧
    (let s := (streaming.book (.s 9 false)).2
     s.reqs.length = 1 ∧ s.reqs.all fun r => s.req? r.id == some r && r.elems.length == 1) := by decide

theorem witness_StreamsAndFibres_placed : streamingVec.placed ∧ streamingVec.cur.pos < 17 := ⟨⟨by decide, by decide⟩, by decide⟩

/-- Coordinates of four bytes that may be read. -/
def coords : Nat := record1 0x10000 0 7 1 64 4

/-- The small machine with two fibres that stand at a common coordinate. -/
def fibres : State :=
  (withRecord1 coords).modMe fun st =>
    (st.setFibre 0 { isOpen := true, handle := 7, record := coords, p := 3, e := 9, got := some (3, 50) }).setFibre 1
      { isOpen := true, handle := 7, record := coords, p := 4, e := 9, got := some (4, 50) }

set_option exponentiation.threshold 600 in
set_option maxRecDepth 20000 in
theorem witness_StreamsAndFibres_fibres :
    ((withRecord1 coords).feature 5 = true ∧ recRank coords = 1 ∧ recFormat coords = 7 ∧ recR coords = true ∧
      (withRecord1 coords).record 0 1 7 = .ok coords ∧ ((withRecord1 coords).me.fibre 3).isOpen = false) ∧
    (let g := fibres.me.fibre 0
     let h := fibres.me.fibre 1
     fibres.feature 5 = true ∧ ¬(g.isOpen = false ∨ g.e ≤ g.p) ∧ ¬(h.isOpen = false ∨ h.e ≤ h.p) ∧ g.got = some (g.p, 50) ∧ h.got = some (h.p, 50)) ∧
    ((fibres.me.fibre 2).isOpen = false ∨ (fibres.me.fibre 2).e ≤ (fibres.me.fibre 2).p) ∧
    (let s := fibres.modMe fun st => st.setFibre 1 { st.fibre 1 with got := some (4, 60) }
     (s.me.fibre 0).got = some ((s.me.fibre 0).p, 50) ∧ (s.me.fibre 1).got = some ((s.me.fibre 1).p, 60) ∧ (50 : Nat) ≠ 60 ∧ s.cur.core < 256 ∧
     s.cur.pos < 17) := by decide

theorem witness_StreamsAndFibres_operands : (withRecord1 coords).canIssue [.s 1 false, .s 2 false] [] ∧ fibres.canIssue [] [.s 3 false] :=
  ⟨canIssue_of _ _ _ (by decide), canIssue_of _ _ _ (by decide)⟩

/-- The last dword of slot 247, and the last 512 bytes of it. -/
def lastDword : Word := BitVec.ofNat 64 (247 + 256 * 16376)
def lastVector : Word := BitVec.ofNat 64 (247 + 256 * 15872)

theorem readable_of (s : State) (x : Word) (imm n align : Nat) (hm : mayName s (slotNo x)) (ho : slotOrdered s x imm n)
    (h : (!s.myCore.storageSlot (slotNo x) && slotOffset x imm % align == 0 && decide (slotOffset x imm + n ≤ 16384) && s.myCore.empty == [] &&
      s.myCore.slotErrors == [] && s.myCore.slotErased == 0) = true) : slotReadable s x imm n align := by
  simp only [Bool.and_eq_true, beq_iff_eq, decide_eq_true_eq, Bool.not_eq_true'] at h
  obtain ⟨⟨⟨⟨⟨h₁, h₂⟩, h₃⟩, h₄⟩, h₅⟩, h₆⟩ := h
  exact ⟨ho, h₁, hm, h₂, h₃, fun g _ _ => by simp [h₄], h₅, h₆⟩

theorem mayName_247 (x : Word) : mayName (with1 x) 247 := ⟨show 0 < 256 by decide, .inr (.inl ⟨show 0 ≠ 16 by decide, by decide⟩)⟩

theorem witness_SlotLoadForms :
    (with1 lastDword).canIssue [.s 1 false] [.s 3 false] ∧ slotReadable (with1 lastDword) lastDword 0 8 8 ∧
    (with1 lastVector).canIssue [.s 1 false] [.v 3 false] ∧ slotReadable (with1 lastVector) lastVector 0 512 64 ∧
    ((some (ex 0 4)).isSome = true → (rf 3 1 0).qf.getLsbD 1 = false) :=
  ⟨canIssue_of _ _ _ (by decide), readable_of _ _ _ _ _ (mayName_247 _) (by unfold slotOrdered; decide) (by decide), canIssue_of _ _ _ (by decide),
    readable_of _ _ _ _ _ (mayName_247 _) (by unfold slotOrdered; decide) (by decide), by decide⟩

theorem witness_SlotLoadForms_status :
    (with1 lastDword).canIssue [.s 1 false] [.s 4 false] ∧ (rq 3 1 0 2).qf.getLsbD 1 = true ∧ mayName (with1 lastDword) (slotNo lastDword) ∧
    slotReadable (with1 lastDword) lastDword 0 8 8 ∧ (with1 lastDword).canWrite (.s 3 false) ∧
    (let s := (with1 lastDword).modMyCore fun c => { c with empty := [slotByte lastDword 0 / 16] }
     ∃ g, slotByte lastDword 0 / 16 ≤ g ∧ g ≤ (slotByte lastDword 0 + 8 - 1) / 16 ∧ g ∈ s.myCore.empty) :=
  ⟨canIssue_of _ _ _ (by decide), by decide, mayName_247 _, readable_of _ _ _ _ _ (mayName_247 _) (by unfold slotOrdered; decide) (by decide), canWrite_of _ _ (by decide),
    ⟨_, Nat.le_refl _, by decide, by decide⟩⟩

/-- Loads that meet an empty granule: the last of VLD's, and that of LD. -/
theorem witness_SlotLoadForms_waits :
    (let s := (with1 lastVector).modMyCore fun c => { c with empty := [slotByte lastVector 0 / 16 + 31] }
     slotOrdered s lastVector 0 512 ∧ slotOffset lastVector 0 % 64 = 0 ∧ slotOffset lastVector 0 + 512 ≤ 16384 ∧ s.inWindow (.v 3 false) = true ∧
     ∃ g, slotByte lastVector 0 / 16 ≤ g ∧ g ≤ (slotByte lastVector 0 + 511) / 16 ∧ g ∈ s.myCore.empty) ∧
    (let s := (with1 lastDword).modMyCore fun c => { c with empty := [slotByte lastDword 0 / 16] }
     slotOrdered s lastDword 0 8 ∧ slotOffset lastDword 0 % 8 = 0 ∧ slotOffset lastDword 0 + 8 ≤ 16384 ∧
     ∃ g, slotByte lastDword 0 / 16 ≤ g ∧ g ≤ (slotByte lastDword 0 + 8 - 1) / 16 ∧ g ∈ s.myCore.empty) := by
  unfold slotOrdered
  exact ⟨⟨by decide, by decide, by decide, by decide, _, by decide, by decide, List.mem_singleton.2 rfl⟩,
    by decide, by decide, by decide, _, by decide, by decide, List.mem_singleton.2 rfl⟩

theorem witness_SlotLoadForms_operands :
    (let s := (with1 lastVector).modMyCore fun c => { c with empty := [slotByte lastVector 0 / 16 + 31] }
     s.placed ∧ s.canIssue [.s 1 false] [] ∧ s.canIssue [.s 1 false] [.s 0 false] ∧ mayName s (slotNo lastVector)) ∧
    (with1 lastVector).canWrite (.v 3 false) ∧ slotReadable (with1 lastVector) lastVector 0 512 64 :=
  ⟨⟨⟨by decide, by decide⟩, canIssue_of _ _ _ (by decide), canIssue_of _ _ _ (by decide), show 0 < 256 by decide, .inr (.inl ⟨show 0 ≠ 16 by decide, by decide⟩)⟩,
    canWrite_of _ _ (by decide), readable_of _ _ _ _ _ (mayName_247 _) (by unfold slotOrdered; decide) (by decide)⟩

theorem witness_SlotStoreForms_ordered :
    slotOrdered (with1 lastDword) lastDword 0 8 ∧ slotOrdered (with1 lastVector) lastVector 0 512 ∧ (with1 lastDword).cur.pos < 17 ∧
    (with1 lastDword).holdsLater (with1 lastDword).cur = false ∧ (with1 lastDword).ownAccessTo 0 (16 * 1024) 16 = false := by
  unfold slotOrdered
  decide

theorem witness_SlotStoreForms :
    (with1 lastDword).canIssue [.s 1 false, .s 2 false] [] ∧ mayName (with1 lastDword) (slotNo lastDword) ∧
    (slotOffset lastDword 0 % 8 = 0 ∧ slotOffset lastDword 0 + 8 ≤ 16384) ∧
    (with1 lastVector).canIssue [.s 1 false, .v 2 false] [] ∧ (slotOffset lastVector 0 % 64 = 0 ∧ slotOffset lastVector 0 + 512 ≤ 16384) ∧
    (with1 lastDword).canWrite (.s 3 false) ∧ (with1 lastDword).unbound (.s 1 false) ∧ (with1 lastVector).unbound (.v 2 false) :=
  ⟨canIssue_of _ _ _ (by decide), mayName_247 _, by decide, canIssue_of _ _ _ (by decide), by decide, canWrite_of _ _ (by decide),
    by unfold State.unbound; decide, by unfold State.unbound; decide⟩

/-- The small machine whose local map binds key 64 with check word 7 in slot 3. -/
def bound (pin : Nat) (binder : Option Nat) : State := m0.modMyCore fun c => { c with keys := [⟨64, 7, 3, pin, binder⟩] }

theorem witness_LocalKeyMap :
    m0.quiet m0.cur = true ∧ (mapUsable m0 ∧ m0.canIssue (keySrcs (rf 4 1 2) none ++ [.s 2 false]) [.s 4 false]) ∧
    m0.myCore.keys.find? (fun e => e.key == keyOf (rf 4 1 2) none m0) = none ∧
    (bound 0 (some 2)).myCore.keys.find? (fun e => e.key == keyOf (rf 4 1 2) none (bound 0 (some 2))) = some ⟨64, 7, 3, 0, some 2⟩ ∧
    (bound 1 none).myCore.keys.find? (fun e => e.key == 64#64) = some ⟨64, 7, 3, 1, none⟩ ∧
    (bound 65535 none).myCore.keys.find? (fun e => e.key == 64#64) = some ⟨64, 7, 3, 65535, none⟩ ∧
    (7 : BitVec 32) = ((bound 0 none).sval 2).setWidth 32 ∧ (7 : BitVec 32) ≠ ((bound 0 none).sval 1).setWidth 32 :=
  ⟨by decide, ⟨⟨by decide, by decide⟩, canIssue_of _ _ _ (by decide)⟩, by decide, by decide, by decide, by decide, by decide, by decide⟩

theorem witness_LocalKeyMap_bind :
    m0.canIssue (keySrcs (rf 4 1 2) none ++ [.s 2 false, .s (ex 0 0).c0 false]) [.s 4 false] ∧
    247 < (m0.sval 3).toNat % 256 ∧ (m0.sval 2).toNat % 256 ≤ 247 ∧
    (bound 0 none).myCore.slotBusy 3 = true ∧ m0.myCore.slotBusy 247 = false ∧
    m0.myCharge + 1 ≤ (if m0.cur.pos = 16 then 0 else m0.myCrew.hold.sl) ∧
    (let s := m0.modMyCrew fun w => { w with hold := { w.hold with sl := 0 } }
     (if s.cur.pos = 16 then 0 else s.myCrew.hold.sl) < s.myCharge + 1) :=
  ⟨canIssue_of _ _ _ (by decide), by decide, by decide, by decide, by decide, by decide, by decide⟩

set_option maxRecDepth 20000 in
theorem witness_LocalKeyMap_victim :
    m0.cur.pos ≠ 16 ∧ m0.myCharge < m0.myCrew.hold.sl ∧ 0 < 248 ∧ m0.myCore.slotBusy 0 = false ∧ m0.myCore.lastKvict = 247 ∧
    ∀ y, y < 248 → m0.myCore.slotBusy y = false →
      (0 + 248 - (m0.myCore.lastKvict + 1) % 248) % 248 ≤ (y + 248 - (m0.myCore.lastKvict + 1) % 248) % 248 :=
  ⟨by decide, by decide, by decide, by decide, by decide, fun y _ _ => by rw [show m0.myCore.lastKvict = 247 from by decide]; omega⟩

/-- A job with one shared map of 64 keys, at 0x10000. -/
def withMap (m : Memory) : State :=
  { m0 with jobs := [{ job1 with smapDir := 4096 }], bar := { drvLo := 0x7FF }, mem := Memory.write m 4096 (bytesOfNat 8 (2 ^ 63 + 6 * 2 ^ 52 + 1024)) }

/-- The map's entry of key 5 with check word 7, value 9, `pin` pins and binder 2, at its home. -/
def oneKey (pin : Nat) : Memory :=
  Memory.write [] (0x10000 + 32 * keyHome 6 5) (bytesOfNat 32 (5 + 7 * 2 ^ 64 + 9 * 2 ^ 96 + pin * 2 ^ 128 + 2 * 2 ^ 160 + 2 ^ 191))

/-- An operation on key 5. -/
def mapOp (kind : Nat) (check : BitVec 32) : SMapOp := ⟨⟨0, 0⟩, 1, 0, kind, false, 5, check, 9, 2, 4, 0x1000, none⟩

theorem witness_SharedKeyMaps_issue :
    (withMap []).feature 3 = true ∧ (withMap []).canIssue (keySrcs (rf 4 1 2) none ++ [.s 2 false] ++ [.s (ex 0 0).c0 false]) [.s 4 false] ∧
    (withMap []).smap ((withMap []).pidOf ⟨0, 0⟩) 0 = some (6, 0x10000) ∧ (withMap []).smap ((withMap []).pidOf ⟨0, 0⟩) 1 = none ∧
    (withMap []).quiet ⟨0, 0⟩ = true :=
  ⟨by decide, canIssue_of _ _ _ (by decide), by decide, by decide, by decide⟩

set_option maxRecDepth 20000 in
theorem witness_SharedKeyMaps_home :
    (withMap (oneKey 1)).smap 1 0 = some (6, 0x10000) ∧ peerOf (mapOp 0 7).sid.pos = none ∧ (mapOp 0 7).app = none ∧ 0x10000 + 40 * 2 ^ 6 ≤ 576 * 2 ^ 30 ∧
    (withMap (oneKey 1)).oob = false ∧ findKey (withMap []).mem 6 0x10000 (mapOp 0 7).key = none ∧
    findKey (withMap (oneKey 1)).mem 6 0x10000 5 = some (keyHome 6 5) ∧
    (let e := (withMap (oneKey 1)).mem.readNat (0x10000 + 32 * keyHome 6 5) 32
     e / 2 ^ 64 % 2 ^ 32 = (mapOp 4 7).check.toNat ∧ e / 2 ^ 64 % 2 ^ 32 ≠ (mapOp 0 8).check.toNat ∧ e / 2 ^ 128 % 2 ^ 16 ≠ 0) := by decide

set_option maxRecDepth 20000 in
theorem witness_SharedKeyMaps_bind :
    let s := withMap []
    findVal s.mem 6 0x10000 (mapOp 1 7).value.toNat = none ∧ usedCount s.mem 6 0x10000 < 2 ^ 6 ∧
    probeFree (2 ^ 6) (keyUsed s.mem 0x10000) (2 ^ 6) (keyHome 6 5) = some (keyHome 6 5) ∧
    probeFree (2 ^ 6) (valUsed s.mem 6 0x10000) (2 ^ 6) (valHome 6 9) = some (valHome 6 9) := by decide

/-! ### Records and memory -/

/-- The forms below name handle 7 and take their one coordinate from s0, which reads 0. -/
def x7 : Ext := ex 7 0

/-- The record is decoded, and a request of the kind with one element finds room and no earlier store of the strand to its bytes. -/
def roomFor (s : State) (r : Nat) (kind : ReqKind) (vec : List Byte) : Bool :=
  let q := { s.blankReq kind x7 r s.serial with
    vals := keptVals (rf 3 1 2) x7 s, vec := vec, elems := [elemAt (locate r 0 (coordsOf x7 s)) (typeSize (recFormat r)) 0 8 false []] }
  s.record s.cur.core (s.pidOf s.cur) 7 == .ok r && !s.stalls q && !s.behindStore q

/-- 1,024 words of four bytes. -/
def ints : Nat := record1 0x10000 0 3 15 1024 4

set_option exponentiation.threshold 600 in
set_option maxRecDepth 20000 in
theorem witness_MemoryFormsIssue :
    roomFor (withRecord1 longs) longs .load [] = true ∧ roomFor (withRecord1 longs) longs .store [] = true ∧
    roomFor (withRecord1 ints) ints .load ((withRecord1 ints).vbytes 1) = true ∧
    usable x7 (coordRegs x7).length recR longs (withRecord1 longs) ∧ usable x7 (coordRegs x7).length recW longs (withRecord1 longs) ∧
    inside longs (coordsOf x7 (withRecord1 longs)) ∧ inside longs [1023] ∧ inside longs (bumpCoord (coordsOf x7 (withRecord1 longs)) 0 63) := by
  unfold usable fits inside
  decide

set_option exponentiation.threshold 600 in
set_option maxRecDepth 20000 in
theorem witness_MemoryFormsIssue_lanes :
    vectorInside { x7 with mask := 1 } longs ((withRecord1 longs).modMe fun st => st.setMask 1 5) ∧
    gatherable { x7 with mask := 1 } 1 recR ints ((withRecord1 ints).modMe fun st => st.setMask 1 5) := by
  unfold vectorInside gatherable usable fits inside
  decide

theorem witness_MemoryFormsIssue_operands :
    (withRecord1 longs).canIssue (coordOpnds x7) [.s 3 false] ∧ (withRecord1 longs).canIssue (coordOpnds x7 ++ [.s 1 false]) [] ∧
    (withRecord1 longs).canIssue (coordOpnds x7) [.v 3 false] ∧ (withRecord1 longs).canIssue (coordOpnds x7 ++ [.v 1 false]) [] ∧
    (withRecord1 ints).canIssue (sideOpnds x7 ++ [.v 1 false]) [.v 3 false] ∧ (withRecord1 ints).canIssue (sideOpnds x7 ++ [.v 2 false, .v 1 false]) [] :=
  ⟨canIssue_of _ _ _ (by decide), canIssue_of _ _ _ (by decide), canIssue_of _ _ _ (by decide), canIssue_of _ _ _ (by decide),
    canIssue_of _ _ _ (by decide), canIssue_of _ _ _ (by decide)⟩

set_option exponentiation.threshold 600 in
set_option maxRecDepth 20000 in
theorem witness_AtomicAndLockFormsIssue :
    let s := withRecord1 longs
    roomFor s longs (.atomic 0) [] = true ∧ roomFor s longs (.atomic 8) (List.replicate 512 0) = true ∧ roomFor s longs (.lock 0 false) [] = true ∧
    roomFor s longs .ldsync [] = true ∧ roomFor s longs .stsync [] = true ∧ roomFor s longs .waitne [] = true ∧
    s.feature 4 = true ∧ s.outstanding s.cur < 16 ∧
    oneInside x7 atomicRecord [4, 8] longs s ∧ oneInside x7 atomicRecord [8] longs s ∧ oneInside x7 recR [1, 2, 4, 8] longs s ∧
    recStride longs 0 = 8 ∧ locate longs (dieOf s.cur.core) (coordsOf x7 s) % 64 ≤ 32 ∧ locate longs (dieOf s.cur.core) (coordsOf x7 s) % 16 = 0 := by
  unfold oneInside usable fits inside
  decide

theorem witness_AtomicAndLockFormsIssue_operands :
    (withRecord1 longs).canIssue (coordOpnds x7 ++ [.s 1 false, .s 2 false]) [.s 3 false] ∧
    (withRecord1 longs).canIssue (coordOpnds x7 ++ [.v 1 false, .v 2 false]) [.v 3 false] ∧
    (withRecord1 longs).canIssue [.s 1 false, .s 2 false] [.s 3 false, .s 4 false] :=
  ⟨canIssue_of _ _ _ (by decide), canIssue_of _ _ _ (by decide), canIssue_of _ _ _ (by decide)⟩

/-- The register space with a narrowing of `longs`: origin 1, extent 1,023, permissions 1. -/
def narrowing : State :=
  (withRecord1 longs).modMyCrew fun w => { w with
    window := Memory.write (Memory.write (Memory.write [] 1024 (bytesOfNat 8 1)) 1056 (bytesOfNat 8 1023)) 1088 (bytesOfNat 8 1) }

set_option exponentiation.threshold 600 in
set_option maxRecDepth 20000 in
theorem witness_LayoutForms :
    let s := narrowing.modMe fun st => { st.put 1 0xF000 with priv := true }
    (7#16 ≠ 0xFFFF#16 ∧ s.myCore.lcache.find? (fun e => e.1 == recKey (s.pidOf s.cur) 7) = some (recKey 1 7, longs)) ∧
    s.me.priv = true ∧ s.oob = false ∧ s.job? (s.pidOf s.cur) = some job1 ∧ (e2 7).immA = 7 ∧ (e2 6).immA < 7 ∧
    job1.layout + 64 * 0xFFFE + 64 ≤ 576 * 2 ^ 30 ∧ s.record s.cur.core (s.pidOf s.cur) 7 = .ok longs ∧
    (narrowed longs ((s.sval 1).toNat % 2 ^ 16) (s.vbytes 2)).isSome = true ∧ narrowed longs 0xEFFF (s.vbytes 2) = none ∧
    inside longs [1023] ∧ ¬inside longs [1024] := by
  unfold inside
  decide

theorem witness_LayoutForms_operands :
    narrowing.canIssue [.s 1 false, .v 2 false] [] ∧ narrowing.canIssue [.s 1 false] [] ∧ narrowing.canWrite (.s 3 false) :=
  ⟨canIssue_of _ _ _ (by decide), canIssue_of _ _ _ (by decide), canWrite_of _ _ (by decide)⟩

/-- Page tables: from 0x4000, entries to 0x8000, 0xC000, 0x10000 and the leaf `flags` of the frame at 0x14000, for the first page. -/
def tables (leaf : Nat) : Memory :=
  Memory.write (Memory.write (Memory.write (Memory.write [] 0x4000 (bytesOfNat 8 0x8001)) 0x8000 (bytesOfNat 8 0xC001)) 0xC000
    (bytesOfNat 8 0x10001)) 0x10000 (bytesOfNat 8 leaf)

theorem witness_TranslationAndReplay_walk :
    let m := tables (0x14000 + 0x3B)
    let entry (level table : Nat) : Nat := m.readNat (table + 8 * (5 / 2 ^ (47 - 11 * level) % 2 ^ 11)) 8
    ((entry 0 0).testBit 0 = false) ∧
    ((entry 0 0x4000).testBit 0 = true ∧ (entry 0 0x4000).testBit 1 = false ∧ entryMalformed 0 (entry 0 0x4000) = false) ∧
    ((entry 1 0x8000).testBit 0 = true ∧ (entry 1 0x8000).testBit 1 = false ∧ entryMalformed 1 (entry 1 0x8000) = false) ∧
    ((entry 2 0xC000).testBit 0 = true ∧ (entry 2 0xC000).testBit 1 = false ∧ entryMalformed 2 (entry 2 0xC000) = false) ∧
    (entry 3 0x10000).testBit 0 = true ∧ entryMalformed 3 (entry 3 0x10000) = false ∧ (entry 3 0x10000).testBit 7 = false ∧
    (0x140BB : Nat).testBit 7 = true := by decide

/-- A request of one element for s5. -/
def req1 (kind : ReqKind) (phase : Phase) : Req :=
  { id := 1, sid := ⟨0, 0⟩, owner := .crew 2, task := 2, pid := 1, kind := kind, pc := 0x1000, space := 0, peer := 0, rcore := 0, order := 0, scope := 0,
    spin := false, type := 4, dst := .scalar 5, dst2 := 0, x := 3, y := 0, xs := [], ys := [], attempts := 0, counted := false, limit := 0, serial := 9,
    elems := [{ elemAt 5 8 0 8 true (bytesOfNat 8 3) with pa := 0x14008, phase := phase }], words := [], vals := [], vec := [], dead := false,
    failed := 0, source := none }

/-- Its element. -/
def el1 (phase : Phase) : Elem := { elemAt 5 8 0 8 true (bytesOfNat 8 3) with pa := 0x14008, phase := phase }

/-- The small machine with that request under way. -/
def reqs1 (m : Memory) (r : Req) : State := { m0 with jobs := [{ job1 with root := 0x4000 }], mem := m, reqs := [r] }

theorem witness_TranslationAndReplay_request :
    let s := reqs1 (tables (0x14000 + 0x3B)) (req1 .load .walk)
    (s.req? 1 = some (req1 .load .walk) ∧ (req1 .load .walk).elems[0]? = some (el1 .walk)) ∧ (req1 .load .walk).id = 1 ∧
    (req1 .load .walk).space < 2 ∧ s.notAccepted 0 1 5 = false ∧ s.peerInTurn (req1 .load .walk) = true ∧ s.pageFaulted 0 1 5 = false ∧ (el1 .walk).size ≠ 0 ∧
    (s.translate 0 1 5 .load).1 = .ok (0x14000 + 5) false false 16384 ∧ ((req1 .load .walk).kind.isSync = true → false = true) ∧
    ((s.translate 0 1 5 (ReqKind.ldsync).need).1 = .ok (0x14000 + 5) false false 16384 ∧ (req1 .ldsync .walk).kind.isSync = true ∧
      (req1 .ldsync .walk).elems = [el1 .walk] ∧ (req1 .ldsync .walk).source = none ∧ (s.strand ⟨0, 0⟩).late = []) ∧
    ((reqs1 (tables 0x14001) (req1 .load .walk)).translate 0 1 5 .load).1 = .fault 4 ∧ (s.die 0).pfe.length < 256 ∧
    (reqs1 [] (req1 .load .home)).req? 1 = some (req1 .load .home) := by decide

/-- A buffer of faults that are all taken, by other pages than page 8. -/
def taken (page : Nat) : FaultEntry := { valid := true, page := page, pid := 1 }
def fullBuffer : State := { m0 with faults := #v[taken 0, taken 1, taken 2, taken 3, taken 4, taken 5, taken 6, taken 7] }

theorem witness_TranslationAndReplay_buffer :
    (∃ f, fullBuffer.faults[7]? = some f ∧ f.valid = true ∧ f.pid = 1 ∧ f.page = 7) ∧
    (∀ i, i < 8 → ¬∃ f, fullBuffer.faults[i]? = some f ∧ f.valid = true ∧ f.pid = 1 ∧ f.page = 8) ∧
    (∀ i, i < 8 → ¬∃ f, fullBuffer.faults[i]? = some f ∧ f.valid = false) ∧
    (∀ j, j < 8 → ¬∃ f, m0.faults[j]? = some f ∧ f.valid = true ∧ f.pid = 1 ∧ f.page = 8) ∧
    (∃ f, m0.faults[0]? = some f ∧ f.valid = false) ∧ 3 < 4 ∧ 5 < 6 := by
  have h : ∀ i, i < 8 → fullBuffer.faults[i]? = some (taken i) := by decide
  have g : ∀ i, i < 8 → m0.faults[i]? = some ({} : FaultEntry) := by decide
  refine ⟨⟨_, h 7 (by decide), by decide⟩, ?_, ?_, ?_, ⟨_, g 0 (by decide), by decide⟩, by decide, by decide⟩
  · rintro i hi ⟨f, hf, -, -, hp⟩
    rw [h i hi] at hf
    cases hf
    exact absurd hp (by simp only [taken]; omega)
  · rintro i hi ⟨f, hf, hv⟩
    rw [h i hi] at hf
    cases hf
    cases hv
  · rintro i hi ⟨f, hf, hv, -⟩
    rw [g i hi] at hf
    cases hf
    cases hv

theorem witness_TranslationAndReplay_invalidate :
    let s := m0.modMe fun st => { st with priv := true }
    s.me.priv = true ∧ s.quiet s.cur = true ∧ s.reqs = [] ∧ m0.me.priv = false := by decide

theorem plain_of (s : State) (id : Nat) (r : Req) (e : Elem) (d : Reg)
    (h : (s.req? id == some r && r.elems == [e] && r.dst == .scalar d && d != 0 && decide (r.sid.pos < 17) && (s.strand r.sid).bound (.s d false) == none &&
      !r.spin && !r.dead && r.source == none && r.app == none && r.failed == 0 && e.width == 8 && [1, 2, 4, 8].contains e.size && r.id == id) = true) :
    plainRequest s id r e d := by
  simp only [Bool.and_eq_true, beq_iff_eq, bne_iff_ne, Bool.not_eq_true', decide_eq_true_eq, List.contains_iff_mem, List.mem_cons, List.not_mem_nil,
    or_false, and_assoc] at h
  exact h

/-- Its element lies in a page that no invalidation below names. -/
theorem witness_TranslationAndReplay_invalidate_other :
    let s := { reqs1 [] (req1 .load .home) with sel := true }
    ∀ r ∈ s.reqs, ∀ e ∈ r.elems, r.space < 2 → e.phase = .home →
      ¬((BitVec.allOnes 64 = BitVec.allOnes 64 ∨ (BitVec.allOnes 64).toNat % 2 ^ 16 = r.pid) ∧
        (0x10000#64 = BitVec.allOnes 64 ∨ (e.va / e.page * e.page ≤ (0x10000#64).toNat ∧ (0x10000#64).toNat < e.va / e.page * e.page + e.page))) := by
  decide

theorem witness_HomesApplyAccesses_plain :
    plainRequest (reqs1 [] (req1 .load .home)) 1 (req1 .load .home) (el1 .home) 5 ∧
    plainRequest (reqs1 [] (req1 (.atomic 7) .home)) 1 (req1 (.atomic 7) .home) (el1 .home) 5 :=
  ⟨plain_of _ _ _ _ _ (by decide), plain_of _ _ _ _ _ (by decide)⟩

theorem witness_HomesApplyAccesses :
    (let s := reqs1 [] (req1 .store .home)
     s.req? 1 = some (req1 .store .home) ∧ (req1 .store .home).elems[0]? = some (el1 .home) ∧ s.actsNow (req1 .store .home) 0 (el1 .home) = true ∧
     (req1 .store .home).order ≠ 4 ∧ s.handedOff (el1 .home).pa = false ∧ ({ s with marks := [5] } : State).handedOff (el1 .home).pa = true ∧
     (el1 .home).data ≠ [] ∧ (el1 .home).host = false ∧ ({ el1 .home with host := true } : Elem).host = true) ∧
    (let s : State := (reqs1 [] (req1 .store .home)).modMyCore fun c => { c with lastJob := some 1 }
     s.coreRuns 0 1 = true ∧ (s.core 0).someEmpty 5 8 = false ∧ (s.core 0).slotBad 5 8 = false ∧ (s.core 0).storageSlot (5 / 16384) = false ∧ s.causal (req1 .store .home) (some 0) = true ∧
     s.rowsBefore (req1 .store .home) = []) ∧
    (reqs1 [] (req1 .load .home)).actsNow (req1 .load .home) 0 (el1 .home) = true ∧
    (reqs1 [] (req1 (.atomic 7) .home)).actsNow (req1 (.atomic 7) .home) 0 (el1 .home) = true ∧ (reqs1 [] (req1 (.atomic 7) .home)).linking 1 = false ∧ 1 ≤ (req1 (.atomic 7) .home).type ∧
    (req1 (.atomic 7) .home).type ≤ 8 ∧ (el1 .home).host = false := by decide

/-- An ACAS4 under way. -/
def acas4 : Req :=
  { req1 (.atomic 8) .home with
    dst := .space 0, xs := List.replicate 32 1, ys := List.replicate 32 0 ++ [9], elems := [{ el1 .home with size := 32, pa := 0x14020 }] }

theorem witness_HomesApplyAccesses_acas4 :
    let s := reqs1 [] acas4
    let e := { el1 .home with size := 32, pa := 0x14020 }
    s.req? 1 = some acas4 ∧ acas4.elems = [e] ∧ s.actsNow acas4 0 e = true ∧ s.handedOff e.pa = false ∧ s.linking 1 = false ∧ acas4.xs.length = 32 ∧ acas4.ys.length = 33 ∧
    (acas4.ys.getD 32 0).getLsbD 3 = true ∧ s.mem.readBytes (e.pa + 8 * 3) 8 = (acas4.ys.drop (8 * 3)).take 8 := by decide

/-- The word at 0x14008. -/
def word (w : Nat) : Memory := Memory.write [] 0x14008 (bytesOfNat 8 w)

theorem parked_of (r : Req) (m : Memory) (h : r.elems.all (fun e => e.phase != .parked) = true) (pa : Nat) : noneParked (reqs1 m r) pa := by
  intro q hq e he hp
  simp only [reqs1, List.mem_singleton] at hq
  subst hq
  have := (List.all_eq_true.1 h) e he
  simp [hp] at this

theorem witness_LocksAndSyncWords :
    (let q := req1 (.lock 0 false) .home
     let s := reqs1 (word 2) q
     s.req? 1 = some q ∧ q.elems = [el1 .home] ∧ s.actsNow q 0 (el1 .home) = true ∧ s.handedOff 0x14008 = false ∧ (el1 .home).size = 8 ∧
     s.mem.readNat 0x14008 8 % 2 ^ 48 + 1 < 2 ^ 48) ∧
    -- a reader may and may not, a writer may and may not, releases with and without their part
    (readerMay 2 ∧ ¬readerMay (2 ^ 62) ∧ ¬readerMay (2 ^ 63 + 2 ^ 48) ∧ writerMay (2 ^ 63 + 2 ^ 48) ∧ ¬writerMay 1) ∧
    ((word 2).readNat 0x14008 8 % 2 ^ 48 ≠ 0 ∧ ((word (2 ^ 62)).readNat 0x14008 8).testBit 62 = true ∧ (word 0).readNat 0x14008 8 % 2 ^ 48 = 0) ∧
    (req1 (.lock 1 true) .home).counted = false ∧ (req1 (.lock 2 false) .home).source = none := by
  unfold readerMay writerMay
  decide

theorem witness_LocksAndSyncWords_plain :
    plainRequest (reqs1 (word 2) (req1 (.lock 0 false) .home)) 1 (req1 (.lock 0 false) .home) (el1 .home) 5 ∧
    plainRequest (reqs1 (word 0) (req1 (.lock 4 true) .home)) 1 (req1 (.lock 4 true) .home) (el1 .home) 5 ∧
    plainRequest (reqs1 (word 2) (req1 .ldsync .home)) 1 (req1 .ldsync .home) (el1 .home) 5 ∧
    plainRequest (reqs1 (word 2) (req1 .waitne .home)) 1 (req1 .waitne .home) (el1 .home) 5 ∧
    noneParked (reqs1 (word 2) (req1 .ldsync .home)) 0x14008 ∧ noneParked (reqs1 (word 2) (req1 (.lock 0 false) .home)) 0x14008 :=
  ⟨plain_of _ _ _ _ _ (by decide), plain_of _ _ _ _ _ (by decide), plain_of _ _ _ _ _ (by decide), plain_of _ _ _ _ _ (by decide),
    parked_of _ _ (by decide) _, parked_of _ _ (by decide) _⟩

theorem witness_LocksAndSyncWords_sync :
    (let s := reqs1 (word 2) (req1 .ldsync .home)
     s.actsNow (req1 .ldsync .home) 0 (el1 .home) = true ∧ 0x14008 / 8 ∉ s.syncEmpty) ∧
    (let s : State := { reqs1 (word 2) { req1 .stsync .home with dst := .none } with syncEmpty := [0x14008 / 8] }
     s.actsNow { req1 .stsync .home with dst := .none } 0 (el1 .home) = true ∧ 0x14008 / 8 ∈ s.syncEmpty ∧ 0x14008 % 8 = 0) ∧
    ((reqs1 (word 2) (req1 .waitne .home)).mem.readNat 0x14008 8 ≠ (3 : Word).toNat % 2 ^ (8 * 8)) ∧
    ((reqs1 (word 3) (req1 .waitne .home)).mem.readNat 0x14008 8 = (3 : Word).toNat % 2 ^ (8 * 8)) ∧
    (let q := { req1 .waitne .parked with counted := true, attempts := 4 }
     q.elems = [el1 .parked] ∧ q.space ≠ 3 ∧ q.counted = true ∧ q.attempts = 4) ∧
    ((m0.modMe fun st => { st with spin := some ⟨3, []⟩ }).strand ⟨0, 0⟩).spin = some ⟨3, []⟩ ∧
    ((m0.modMe fun st => { st with wait := some (.reply 9) }).strand ⟨0, 0⟩).wait = some (.reply 9) := by decide

/-! ### Chains and engines -/

/-- The dwords of an entry as bytes. -/
def dwords (l : List Nat) : List Byte := l.flatMap (bytesOfNat 8)

/-- A marker, a copy of 16 bytes from slot 1 to slot 2, and a tile record of one K-group into slot 0 without a drain. -/
def marker : List Byte := dwords [6, 0, 0, 0, 0, 0, 0, 0]
def slotCopy : List Byte := dwords [2 + 4 * 2 ^ 16, 0xFFFF + 1 * 2 ^ 16 + 2 * 2 ^ 24, 16 + 2 ^ 16, 0, 0, 0, 0, 0]
def tile : List Byte := dwords [1, 0, 0, 0, 0, 0, 0, 0]

/-- An entry of ticket n of the crew's first strand, at the start of slot 9 + n. -/
def entry (n stage : Nat) : Entry :=
  { ticket := n, addr := some (16384 * (9 + n)), bytes := [], stage := stage, watch := .crew 2, rank := 0, fork := 0, ring := 0, code := 0, told := true,
    pid := 1, recs := [], todo := [], flight := 0 }

/-- The small machine whose crew has entries 1, ... in one of its chains, with these bytes. -/
def chained (ch : Nat) (halt : Bool) (es : List Entry) (bytes : List Byte) : State :=
  let s := m0.modMyCrew fun w => { w with
    chains := w.chains.setIfInBounds ch { a := BitVec.ofNat 32 es.length, s := 0, halt := halt, storage := [10], used := es.length, entries := es } }
  { s.modMyCore fun c => { c with slots := es.foldl (fun m e => m.write (e.addr.getD 0) bytes) [] } with bar := { drvLo := 0x7FF } }

/-- The small machine with a vector register whose first bytes are an entry's. -/
def holding (bytes : List Byte) : State := m0.modMyCrew fun w => { w with window := Memory.write [] 512 bytes }

set_option maxRecDepth 4000 in
theorem witness_Chains_append :
    let s := holding marker
    let f := rf 3 1 2
    s.cur.pos < 16 ∧ s.cur.core < 256 ∧ chainOf f < 7 ∧ s.entryOk 0 (.crew 2) 1 (chainOf f) s.me.priv ((s.vbytes 1).take 64) = true ∧
    ((myChain s f).storage = [] ∧ s.myCharge < s.myCrew.hold.sl ∧ s.myCore.slotBusy 0 = false) ∧
    (let u := chained 2 false [entry 1 0] marker
     (myChain u f).storage.getLast? = some 10 ∧ (myChain u f).used = 1) ∧
    s.entryOk 0 (.crew 2) 1 (chainOf f) s.me.priv ((s.vbytes 2).take 64) = false := by decide

theorem witness_Chains_operands :
    (holding marker).placed ∧ mayUseChain (holding marker) (rf 3 1 2) ∧ (holding marker).canIssue [.v 1 false] [.s 3 false] ∧
    (holding marker).unbound (.v 1 false) ∧ (holding marker).unbound (.s 3 false) ∧ m0.canIssue [.s 1 false] [] :=
  ⟨⟨by decide, by decide⟩, ⟨by decide, by decide⟩, canIssue_of _ _ _ (by decide), by unfold State.unbound; decide, by unfold State.unbound; decide,
    canIssue_of _ _ _ (by decide)⟩

theorem witness_Chains_waits :
    let s := (chained 2 false [entry 1 0, entry 2 0] marker).modMe fun st => (st.put 1 0).put 2 2
    let f := rf 0 1 2
    ¬counted (myChain s f).a 3 ∧ counted (myChain s f).a 2 ∧ counted (myChain s f).s 0 ∧ chainOf (rf 0 1 7) = 7 ∧ s.me.priv = false := by
  unfold counted
  decide

theorem noneGone_of (s : State) (core : Nat) (h : (s.core core).crews.all (fun w => !w.gone) = true) : noneGone s core := by
  intro w hw
  simpa using (List.all_eq_true.1 h) w hw

theorem witness_Chains_complete :
    (let s := chained 2 false [entry 1 1, entry 2 0] marker
     let e : EntryRef := ⟨0, .crew 2, 2, 1⟩
     s.entry? e = some (entry 1 1) ∧ (entry 1 1).stage = 1 ∧ (entry 1 1).todo = [] ∧ (entry 1 1).flight = 0 ∧
     (chainAt s e).entries = entry 1 1 :: [entry 2 0] ∧ (entry 1 1).ticket = ((chainAt s e).s + 1).toNat ∧
     ((s.core 0).chain (.crew 2) 2).halt = false ∧ (∀ y ∈ [entry 2 0].head?, y.stage ≠ 2)) ∧
    (let s := chained 2 true [entry 1 3, entry 2 0] marker
     let e : EntryRef := ⟨0, .crew 2, 2, 1⟩
     (chainAt s e).halt = true ∧ (chainAt s e).entries = entry 1 3 :: [entry 2 0] ∧ (entry 1 3).ticket = ((chainAt s e).s + 1).toNat ∧
     (entry 1 3).told = true ∧ (∀ y ∈ [entry 2 0], y.stage = 0) ∧ (entry 2 0).ticket = ((chainAt s e).s + 2 + BitVec.ofNat 32 0).toNat) := by decide

theorem witness_Chains_gone : noneGone (chained 2 true [entry 1 3, entry 2 0] marker) 0 ∧ (m0.core 0).acqs = [] :=
  ⟨noneGone_of _ _ (by decide), by decide⟩

/-- What an engine's search of a round finds. -/
def found (s : State) (k : Nat) : Option (Nat × Owner × Nat) :=
  pickFrom ((s.core 0).roundAt k) ((s.core 0).round (engineChains k)) (fun x => (s.startable 0 x.1 x.2).isSome)

/-- The machine whose one entry waits for an earlier store of its strand. -/
def held9 (ch : Nat) (bytes : List Byte) : State :=
  { chained ch false [{ entry 1 0 with fork := 10 }] bytes with reqs := [{ req1 .store .home with order := 0 }] }

theorem witness_Engines_start :
    found m0 2 = none ∧
    (let s := chained 2 false [entry 1 0] marker
     found s 2 = some (2, .crew 2, 2) ∧ s.startable 0 (.crew 2) 2 = some (entry 1 0) ∧ (s.core 0).slotBad (16384 * 10) 64 = false ∧
     s.entryOk 0 (.crew 2) 1 2 true ((s.core 0).entryBytes (entry 1 0)) = true ∧ enKind ((s.core 0).entryBytes (entry 1 0)) = 6 ∧ (s.core 0).dringHead < 32) ∧
    (let s := chained 2 false [entry 1 0] slotCopy
     let b := (s.core 0).entryBytes (entry 1 0)
     found s 2 = some (2, .crew 2, 2) ∧ s.startable 0 (.crew 2) 2 = some (entry 1 0) ∧ s.entryOk 0 (.crew 2) 1 2 true b = true ∧
     enKind b = 2 ∧ cpDir b = 2 ∧ cpEf b = false) ∧
    (∀ x ∈ (m0.core 0).round (engineChains 2), m0.startNext 0 x.2.1 x.2.2 = none) ∧
    (∃ x ∈ ((held9 2 slotCopy).core 0).round (engineChains 2), (held9 2 slotCopy).startNext 0 x.2.1 x.2.2 ≠ none) ∧ found (held9 2 slotCopy) 2 = none ∧
    (m0.copyReplies 0 = [] ∧ ((m0.modMyCore fun c => { c with copyAt := some 100 }).core 0).copyAt = some 100) ∧ (List.replicate 16 (0 : Byte)).length = 16 := by
  decide

/-- A copy of two units from slot to slot, which empties its destination, and copies of eight elements of `longs` out of slot 1 and into it. -/
def slotCopyEf : List Byte := dwords [2 + 5 * 2 ^ 16, 0xFFFF + 1 * 2 ^ 16 + 2 * 2 ^ 24, 16 + 2 ^ 16, 0, 0, 0, 0, 0]
def copyOut : List Byte := dwords [2 + 2 * 2 ^ 16, 7 + 1 * 2 ^ 16, 8 + 2 ^ 16 + 64 * 2 ^ 32, 0, 0, 0, 0, 0]
def copyIn : List Byte := dwords [2, 7 + 1 * 2 ^ 16, 8 + 2 ^ 16 + 64 * 2 ^ 32, 0, 0, 0, 0, 0]

/-- An entry in progress with one unit left, and its core. -/
def unit0 (bytes : List Byte) : Entry := { entry 1 1 with bytes := bytes, todo := [0], recs := [(7, longs)] }
def copying (bytes : List Byte) : State := chained 2 false [unit0 bytes] bytes

/-- The request of its unit, of which two elements have been loaded. -/
def loaded : Req :=
  { req1 (.engine ⟨0, .crew 2, 2, 1⟩ false) .done with
    x := 0, elems := [{ elemAt 0x10000 8 0 8 false (bytesOfNat 8 3) with phase := .done }, { elemAt 0x10008 8 8 8 false (bytesOfNat 8 4) with phase := .done }] }

set_option exponentiation.threshold 600 in
set_option maxRecDepth 8000 in
theorem witness_Engines_copies :
    let e : EntryRef := ⟨0, .crew 2, 2, 1⟩
    (let s := copying slotCopy
     let b := (s.core 0).entryBytes (unit0 slotCopy)
     s.copyReplies 0 = [] ∧ (s.core 0).copyAt ≠ some s.cycle ∧ (s.core 0).copies.map (·.2) = [(e, (unit0 slotCopy))] ∧ s.entry? e = some (unit0 slotCopy) ∧ cpDir b = 2 ∧
     copySize (unit0 slotCopy) b ∈ [1, 2, 4, 8] ∧ cpSoff b % 16 = 0 ∧ cpSoff2 b % 16 = 0 ∧ cpRp b % 16 = 0 ∧ copyLen (unit0 slotCopy) b = 16 ∧ (s.core 0).slotErrors = [] ∧
     (unit0 slotCopy).ahead = [] ∧ cpN0 b % 16 = 0 ∧ unitRow (unit0 slotCopy) b 0 = 0 ∧ 16384 * cpSlot2 b / 16 ∉ (s.core 0).empty ∧ (s.core 0).slotBad (16384 * cpSlot2 b) 16 = false) ∧
    (let s := (copying slotCopy).modMyCore fun c => { c with empty := [2 * 1024] }
     16384 * cpSlot2 ((s.core 0).entryBytes (unit0 slotCopy)) / 16 ∈ (s.core 0).empty) ∧
    (let b := ((copying copyOut).core 0).entryBytes (unit0 copyOut)
     cpDir b = 1 ∧ unitLength (unit0 copyOut) b 0 = 64 ∧ (unitParts (unit0 copyOut) b 0).length = 8 ∧ ((copying copyOut).core 0).slotBad 16384 64 = false ∧
     (copying copyOut).spaceOf ((unit0 copyOut).copyOf 7) = 0) ∧
    cpDir (((copying copyIn).core 0).entryBytes (unit0 copyIn)) = 0 ∧
    (let s : State := { (copying copyIn).modMyCore fun c => { c with copyAt := some 100 } with reqs := [loaded] }
     let b := (s.core 0).entryBytes (unit0 copyIn)
     s.copyReplies 0 = [(loaded, e)] ∧ (s.core 0).copyAt = some s.cycle ∧ s.entry? e = some (unit0 copyIn) ∧ loaded.kind = .engine e false ∧
     (∀ y ∈ loaded.elems, y.put % copySize (unit0 copyIn) b = 0 ∧ y.put + copySize (unit0 copyIn) b ≤ unitLength (unit0 copyIn) b loaded.x.toNat ∧
       y.data.length = copySize (unit0 copyIn) b) ∧ (loaded.elems.map (·.put)).Nodup) ∧
    (let s := chained 2 false [entry 1 0] slotCopyEf
     let b := (s.core 0).entryBytes (entry 1 0)
     s.entryOk 0 (.crew 2) 1 2 true b = true ∧ enKind b = 2 ∧ cpDir b = 2 ∧ cpEf b = true) := by decide

/-- A gather of one row of one element of `longs` to slot 2, whose index list in slot 1 names this row. -/
def gather : List Byte := dwords [5, 7 + 1 * 2 ^ 16 + 2 * 2 ^ 24, 1 + 2 ^ 16 + 16 * 2 ^ 32, 0, 0, 0, 0, 0]
def gathering (row : Nat) : State :=
  (chained 5 false [unit0 gather] gather).modMyCore fun c => { c with slots := Memory.write c.slots 16384 (bytesOfNat 4 row) }

set_option exponentiation.threshold 600 in
set_option maxRecDepth 8000 in
theorem rowIsNext_of (row : Nat) (h : row = 1023 ∨ row = 1024) :
    RowIsNext (gathering row) ⟨0, .crew 2, 5, 1⟩ (unit0 gather) (((gathering row).core 0).entryBytes (unit0 gather)) 0 7 row longs := by
  rcases h with rfl | rfl
  all_goals exact ⟨by decide, by decide, by decide, by decide, by decide, by decide, by decide, by decide, by decide, by decide, by decide, by decide,
    by decide, by decide⟩

set_option exponentiation.threshold 600 in
set_option maxRecDepth 8000 in
theorem witness_Engines_gathers :
    let e : EntryRef := ⟨0, .crew 2, 5, 1⟩
    let b := ((gathering 1023).core 0).entryBytes (unit0 gather)
    (gathering 1023).rowReply e 9 = none ∧ 1023 < recExt longs (recRank longs - 1) ∧ inside longs (rowElement longs 1023 0 b) ∧ gaN0 b = 1 ∧
    (gathering 1023).spaceOf longs = 0 ∧ recExt longs (recRank longs - 1) ≤ 1024 ∧
    ((gathering 1024).core 0).appender (unit0 gather) = some ⟨0, 0⟩ ∧
    (let q := { req1 (.engine e false) .done with x := 0, y := 7, elems := [{ elemAt 0x10000 8 0 8 false (bytesOfNat 8 3) with phase := .done }] }
     let s : State := { gathering 1023 with reqs := [q] }
     s.entry? e = some (unit0 gather) ∧ s.rowReply e 0 = some q ∧ typeSize (recFormat ((unit0 gather).copyOf (gaHandle b))) = 8 ∧ (q.elems.map (·.put)).Nodup ∧
     ∀ y ∈ q.elems, y.put % 8 = 0 ∧ y.put + 8 ≤ (gaN0 b * 8 + 15) / 16 * 16 ∧ y.data.length = 8) := by
  unfold inside
  decide

/-- A tile record in an engine, at a stage. -/
def inEngine (stage row : Nat) (bytes : List Byte) : State :=
  (chained 0 false [{ entry 1 1 with bytes := bytes }] bytes).modMyCore fun c => { c with
    engines := c.engines.set 0 { entry := some ⟨0, .crew 2, 0, 1⟩, stage := stage, row := row } }

theorem witness_Engines_matrix :
    (let s := chained 0 false [entry 1 0] tile
     (s.core 0).nextSuspended = none ∧
     pickFrom (s.core 0).rrTile ((s.core 0).round [0, 1]) (fun x => s.tileReady 0 x.1 x.2) = some (0, .crew 2, 0) ∧
     ((s.core 0).chain (.crew 2) 0).head = some (entry 1 0) ∧ (s.core 0).freeEngine = some 0 ∧
     s.entryOk 0 (.crew 2) 1 0 true ((s.core 0).entryBytes (entry 1 0)) = true ∧ enKind ((s.core 0).entryBytes (entry 1 0)) = 1 ∧
     tkNok ((s.core 0).entryBytes (entry 1 0)) = false) ∧
    (∀ x ∈ (m0.core 0).round [0, 1], m0.tileNext 0 x.2.1 x.2.2 = false) ∧
    (let s := held9 0 tile
     pickFrom (s.core 0).rrTile ((s.core 0).round [0, 1]) (fun x => s.tileReady 0 x.1 x.2) = none ∧
     ∃ x ∈ (s.core 0).round [0, 1], s.tileNext 0 x.2.1 x.2.2 = true) ∧
    (let s := inEngine 3 0 tile
     ((s.core 0).engine 0).entry = some ⟨0, .crew 2, 0, 1⟩ ∧ ((s.core 0).engine 0).stage = 3 ∧ ((s.core 0).engine 0).due ≤ s.cycle) ∧
    (let s := inEngine 4 62 tile
     ((s.core 0).engine 0).stage = 4 ∧ ((s.core 0).engine 0).row < 63 ∧ tkDm (s.recordBytes ⟨0, .crew 2, 0, 1⟩) ≠ 2) := by decide

theorem witness_Engines_gone : noneGone (inEngine 3 0 tile) 0 := noneGone_of _ _ (by decide)

set_option maxRecDepth 4000 in
theorem witness_TablesAndAccumulatorImages :
    let s := withRecord1 0
    s.cur.pos < 16 ∧ s.cur.core < 256 ∧ s.tilesUnstarted = false ∧ s.feature 2 = true ∧ (∀ b ∈ (s.vbytes 1).take 64, b.toNat ≤ 8) ∧
    ({ m0 with cur := ⟨0, 16⟩ } : State).cur.pos = 16 ∧
    ((s.sval 2).setWidth 8 &&& ~~~s.myCrew.acMask ≠ 0) ∧ ((3 : BitVec 8) &&& ~~~s.myCrew.acMask = 0) ∧
    s.myCore.tileNames (s.ownerOf s.cur) 3 = false ∧ s.oob = false ∧ s.me.priv = false ∧ (s.modMe fun st => { st with priv := true }).me.priv = true ∧
    0x10000 % 1024 = 0 ∧ 0x10000 + 66560 ≤ 576 * 2 ^ 30 ∧ s.myCore.slotInUse 7 = false ∧
    s.clearOf 0x10000 66560 = true := by decide

theorem witness_TablesAndAccumulatorImages_operands :
    m0.placed ∧ m0.canIssue [.v 1 false] [] ∧ m0.canIssue [.s 1 false] [.s 3 false] ∧ m0.canIssue [.s 1 false, .s 2 false] [.s 3 false] ∧
    m0.unbound (.s 3 false) ∧ ({ m0 with cur := ⟨0, 16⟩ } : State).canIssue [.s 1 false] [] ∧ ({ m0 with
      cur := ⟨0, 16⟩, cores := [{ core0 with strands := (Vector.replicate 17 {}).set 16 { vView := ⟨0, 64⟩ } }] } : State).canIssue [.v 1 false] [] :=
  ⟨⟨by decide, by decide⟩, canIssue_of _ _ _ (by decide), canIssue_of _ _ _ (by decide), canIssue_of _ _ _ (by decide), by unfold State.unbound; decide,
    canIssue_of _ _ _ (by decide), canIssue_of _ _ _ (by decide)⟩

/-! ### Channels, parks, barriers and dispatchers -/

/-- Task 2 of the job: output channel 4 as CH0, input channel 5 as CH1, and group 6, 7 or 8 as memberships 0 to 2. -/
def task2 : Task :=
  { index := 2, entry := 0x1000, arg := 77, ctx := 0x40000, nsm1 := 0, cls := 1, start := true, crit := false, aff := 0, floor := ⟨8, 1, 0⟩,
    claim := ⟨16, 2, 1⟩, memb := [some 6, some 7, some 8, none], chans := [some (false, 4), some (true, 5)], phase := .placed, ran := false,
    fromCut := false, lastCore := none, bound := false, saved := none, epoch := 0, recorded := false, kept := [] }

/-- Channel n with a ring of four tokens at 0x8000, `count` of them in it, from task 2 to itself. -/
def chan (n count : Nat) : Channel :=
  { num := n, base := 0x8000, cap := 4, scope := 0, homeDie := 1, pdev := 0, ptask := 2, pnone := false, cdev := 0, ctask := 2, head := 0,
    tail := count % 4, count := count, closedP := false, closedC := false, marker := none, sends := [], recvs := [], parked := false, sink := false,
    lostEos := false, moved := 0 }

/-- Group n of a kind, homed here, of two members. -/
def group (n kind : Nat) : Group :=
  { index := n, kind := kind, homeDie := 1, homeDev := 0, nmemb := 2, members := 0x9000, rwords := 128, sleet := false, tmo := 0, report := 0 }

/-- Barrier group 6 in phase 3, of two members, of which one has arrived. -/
def bar6 (arr : List (Nat × Nat)) (waiters : List (BarOp × Nat)) : Barrier :=
  { group := 6, ph := 3, e := 2, n := arr.length, d := 0, arr := arr, drop := [], waiters := waiters }

/-- The job with its task, the channels, three groups and the barrier. -/
def job2 (chans : List Channel) (b : Barrier) : Job :=
  { job1 with tasks := [task2], chans := chans, groups := [group 6 1, group 7 2, group 8 3], barriers := [b], nchan := 8 }

/-- The small machine with that job. -/
def tasked (chans : List Channel) : State := { withJob (job2 chans (bar6 [] [])) with bar := { drvLo := 0x7FF } }

theorem witness_Channels_issue :
    let s := tasked [chan 4 0, chan 5 0]
    (s.cur.core < 256 ∧ s.cur.pos < 16) ∧ (s.chan? (s.pidOf s.cur) 4 = some (chan 4 0) ∧ (chan 4 0).num = 4 ∧ (chan 4 0).cdev = s.device) ∧
    s.myChan (rf 3 4 0).b.toNat = some (false, 4) ∧ s.quiet s.cur = true ∧ s.holdsLater s.cur = false ∧ s.myChan (rf 3 4 1).b.toNat = some (true, 5) ∧ s.myChan 31 = none ∧
    ({ s with cur := ⟨0, 16⟩ } : State).cur.pos = 16 ∧ 256 ≤ ({ s with cur := ⟨256, 0⟩ } : State).cur.core ∧
    (let s := s.modMe fun st => { st with wait := some (.reply 9) }
     (s.strand ⟨0, 0⟩).wait = some (.reply 9) ∧ (s.strand ⟨0, 0⟩).trapCause.getLsbD 61 = false ∧ (s.strand ⟨0, 0⟩).bound (.s 3 false) = none ∧
     (s.strand ⟨0, 0⟩).bound (.s 0 false) = none ∧ (s.strand ⟨0, 0⟩).isFree 3 = true) ∧
    ((m0.modMe fun st => { st with full := 0 }).strand ⟨0, 0⟩).isFree 3 = false := by decide

theorem witness_Channels_operands :
    (tasked [chan 4 0]).canIssue [.s 1 false] [] ∧ (tasked [chan 4 0]).canWrite (.s 3 false) ∧ (tasked [chan 4 0]).canWrite (.s 4 false) :=
  ⟨canIssue_of _ _ _ (by decide), canWrite_of _ _ (by decide), canWrite_of _ _ (by decide)⟩

/-- A SEND of the small machine's strand, and an EOS. -/
def op4 (val : Word) : ChanOp := ⟨⟨0, 0⟩, 1, 4, val, 3, 5, 9⟩

theorem witness_Channels_home :
    (let s := tasked [chan 4 0]
     s.chan? (op4 5).pid (op4 5).chan = some (chan 4 0) ∧ peerOf (op4 5).sid.pos = none ∧
     (s.oob = false ∧ (chan 4 0).base + 8 * (chan 4 0).cap ≤ 576 * 2 ^ 30 ∧ (chan 4 0).head < (chan 4 0).cap ∧ (chan 4 0).tail < (chan 4 0).cap) ∧
     (chan 4 0).closedP = false ∧ (chan 4 0).count < (chan 4 0).cap ∧ (chan 4 0).closedC = false ∧ (chan 4 0).count = 0) ∧
    (chan 4 3).count ≠ 0 ∧ (chan 4 4).cap ≤ (chan 4 4).count ∧ (chan 4 4).tail < (chan 4 4).cap ∧ (chan 4 4).sink = false ∧
    (tasked [{ chan 4 3 with closedP := true, closedC := true }]).chan? 1 4 = some { chan 4 3 with closedP := true, closedC := true } ∧
    ((chan 4 0).sends = [] ∧ (chan 4 0).recvs = [] ∧ (chan 4 0).parked = false ∧ (chan 4 0).lostEos = false ∧ (chan 4 0).marker = none) := by decide

/-- Channel 4 with its producer's SEND on a full ring, and that SEND's strand; task 2 sends to itself, a ring of one edge. -/
def stalled : State :=
  let c := { chan 4 4 with sends := [(op4 5, 90)] }
  { (tasked [c]).modMe fun st => { st with wait := some (.reply 9) } with cycle := 70000 }

theorem witness_Channels_stall :
    (∀ p ∈ (chan 4 4).sends, p.1 ≠ op4 5) ∧ (∃ p ∈ [(op4 5, 90)], p.1 = op4 5) ∧ (stalled.strand (op4 5).sid).wait = some (.reply (op4 5).serial) ∧
    (stalled.strand (op4 5).sid).trapCause.getLsbD 61 = false ∧ (chan 4 4).edge = false ∧
    (job2 [{ chan 4 4 with sends := [(op4 5, 90)] }] (bar6 [] [])).ring stalled.cycle { chan 4 4 with sends := [(op4 5, 90)] } = some [4] := by decide

/-- The small machine whose strand waits in a PARK that has been registered at its input. -/
def parking (stage : Nat) (waiting : List Nat) (token : Bool) : State :=
  let s := (tasked [chan 5 0]).modMe fun st => { st with wait := some (.reply 9) }
  s.modMyCore fun c => { c with parks := [⟨0, 2, [⟨0, 0⟩], false, waiting, token, stage, some 0⟩] }

theorem witness_Parks :
    let park : Bool → List Nat → Park := fun token waiting => ⟨0, 2, [⟨0, 0⟩], false, waiting, token, 2, some 0⟩
    (m0.cur.core < 256 ∧ m0.cur.pos < 16 ∧ m0.myCrew.pos = [m0.cur.pos]) ∧
    (let s := parking 2 [5] false
     (s.core 0).parks.find? (fun p => p.task == 2) = some (park false [5]) ∧ s.chan? (s.owned 0 (.crew 2)).pid 5 = some (chan 5 0) ∧ 5 ∈ [5]) ∧
    (let s := parking 2 [] true
     (s.core 0).parks.find? (fun p => p.task == 2) = some (park true []) ∧
     (s.job? (s.owned 0 (.crew 2)).pid).bind (fun j => j.task? 2) = some task2 ∧ (park true []).gathered (s.owned 0 (.crew 2)) = true ∧
     (s.owned 0 (.crew 2)).stopped = false ∧ (park true []).strands.Nodup ∧ (∀ sid ∈ (park true []).strands, sid.pos < 17 ∧ sid.core = 0)) ∧
    (let s := parking 2 [] false
     s.streamsOver (s.owned 0 (.crew 2)).pid task2 = false ∧ (park false []).pooled = false ∧ (park false []).woken = some 0) := by decide

/-- An arrival at group 6, and a wait for a phase. -/
def barOp (task : Nat) (phase : Option Nat) : BarOp := ⟨⟨0, 0⟩, 1, task, 6, 0, false, true, phase, 3, 9⟩

theorem witness_Barriers :
    (let s := tasked []
     s.myTask?.bind (fun t => (t.memb[(rf 3 0 0).b.toNat]?).getD none) = some 6 ∧ s.group? (s.pidOf s.cur) 6 = some (group 6 1) ∧ (group 6 1).kind = 1 ∧
     (group 6 1).homeDev = s.device ∧ s.myCrew.synced = [] ∧ s.quiet s.cur = true ∧ s.holdsLater s.cur = false ∧ (s.myCrew.lastPhase[0]?).getD none = none ∧
     (((s.modMyCrew fun w => { w with lastPhase := w.lastPhase.set 0 (some 3) }).myCrew.lastPhase[0]?).getD none) = some 3) ∧
    (let j := job2 [] (bar6 [(0, 2)] [])
     (withJob j).job? 1 = some j ∧ j.barriers.find? (fun b => b.group == (barOp 2 none).group) = some (bar6 [(0, 2)] []) ∧
     (0, 2) ∈ (bar6 [(0, 2)] []).arr ∧ (0, 3) ∉ (bar6 [(0, 2)] []).arr ∧ (0, 3) ∉ (bar6 [(0, 2)] []).drop ∧
     (bar6 [(0, 2)] []).n + 1 = (bar6 [(0, 2)] []).e ∧ (barOp 2 (some 2)).phase = some 2 ∧ (bar6 [] []).ph ≠ 2 ∧ (bar6 [] []).ph = 3 ∧
     j.task? 2 = some task2 ∧ task2.memb[0]? = some (some 6) ∧ j.group? 6 = some (group 6 1)) ∧
    (let s := m0.modMe fun st => { st with wait := some (.reply 9) }
     (s.strand ⟨0, 0⟩).wait = some (.reply 9) ∧ (s.core 0).crewAt 0 = some crew ∧ (s.strand ⟨0, 0⟩).bound (.s 3 false) = none ∧ (s.strand ⟨0, 0⟩).isFree 3 = true) := by decide

theorem witness_Barriers_operands : (tasked []).canWrite (.s 3 false) := canWrite_of _ _ (by decide)

/-- A machine that runs, with task 3 of PID 1 in the pool of die 0 since cycle 50. -/
def pooled (cycle : Nat) : State :=
  let s := { withJob { job1 with tasks := [{ task2 with index := 3, nsm1 := 1, phase := .ready }] } with bar := { sec := 1 }, cycle := cycle }
  s.modDie 0 fun d => { d with pool := [⟨1, 3, 50, false⟩] }

theorem witness_Dispatch_nothing : ∀ i, i < 4 → (m0.die i).pool = [] := by decide

set_option maxRecDepth 4000 in
theorem witness_Dispatch :
    (let s := pooled 100
     s.bar.sec = 1 ∧ s.bar.pwr = 0 ∧ s.pickOwn 0 = some (⟨1, 3, 50, false⟩, 0) ∧ s.job? 1 = some { job1 with tasks := [{ task2 with index := 3, nsm1 := 1, phase := .ready }] } ∧
     (s.core 0).clearing = false ∧ (s.core 0).lastJob = none ∧ task2.ran = false ∧ task2.saved = none ∧ task2.bound = false ∧ s.cycle < 50 + 2 ^ 20) ∧
    (let s := pooled (50 + 2 ^ 20)
     50 + 2 ^ 20 ≤ s.cycle ∧ (s.die 0).pool.find? (fun e => e.pid == 1 && e.task == 3) = some ⟨1, 3, 50, false⟩ ∧
     s.entryTask ⟨1, 3, 50, false⟩ = some { task2 with index := 3, nsm1 := 1, phase := .ready } ∧
     (s.placeFor 0 1 { task2 with index := 3, nsm1 := 1, phase := .ready }).isSome = true) ∧
    (let s : State := { m0.modCore 0 fun c => { c with clearing := true, clearFrom := 10 } with cycle := 8202 }
     (s.core 0).clearing = true ∧ (s.core 0).chain7.s = (s.core 0).chain7.a ∧ (s.core 0).clearFrom + 8192 ≤ s.cycle) := by decide

/-! ### Groups and the fabric -/

/-- The job's groups: group 7 is ordered, its members' windows at 0x100000 of this device and 0x200000 of device 1; group 8 reduces here alone. -/
def grouped (seqs : List Sequencer) (members : List GroupMember) (rounds : List Round) (waits : List RoundWait) : State :=
  { withJob { job2 [] (bar6 [] []) with
      groups := [group 6 1, group 7 2, { group 8 3 with members := 0xA000 }, { group 9 2 with homeDev := 1 }], seqs := seqs, members := members, rounds := rounds,
      waits := waits } with
    bar := { drvLo := 0x7FF }
    mem := Memory.write (Memory.write [] 0x9000 (bytesOfNat 8 0x100000)) 0x9010 (bytesOfNat 8 0x200000 ++ bytesOfNat 2 1) }

theorem witness_GroupInstructions_groups :
    let s := grouped [] [] [] []
    s.feature 6 = true ∧ s.feature 7 = true ∧ s.feature 8 = true ∧ (s.cur.core < 256 ∧ s.cur.pos < 16) ∧
    (s.myTask?.bind (fun t => (t.memb[1]?).getD none) = some 7 ∧ s.group? (s.pidOf s.cur) 7 = some (group 7 2) ∧ (group 7 2).kind = 2 ∧
      (group 7 2).homeDev = s.device ∧ (group 7 2).rwords ≤ 128 ∧ 127 < (group 7 2).rwords ∧ s.quiet s.cur = true ∧ s.holdsLater s.cur = false ∧ s.storesMeet (group 7 2) 127 = false) ∧
    (let g := { group 8 3 with members := 0xA000 }
     s.myTask?.bind (fun t => (t.memb[2]?).getD none) = some 8 ∧ s.group? (s.pidOf s.cur) 8 = some g ∧ g.kind = 3 ∧ g.homeDev = s.device ∧
     s.roundsOut (s.pidOf s.cur) 8 < 8 ∧ g.sleet = false ∧ s.windowBusy 3 = false ∧
     (job2 [] (bar6 [] [])).earlyParts 8 (lookupD (job2 [] (bar6 [] [])).nextRound 8 0) = []) ∧ s.myCore.cannotSend = false := by decide

theorem witness_GroupInstructions_operands :
    let s := grouped [] [] [] []
    s.canIssue [.s 1 false] [.s 3 false] ∧ s.canIssue [.v 2 false] [.v 3 false, .s 4 false] ∧ s.placed ∧ s.unbound (.v 2 false) ∧
    s.unbound (.v 3 false) ∧ s.unbound (.s 4 false) ∧ s.canWrite (.s 3 false) :=
  ⟨canIssue_of _ _ _ (by decide), canIssue_of _ _ _ (by decide), ⟨by decide, by decide⟩, by unfold State.unbound; decide, by unfold State.unbound; decide,
    by unfold State.unbound; decide, canWrite_of _ _ (by decide)⟩

/-- Words of slot 3 of core 5, in the remote-slot space. -/
def remote : Nat := record1 (3 + 64 * 2 ^ 8 + 5 * 2 ^ 22) 3 3 3 64 4

set_option exponentiation.threshold 600 in
set_option maxRecDepth 20000 in
theorem witness_GroupInstructions_slsend :
    let s := withRecord1 remote
    s.record s.cur.core (s.pidOf s.cur) 7 = .ok remote ∧ s.myCore.cannotSend = false ∧ recSpace remote = 3 ∧ recW remote = true ∧
    (coordRegs x7).length ≤ recRank remote ∧ recStride remote 0 = typeSize (recFormat remote) ∧ inside remote (coordsOf x7 s) ∧
    locate remote (dieOf s.cur.core) (coordsOf x7 s) % 16384 + 512 ≤ 16384 ∧ locate remote (dieOf s.cur.core) (coordsOf x7 s) % 64 = 0 := by
  unfold inside
  decide

theorem witness_GroupInstructions_sleet : (withRecord1 remote).canIssue (coordOpnds x7 ++ [.v 1 false, .s 2 false]) [] :=
  canIssue_of _ _ _ (by decide)

/-- A multicast store of the small machine's strand, and a sequencer that has stamped five, of which member 1 lacks one. -/
def mcst : McstOp := ⟨⟨0, 0⟩, 1, 7, 3, 0x55, false, 3, 9⟩
def seq7 (frozen : Bool) : Sequencer :=
  { group := 7, n := 5, acked := [5, 4], frozen := frozen, failed := 0, stable := 4, stores := [(5, mcst, 100)], queue := [], told := false }

theorem witness_OrderedGroups_sequencer :
    (let s : State := { grouped [seq7 false] [] [] [] with unapplied := [⟨⟨0, 0⟩, 9, some 7, 3, none⟩] }
     s.group? mcst.pid mcst.group = some (group 7 2) ∧ s.seq? mcst.pid mcst.group = some (seq7 false) ∧ peerOf mcst.sid.pos = none ∧ mcst.sid.pos < 17 ∧
     (s.unapplied.find? fun u => u.sid == mcst.sid && u.serial == mcst.serial) = some ⟨⟨0, 0⟩, 9, some 7, 3, none⟩ ∧ mcst.d ≠ 0 ∧ (seq7 false).queue = [] ∧
     (seq7 false).room = true) ∧
    (grouped [seq7 true] [] [] []).seq? mcst.pid mcst.group = some (seq7 true) ∧
    -- member 1 has missed store 5 for 1 ms, and member 0 has not
    (2 ^ 31 ≤ ((((seq7 false).acked.getD 1 0 : Nat) : Int) - 5) % 2 ^ 32) ∧ ¬(2 ^ 31 ≤ ((((seq7 false).acked.getD 0 0 : Nat) : Int) - 5) % 2 ^ 32) ∧
    (let q := { seq7 false with acked := [4, 4] }
     100 + 1250000 ≤ 1250100 ∧ (5, mcst, 100) ∈ q.stores ∧ 0 < q.acked.length ∧ (grouped [] [] [] []).memberDev (group 7 2) 0 ≠ (grouped [] [] [] []).memberDev (group 7 2) 1 ∧
       2 ^ 31 ≤ (((q.acked.getD 0 0 : Nat) : Int) - 5) % 2 ^ 32) := by decide

theorem witness_OrderedGroups_member :
    let s : State := { grouped [] [⟨9, 4, []⟩] [] [] with fabric := { shape := 0 } }
    let g := { group 9 2 with homeDev := 1 }
    s.job? 1 = some { job2 [] (bar6 [] []) with
      groups := [group 6 1, group 7 2, { group 8 3 with members := 0xA000 }, g], members := [⟨9, 4, []⟩] } ∧
    s.group? 1 9 = some g ∧ g.index = 9 ∧ g.homeDev ≠ s.device ∧ s.membersOn g s.device = [0] ∧ s.orderedMember g 0 = (0x100000, s.device) ∧
    0x100000 + 8 * 127 + 8 ≤ 576 * 2 ^ 30 ∧ 5 = (4 + 1) % 2 ^ 32 ∧ (2 ^ 31 ≤ ((4 : Int) - 6) % 2 ^ 32) ∧ (((4 : Int) - 4) % 2 ^ 32 < 2 ^ 31) := by decide

/-- A contribution to round 0 of group 8, and the round with the first member's. -/
def red (m : Nat) : RedOp := ⟨1, 8, 0, m, false, List.replicate 128 0, 255, none, []⟩
def round8 (failed : Bool) : Round :=
  { group := 8, round := 0, bf16 := false, since := 50, got := [0], blocks := [255], lanes := [], failed := failed }

set_option maxRecDepth 4000 in
theorem witness_Reductions_root :
    let g := { group 8 3 with members := 0xA000 }
    (grouped [] [] [] []).group? (red 0).pid (red 0).group = some g ∧ g.index = (red 0).group ∧ (grouped [] [] [] []).round? 1 8 0 = none ∧ (red 0).more.length + 1 ≠ g.nmemb ∧
    (let s := grouped [] [] [round8 false] []
     s.round? 1 8 0 = some (round8 false) ∧ (red 0).member ∈ (round8 false).got ∧ (∀ m ∈ (red 1).member :: (red 1).more, m ∉ (round8 false).got) ∧ g.sleet = false ∧
     (round8 false).got.length + 0 + 1 = g.nmemb ∧ s.memberDevs g = [s.device] ∧ s.oob = false ∧
     g.report + (bitmapBytes g.nmemb ((List.range g.nmemb).filter fun i => i ∉ (round8 false).got)).length ≤ 576 * 2 ^ 30) ∧
    (grouped [] [] [round8 true] []).round? 1 8 0 = some (round8 true) := by decide

/-- A REDUCE that waits for round 0, and its result. -/
def wait8 : RoundWait :=
  { group := 8, round := 0, sid := some ⟨0, 0⟩, entry := none, d := 3, a := 4, base := 1536, bf16 := false, pc := 0x1000, win := false, parts := [] }
def result8 (failed : Bool) : RedResult := ⟨1, 8, 0, failed, 1, List.replicate 128 0, [], []⟩

set_option maxRecDepth 4000 in
theorem witness_Reductions_result :
    let s := grouped [] [] [] [wait8]
    (s.job? (result8 false).pid).isSome = true ∧ s.group? 1 (result8 false).group = some { group 8 3 with members := 0xA000 } ∧
    (s.job? 1).bind (fun j => j.waits.find? fun w => w.group == 8 && w.round == 0) = some wait8 ∧ wait8.sid = some ⟨0, 0⟩ ∧ wait8.win = false ∧ wait8.a ≠ 0 ∧
    (s.core 0).crewAt 0 = some crew ∧ wait8.app = none ∧ wait8.app2 = none ∧ wait8.base % 64 = 0 ∧ (result8 false).lanes.length = (if wait8.bf16 then 256 else 128) ∧
    (result8 true).failed = true := by decide

/-- A bulk reduction of two vectors from slot 1 to slot 2 for membership 2. -/
def bulk : List Byte := dwords [16, 1 + 2 * 2 ^ 22 + 1 * 2 ^ 44 + 2 * 2 ^ 49, 0, 0, 0, 0, 0, 0]
def bulking (todo : List Nat) (waits : List RoundWait) : State :=
  { chained 6 false [{ entry 1 1 with todo := todo, bytes := bulk }] bulk with
    jobs := [{ job2 [] (bar6 [] []) with groups := [group 8 3], waits := waits }] }

set_option maxRecDepth 4000 in
theorem witness_Reductions_bulk :
    let e : EntryRef := ⟨0, .crew 2, 6, 1⟩
    let s := bulking [1] []
    s.entry? e = some { entry 1 1 with todo := [1], bytes := bulk } ∧ e.owner = .crew 2 ∧
    s.memberGroup 1 2 (brMemb ((s.core 0).entryBytes { entry 1 1 with todo := [1], bytes := bulk })) = some (group 8 3) ∧ (group 8 3).homeDev = s.device ∧ s.roundsOut 1 8 < 8 ∧
    8 ≤ (bulking [1] (List.replicate 8 wait8)).roundsOut 1 8 ∧
    (match (s.core 0).sourceBytes [] (sourcePlaces 1 512 512 0) 512 with | .bytes _ => true | _ => false) = true := by decide

/-- A message of core 0 to a device, of a class, with one flit. -/
def message (dst cls op : Nat) : Msg :=
  { dst := dst, src := 0, cls := cls, op := op, pid := 1, pseq := 0, budget := 1, group := 0, gseq := 0, addr := 2 ^ 63 + 0x4000, tag := 0, opnd := 0,
    pay := [(true, 5)] }

/-- A hop of a message. -/
def hop (m : Msg) (port : Option Nat) (replays : Nat) : Hop := ⟨m, m.detours, port, replays, false, 100, 9, 0⟩

/-- The small machine as device 0 of a system of two devices along X, with these hops. -/
def fabric1 (hops : List Hop) (down : BitVec 8) : State := { m0 with fabric := { shape := 0x10000, hops := hops, linkDown := down }, bar := { sec := 1 } }

theorem witness_MessagesTravel_refill :
    let s := m0.modMyCore fun c => { c with spilled := [message 8 0 1] }
    (s.core 0).niBusy = false ∧ (s.core 0).inject = [] ∧ (s.core 0).spilled ≠ [] := by decide

theorem witness_MessagesTravel_send :
    (let s := m0.modMyCore fun c => { c with inject := [message 8 0 1] }
     (s.core 0).niBusy = false ∧ (s.core 0).inject = message 8 0 1 :: [] ∧ (message 8 0 1).cls ≠ 3) ∧
    ((fabric1 [] 0).fabric.hops.find? Hop.waiting = none) ∧
    ((fabric1 [hop (message 0 0 1) none 0] 0).fabric.hops.find? Hop.waiting = some (hop (message 0 0 1) none 0) ∧
      (fabric1 [] 0).routePort 0 = none ∧ (fabric1 [] 0).routePort 8 = some 4 ∧ (fabric1 [] 0).portUp 4 = true ∧ (fabric1 [] 0x15).portUp 4 = false ∧
      (fabric1 [] 0x15).detourPort = none ∧
      (fabric1 [] 0).replayRoom 4 (message 8 0 1) = true ∧ (fabric1 [] 0x10).detourPort = some 2 ∧ (fabric1 [] 0x10).replayRoom 2 (message 8 0 1) = true) ∧
    ((fabric1 [hop (message 8 0 1) (some 7) 16] 0).fabric.hops.find? (fun h => h.port == some 7) = some (hop (message 8 0 1) (some 7) 16)) := by decide

theorem witness_MessagesTravel_receive :
    (let s := m0.modMyCore fun c => { c with kept := [(message 8 0 1, 20, 2)] }
     (s.core 0).kept.find? (fun x => x.1.dst == 8 && x.1.cls == 0 && x.1.pseq == 0) = some (message 8 0 1, 20, 2) ∧ 0 < 0xFFFF ∧ s.oob = false) ∧
    ((fabric1 [] 0).bar.pwr = 0 ∧ (fabric1 [] 0).bar.sec ≠ 0 ∧ 15 < (message 0 0 16).op ∧ (message 8 0 15).op ≤ 15 ∧ (message 8 0 15).pay.length ≤ 8 ∧ (message 8 0 15).resv = 0 ∧ (message 8 0 15).poisoned = false ∧
      ({ message 8 0 15 with resv := 1 } : Msg).resv ≠ 0 ∧ ({ message 8 0 15 with poisoned := true } : Msg).poisoned = true ∧
      (message 8 0 15).dst ≠ (fabric1 [] 0).device ∧ 8 < ({ message 0 0 1 with pay := List.replicate 9 (true, 0) } : Msg).pay.length) := by decide

/-- Contributions of two devices to round 0 of group 8 that a switch holds. -/
def heldPart (src id : Nat) : Hop :=
  { hop { message 8 3 9 with src := src, group := 8, pay := List.replicate 8 (true, 0) } none 0 with held := true, id := id }

set_option maxRecDepth 8000 in
theorem witness_Reductions_partial :
    let h := heldPart 16 9
    let s := fabric1 [h, heldPart 24 10] 0
    s.fabric.hops.find? (fun h => h.held && h.msg.pid == 1 && h.msg.group == 8 && h.msg.gseq == 0) = some h ∧ h.port = none ∧
    s.fabric.hops.filter (fun y => h.meets y) = [h, heldPart 24 10] ∧
    (fabric1 [] 0).fabric.hops.find? (fun h => h.held && h.msg.pid == 1 && h.msg.group == 8 && h.msg.gseq == 0) = none := by decide

theorem witness_LinksAndSleet :
    (fabric1 [] 0x80).fabric.linkDown.getLsbD 7 = true ∧ (fabric1 [] 0x80).fabric.retrain.getLsbD 7 = false ∧ (fabric1 [] 0).fabric.linkDown.getLsbD 7 = false ∧
    (fabric1 [hop (message 8 3 11) none 0] 0).fabric.hops.find? (fun h => h.id == 9) = some (hop (message 8 3 11) none 0) ∧
    (fabric1 [hop (message 8 3 11) (some 4) 0] 0).fabric.hops.find? (fun h => h.id == 9) = some (hop (message 8 3 11) (some 4) 0) ∧
    (message 8 3 11).cls = 3 ∧ (hop (message 8 3 11) none 0).held = false ∧
    ((m0.modMyCore fun c => { c with inject := [message 8 3 11] }).core 0).inject = message 8 3 11 :: [] ∧
    0 < (message 8 3 11).pay.length ∧ (message 0 3 11).addr / 2 ^ 22 % 256 = 0 ∧ (m0.core 0).job ≠ some 2 ∧ (m0.core 0).job = some 1 := by decide

/-! ### Control, crews, cuts and context images -/

/-- The small machine in privileged mode. -/
def priv0 : State := m0.modMe fun st => { st with priv := true }

theorem witness_ControlRegisters :
    priv0.crAccess 0x300 = .ok ⟨0, 0⟩ ∧ priv0.crAccess 0x302 = .ok ⟨0, 0⟩ ∧ m0.crAccess 0x002 = .ok ⟨0, 0⟩ ∧ priv0.me.priv = true ∧
    priv0.me.crTarget.getLsbD 15 = false ∧ priv0.quiet priv0.cur = true ∧ priv0.oob = false ∧ m0.me.priv = false ∧ 0x100 ≤ (e2 0x100).immA ∧
    (e2 0xFFF).immA = 0xFFF ∧ (0x8001#64).getLsbD 15 = true ∧ (0x8001#64).toNat % 256 ≠ 0 := by decide

theorem witness_ControlRegisters_operands : priv0.canIssue [] [.s 3 false] ∧ priv0.canIssue [.s 1 false] [] :=
  ⟨canIssue_of _ _ _ (by decide), canIssue_of _ _ _ (by decide)⟩

theorem witness_FencesPointsAndHalts :
    (m0.quiet m0.cur = true ∧ m0.jobs = []) ∧ (rq 0 0 0 1).qf.getLsbD 0 = true ∧ (rf 0 0 0).qf.getLsbD 0 = false ∧
    (reqs1 [] (req1 .store .home)).quiet ⟨0, 0⟩ = false ∧ (ex 0 0).scope ≠ 10 ∧ (ex 0 0).scope = 0 ∧
    ((tasked []).cur.core < 256 ∧ (tasked []).cur.pos < 16 ∧ ((tasked []).myTask?.bind fun t => (t.memb[0]?).getD none).isSome = true) ∧
    ((tasked []).myTask?.bind fun t => (t.memb[3]?).getD none) = none ∧ m0.myCrew.preempt = none ∧
    (let s := m0.modMyCrew fun w => { w with preempt := some ⟨50, none⟩ }
     s.myCrew.preempt = some ⟨50, none⟩ ∧ s.myCrew.stopped = false) ∧
    priv0.me.priv = true ∧ ({ m0 with cur := ⟨0, 16⟩ } : State).cur.pos = 16 ∧ 256 ≤ ({ m0 with cur := ⟨256, 0⟩ } : State).cur.core := by decide

/-- A fence with nothing before it, one behind a store, one at .strand, and one behind a multicast store of its group. -/
theorem witness_FencesPointsAndHalts_fences :
    ¬fenceOpen m0 4 5 none ∧ fenceOpen (reqs1 [] (req1 .store .home)) 4 5 none ∧ ¬fenceOpen (reqs1 [] (req1 .store .home)) 4 0 none ∧
    ¬fenceOpen (reqs1 [] (req1 .store .home)) 1 5 none ∧
    fenceOpen { m0 with unapplied := [⟨⟨0, 0⟩, 9, some 7, 3, none⟩] } 1 10 (some 7) ∧ m0.canIssue [.s 1 false] [] :=
  ⟨by unfold fenceOpen fencedBy; decide, by unfold fenceOpen fencedBy; decide, by unfold fenceOpen fencedBy; decide,
    by unfold fenceOpen fencedBy; decide, by unfold fenceOpen fencedBy; decide, canIssue_of _ _ _ (by decide)⟩

/-- A REDUCE of the strand holds a release fence, and no acquire fence; what a relaxed load has read of a store that is over counts behind either. -/
theorem witness_FencesPointsAndHalts_reduce :
    fenceOpen (grouped [] [] [] [wait8]) 4 5 none ∧ fenceOpen (grouped [] [] [] [wait8]) 2 4 none ∧ ¬fenceOpen (grouped [] [] [] [wait8]) 1 5 none ∧
      ¬fenceOpen (grouped [] [] [] [wait8]) 4 0 none := by
  unfold fenceOpen fencedBy
  exact ⟨by decide, by decide, by decide, by decide⟩

/-- The small machine's crew, as a crew that may be taken off its core: with its job and a task without channels. -/
def lone (phase : TaskPhase) : Task := { task2 with chans := [], memb := [none, none, none, none], phase := phase }
def loneJob (phase : TaskPhase) : State := withJob { job1 with tasks := [lone phase] }

theorem calm0 (s : State) (h : s.strand ⟨0, 0⟩ = strand0 ∧ s.parkOf ⟨0, 0⟩ = none) (w : Crew) (hw : w.pos = [0]) : calmCrew s 0 w := by
  intro p hp
  rw [hw, List.mem_singleton] at hp
  subst hp
  exact ⟨by decide, by rw [h.1]; decide, h.2⟩

theorem witness_CrewAndCoreControls_crew :
    (m0.core 0).crewAt 5 = none ∧ (m0.core 0).crewAt 0 = some crew ∧ crew.stopped = false ∧ crew.preempt = none ∧ crew.acMask ≠ 0 ∧
    (let s := m0.modMyCrew fun w => { w with acMask := 0 }
     (s.core 0).crewAt 0 = some { crew with acMask := 0 }) ∧
    taskOfJob (loneJob .placed) 1 2 = some (lone .placed) ∧ (lone .placed).chans = [] ∧ (lone .placed).finished = false ∧
    (loneJob .placed).oob = false := by decide

theorem witness_CrewAndCoreControls_calm : calmCrew (loneJob .placed) 0 crew := calm0 _ (by decide) _ rfl

theorem witness_CrewAndCoreControls_core :
    (m0.core 0).kept = [] ∧ (m0.core 0).inject = [] ∧ (m0.core 0).spilled = [] ∧ m0.bar.pwr = 0 ∧ (m0.core 0).haspOn = false ∧ m0.pending = [] ∧ 0 < 256 ∧
    ((m0.modMyCore fun c => { c with haspOn := true }).core 0).haspOn = true ∧ (m0.strand ⟨0, 16⟩).wait = none ∧
    2 < ((List.range 34).filter (7#64).getLsbD).length ∧ ((List.range 34).filter (0x200000001#64).getLsbD).length ≤ 2 ∧
    (m0.core 0).rowBad (m0.core 0).scrubRow = false ∧
    (let s := m0.modMyCore fun c => { c with slotErrors := [⟨0, 0, 0⟩, ⟨0, 0, 1⟩, ⟨0, 0, 2⟩] }
     (s.core 0).rowBad (s.core 0).scrubRow = true) := by decide

theorem witness_CrewAndCoreControls_mailbox :
    m0.oob = false ∧ (m0.die 3).mboxWait = [] ∧ ((m0.die 3).mboxHead - (m0.die 3).mboxTail).toNat ≠ 64 ∧
    (m0.die 3).mboxBase.toNat / 2 ^ 12 % 2 ^ 40 * 4096 + 64 * ((m0.die 3).mboxHead.toNat % 64) + 64 ≤ 576 * 2 ^ 30 ∧
    (let s := m0.modDie 0 fun x => { x with mboxHead := 64 }
     s.oob = false ∧ (s.die 0).mboxWait = [] ∧ ((s.die 0).mboxHead - (s.die 0).mboxTail).toNat = 64) := by decide

theorem witness_MigrationMovesAFrame :
    (let s : State := { m0 with bar := { drvLo := 0x400 }, migSrc := 0x4000#64, migDst := 0x8000#64 }
     s.migBusy = false ∧ s.feature 10 = true ∧ s.oob = false ∧ s.migSrc.toNat % 16384 = 0 ∧ s.migDst.toNat % 16384 = 0 ∧
     s.migSrc.toNat + 16384 ≤ 576 * 2 ^ 30 ∧ s.migDst.toNat + 16384 ≤ 576 * 2 ^ 30) ∧
    m0.feature 10 = false ∧ ({ m0 with migBusy := true } : State).migBusy = true ∧
    ((0x4000#64 &&& 0xFFFFFFFFFC000#64).toNat / 16384 ∈ ({ m0 with marks := [1] } : State).marks ∧ m0.migBusy = false) ∧
    (reqs1 [] (req1 .load .home)).frameBusy 5 = true ∧ (el1 .parked).phase = .parked ∧ (el1 .parked).host = false ∧ (el1 .parked).pa / 16384 = 5 ∧ (req1 .load .parked).space < 2 ∧ m0.frameBusy 5 = false := by decide

/-- The small machine in a cut of number 3. -/
def cutting (phase : TaskPhase) : State := { loneJob phase with cut := { active := true, epoch := 3 } }

theorem witness_CutsRecordTasks :
    m0.cut.active = false ∧ (cutting .settled).cut.active = true ∧ (cutting .settled).cut.epoch.toNat = 3 ∧
    (cutting .settled).job? 1 = some { job1 with tasks := [lone .settled] } ∧ (lone .settled).recorded = false ∧
    (lone .settled).phase = .settled ∧ (lone .settled).ctx + 2 * 921600 ≤ 576 * 2 ^ 30 ∧ (lone .settled).nsm1 < 16 ∧ (lone .killed).phase = .killed ∧
    { job1 with tasks := [task2], chans := [chan 5 0] }.marked task2 = false ∧ (lone .settled).inputs = [] ∧ (lone .settled).ctx % 4096 = 0 := by decide

/-- A task that is ready again while its crew is still being saved, and a marker that has come before the START of its cut. -/
def left : Task := { lone .ready with lastCore := some 0 }
def leaving : State := { withJob { job1 with tasks := [left] } with cut := { active := true, epoch := 7 } }

theorem witness_CutsRecordTasks_early :
    (leaving.job? 1 = some { job1 with tasks := [left] } ∧ leaving.cut.active = true ∧ left.recorded = false ∧
      ({ job1 with tasks := [left] } : Job).marked left = true ∧ leaving.leaving left = true ∧ left.phase = .ready) ∧
    (let s : State := { m0 with cut := { early := [(7, 3), (2, 4)] } }
     s.cut.active = false ∧ (7, (3 : Word).toNat % 2 ^ 32) ∈ s.cut.early ∧ (2, (3 : Word).toNat % 2 ^ 32) ∉ s.cut.early) := by decide

theorem witness_CutsRecordTasks_channels : noChannels (lone .settled) ∧ (∀ j ∈ (cutting .settled).jobs, j.chans = []) ∧
    (∀ core, ∀ w ∈ ((cutting .settled).core core).crews, w.cutting = false) := by
  refine ⟨by intro c hc; simp [lone] at hc, by intro j hj; simp [cutting, loneJob, withJob, job1] at hj; subst hj; rfl, ?_⟩
  intro core w hw
  by_cases h : core = 0
  · subst h
    have : ((cutting .settled).core 0).crews = [crew] := by decide
    rw [this, List.mem_singleton] at hw
    subst hw
    rfl
  · have hne : ((core0.id == core) = false) := by simpa [core0] using fun e => h e.symm
    have : (cutting .settled).core core = Core.reset core := by
      simp [State.core, cutting, loneJob, withJob, m0, List.find?, hne]
    rw [this] at hw
    unfold Core.reset at hw
    split at hw <;> simp at hw

/-- The small machine's crew as stopped for an image. -/
def stopped (m : Memory) : State := { (loneJob .placed).modMyCrew fun w => { w with stopped := true } with mem := m }

theorem witness_PreemptionSavesAndRestores_stop :
    (m0.owned 0 (.crew 2)).preempt = none ∧
    (let s := m0.modMyCrew fun w => { w with preempt := some ⟨0, none⟩ }
     (s.owned 0 (.crew 2)).preempt = some ⟨0, none⟩ ∧ (s.owned 0 (.crew 2)).stopped = false ∧
     0 + min ((s.core 0).ppointDefer.toNat % 2 ^ 17) 125000 ≤ ({ s with cycle := 12500 } : State).cycle) ∧
    (m0.owned 0 (.crew 2)).pos ≠ [] ∧ (m0.owned 0 (.crew 2)).stopped = false ∧ ((stopped []).owned 0 (.crew 2)).stopped = true := by decide

set_option maxRecDepth 20000 in
theorem witness_PreemptionSavesAndRestores_save :
    let s := stopped []
    let w := s.owned 0 (.crew 2)
    s.oob = false ∧ w.pos.length ≤ 16 ∧ s.saveReady 0 w = true ∧ taskOfJob s w.pid 2 = some (lone .placed) ∧ (lone .placed).phase = .placed ∧
    (s.core 0).inject = [] ∧ (s.core 0).spilled = [] ∧ s.reqs = [] ∧ w.hold.rq ≤ 252 ∧ (lone .placed).ctx + 921600 ≤ 576 * 2 ^ 30 ∧ w.pid < 2 ^ 16 ∧
    (lone .placed).nsm1 < 16 := by decide

theorem witness_PreemptionSavesAndRestores_calm : calmCrew (stopped []) 0 ((stopped []).owned 0 (.crew 2)) :=
  calm0 _ (by decide) _ (by decide)

set_option maxRecDepth 100000 in
theorem witness_PreemptionSavesAndRestores_image : (strand0.images).length = 6144 := by decide

/-- The header of task 2's image 0: PID 1, KIND 1, epoch 0, no block. -/
def header : Memory := Memory.write [] 0x40000 (bytesOfNat 8 (1 + 2 * 2 ^ 16 + 2 ^ 30))

set_option maxRecDepth 20000 in
theorem witness_PreemptionSavesAndRestores_restore :
    ((stopped header).owned 0 (.crew 2)).pos.Nodup ∧ (∀ p ∈ ((stopped header).owned 0 (.crew 2)).pos, p < 16) ∧
    (stopped header).imageBad (lone .placed) 1 (lone .placed).image = none ∧ (stopped []).imageBad (lone .placed) 1 (lone .placed).image = some 3 ∧
    (lone .placed).crit = false ∧ ((stopped []).owned 0 (.crew 2)).pid = 1 ∧ ((stopped []).owned 0 (.crew 2)).task = 2 := by decide

theorem witness_PreemptionSavesAndRestores_strand :
    strand0.annul < 4 ∧ strand0.loops.length ≤ 2 ∧ strand0.replays = [] ∧ strand0.vView.base < 2 ^ 64 ∧ strand0.vView.stride < 2 ^ 64 ∧
    strand0.tView.stride < 2 ^ 64 := by decide

/-! ### The host -/

/-- A submission entry with an address. -/
def sub (addr pid : Nat) (bad dbg : Bool) : SubEntry := ⟨dbg, 9, pid, addr, List.replicate 32 1, bad⟩

/-- A running device whose submission ring, at host address 0x1000, holds an entry with this first dword. -/
def ring (d0 : Nat) : State :=
  { m0 with bar := { sec := 1, drvLo := 1, sqBase := 0x1000, cqBase := 0x2000 }, host := Memory.write [] 0x1000 (bytesOfNat 8 d0) }

/-- The same with a completion that waits, for which the host has left room or not. -/
def completing (room : Bool) : State :=
  { m0 with bar := { sec := 1, cqWait := [⟨9, 0x80, 1, 0⟩], cqHead := if room then 0 else 1 } }

theorem witness_SubmissionsAndCompletions :
    (let s := ring 0
     s.bar.pwr = 0 ∧ s.bar.sec = 1 ∧ s.bar.cqWait = [] ∧ s.submitting = false ∧ (0 : Word).toNat % 4096 % ringSize s.bar.sqLog = s.bar.sqHead.toNat ∧
     (1 : Word).toNat % 4096 % ringSize s.bar.sqLog ≠ s.bar.sqHead.toNat ∧
     subEvent (headEntry s) = some (.nop (subEntry (headEntry s)))) ∧
    subEvent (headEntry (ring 1)) = some (.launch (subEntry (headEntry (ring 1)))) ∧ subEvent (headEntry (ring 9)) = none ∧
    ((completing true).bar.cqWait = ⟨9, 0x80, 1, 0⟩ :: [] ∧ (completing true).bar.cqRoom = true ∧ (completing false).bar.cqRoom = false) := by decide

/-- A running device with a job descriptor for PID 5 at 0x800: one task, whose descriptor at 0x1000 has START and no tile operand, and a layout table
at 0x10000000. -/
def launching (d0 : Nat) (task : List Byte) : State :=
  { m0 with
    bar := { sec := 1, drvLo := 1 }
    mem := Memory.write (Memory.write [] 0x800 (dwords [d0, 0x4000, 0x10000000, 0x1000, 0, 0x100000, 0, 0, 0])) 0x1000 task }
def startTask : List Byte := dwords [0x4000, 7, 0x40000, 64, 0, 2 ^ 64 - 1]

/-- The job that the launch reads. -/
def job5 : Job := jobOf ((launching 5 startTask).mem.readBytes 0x800 128) (sub 0x800 0 false false)

set_option maxRecDepth 4000 in
theorem witness_LaunchesAreChecked :
    ((sub 0x800 0 false false).addr % 128 = 0 ∧ (sub 0x800 0 false false).addr + 128 ≤ 576 * 2 ^ 30) ∧ m0.bar.sec ≠ 1 ∧
    (let s := launching 5 startTask
     s.bar.sec = 1 ∧ (sub 0x800 0 false true).dbg = true ∧ s.bar.dbg = 0 ∧ s.bar.drvLo.getLsbD 0 = true ∧ (sub 0x800 0 true false).bad = true ∧
     s.mem.readNat 0x800 2 = 5 ∧ s.job? 5 = none ∧ s.jobs.length < 16 ∧ descOk (s.mem.readBytes 0x800 128) = true) ∧
    (ring 0).bar.drvLo.getLsbD 0 = true ∧ ({ m0 with bar := { sec := 1 } } : State).bar.drvLo.getLsbD 0 = false ∧
    (({ launching 5 startTask with jobs := [{ job1 with pid := 5 }] } : State).job? 5).isSome = true ∧
    16 ≤ ({ launching 5 startTask with jobs := List.replicate 16 job1 } : State).jobs.length ∧
    descOk ((launching (5 + 2 ^ 30) startTask).mem.readBytes 0x800 128) = false := by decide

set_option maxRecDepth 20000 in
theorem witness_LaunchesAreChecked_done :
    let s : State := { launching 5 startTask with jobs := [job5] }
    s.oob = false ∧ s.job? 5 = some job5 ∧ job5.live = false ∧ job5.wide = false ∧ s.spans job5 (s.tables job5) = false ∧ s.launchFails job5 (s.tables job5) = none ∧
    ((s.tables job5).groups.isEmpty = true) ∧
    (let u : State := { launching 5 (dwords [0x4001]) with jobs := [job5] }
     u.launchFails job5 (u.tables job5) = some (2, 0)) := by decide

theorem witness_JobsEnd :
    (let s : State := { withJob job1 with bar := { sec := 1 } }
     s.oob = false ∧ s.bar.sec = 1 ∧ (sub 0 1 true false).bad = true ∧ (sub 0 1 false false).bad = false ∧ s.job? 2 = none ∧ s.job? 1 = some job1 ∧
     s.jobOver { job1 with done := false } = true ∧ s.jobDrains job1 = false ∧ job1.wide = false) ∧
    (let s : State := { m0 with jobs := [{ job1 with pid := 3 }], bar := { sec := 1 } }
     s.job? (sub 0 3 false false).pid = some { job1 with pid := 3 } ∧ ∀ c ∈ s.cores, ∀ w ∈ c.crews, w.pid ≠ 3) ∧ m0.bar.sec ≠ 1 ∧
    (loneJob .placed).jobOver { job1 with tasks := [lone .placed], done := false } = false ∧
    (let s : State := { withJob job1 with reqs := [req1 .store .home] }
     s.jobOver { job1 with done := false } = true ∧ s.jobDrains job1 = true) := by decide

/-- A token of another type than 2 is refused; nothing that the spec leaves open makes it valid. -/
theorem badToken (s : State) (tok : List Byte) (h : (tok.getD 40 0 == 2) = false) : s.tokenOk tok = false := by
  unfold State.tokenOk
  simp only [h, Bool.and_false, Bool.false_and]

/-- What of a token does not rest on the signature and the digest of the device's key, which the spec leaves open (log 5), a token can meet. -/
theorem goodToken (key : List Byte) (h : key.length = 32) :
    let tok := key ++ bytesOfNat 8 5 ++ [2] ++ List.replicate 29815 0
    natOfBytes ((tok.drop 32).take 8) = 5 ∧ tok.getD 40 0 = 2 ∧ ((tok.drop 41).take 23).all (· == 0) = true := by
  have e : ∀ l : List Byte, (key ++ l).drop 32 = l := fun l => by rw [← h]; simp
  have d : ∀ l : List Byte, (key ++ l).drop 41 = l.drop 9 := fun l => by rw [show 41 = key.length + 9 by omega]; simp
  refine ⟨?_, ?_, ?_⟩
  · simp only [List.append_assoc, e]
    decide
  · simp only [List.append_assoc]
    rw [List.getD_eq_getElem?_getD, List.getElem?_append_right (by omega), h]
    rfl
  · have z : (bytesOfNat 8 5 ++ ([2] ++ List.replicate 29815 (0 : Byte))).drop 9 = List.replicate 29815 (0 : Byte) := by
      rw [← List.append_assoc]
      exact List.drop_left' rfl
    have y : ∀ n, ((List.replicate n (0 : Byte)).take 23).all (· == 0) = true := fun n => by simp
    simp only [List.append_assoc, d]
    rw [z]
    exact y _

theorem witness_RootOfTrust :
    (let s : State := { m0 with bar := { sec := 1, nonce := 5 } }
     s.oob = false ∧ s.bar.sec = 1 ∧ (sub 0x1000 0 false false).bad = false ∧ (sub 0x1000 0 false false).addr % 4096 = 0 ∧
     (sub 0x1001 0 false false).addr % 4096 ≠ 0 ∧ s.bar.dbg ≠ 2 ∧ (sub 0x1000 0 false false).addr + 30304 ≤ 576 * 2 ^ 30 ∧
     (sub 0x1000 0 false false).nonce.length = 32 ∧ s.jobs = [] ∧ (withJob job1).jobs ≠ []) ∧
    ({ m0 with bar := { dbg := 2 } } : State).bar.dbg = 2 ∧ m0.bar.sec ≠ 1 := by decide

/-- An image is accepted or not by its signature and version, which the spec leaves open (log 5): one of the two holds of every image. -/
theorem witness_RootOfTrust_image (s : State) (b : List Byte) : s.imageAccepted b = true ∨ s.imageAccepted b = false := by
  cases s.imageAccepted b <;> simp

theorem witness_DebugRequestsAndCommands :
    ({ m0 with bar := { dbg := 2, sec := 1 } } : State).bar.dbg = 2 ∧ ({ m0 with bar := { sec := 1 } } : State).bar.dbg ≠ 2 ∧
    ({ m0 with bar := { sec := 1 } } : State).bar.pwr ≠ 3 ∧ ({ m0 with bar := { sec := 1 } } : State).bar.sec ≠ 0 ∧
    ({ m0 with bar := { dbgPend := true } } : State).bar.dbgPend = true ∧ m0.bar.dbgPend = false ∧ m0.jobs = [] ∧ (withJob job1).jobs ≠ [] ∧
    ({ m0 with bar := { sec := 2 } } : State).bar.sec = 2 ∧ ({ m0 with bar := { sec := 1 } } : State).bar.sec ≠ 2 ∧
    ((0x00300000102#64).getLsbD 8 = true ∧ (0x00300000102#64).toNat / 2 ^ 32 % 2 ^ 12 = 0x003) ∧
    ((0x10000100007#64).getLsbD 8 = false ∧ (0x10000100007#64).toNat / 2 ^ 16 % 2 ^ 5 = 16 ∧ (0x10000100007#64).toNat / 2 ^ 32 % 2 ^ 12 = 0x100) := by
  decide

/-- A device in a power state and a security state, with a power request. -/
def power (pwr sec req : BitVec 2) : State := { m0 with bar := { pwr := pwr, sec := sec, pwrReq := req, pwrPend := true } }

theorem witness_PowerAndHostAccesses :
    (power 3 1 0).bar.pwr = 3 ∧ (power 0 1 3).bar.pwr ≠ 3 ∧ (power 0 1 3).bar.sec ≠ 0 ∧ m0.bar.pwrPend = false ∧ (withJob job1).hubIdle = false ∧
    ((power 0 1 3).bar.pwrPend = true ∧ (power 0 1 3).hubIdle = true ∧ (power 0 1 3).bar.pwrReq = 3 ∧ (power 0 1 2).bar.pwrReq ≠ 3) ∧
    ((power 0 1 0).bar.pwr = 0 ∧ (power 0 1 0).bar.sec = 1) ∧ (power 1 1 0).bar.pwr = 1 ∧ (power 2 1 0).bar.pwr = 2 ∧ (power 0 0 0).bar.sec = 0 ∧
    (power 0 1 0).oob = false ∧ 0x8FFFFFFFFC + 4 ≤ 576 * 2 ^ 30 ∧ (List.replicate 64 (0 : Byte)).length = 64 := by decide

/-- The driver's last write, the mailbox base of die 3, and one that is not the last. -/
theorem witness_PowerAndHostAccesses_driver :
    (let s : State := { m0 with bar := { sec := 1, driver := 0x1FF } }
     s.oob = false ∧ s.bar.sec = 1 ∧ s.bar.pwr ≠ 3 ∧ driverOffsets[9]? = some 0x180C0 ∧ s.bar.driver.getLsbD 9 = false ∧
     s.bar.driver ||| (1#10 <<< 9) = BitVec.allOnes 10) ∧
    (power 0 2 0).bar.sec = 2 ∧ m0.bar.driver ≠ BitVec.allOnes 10 ∧ m0.bar.driver ||| (1#10 <<< 1) ≠ BitVec.allOnes 10 ∧
    (power 0 0 0).bar.pwr = 0 := by decide

/-- Each firmware image is accepted, or one is not (log 5): one of the two holds at every power-on. -/
theorem witness_PowerAndHostAccesses_images (s : State) :
    (∀ i, i < 4 → s.imageAccepted (imageNo s i) = true) ∨ ∃ i, i < 4 ∧ s.imageAccepted (imageNo s i) = false := by
  by_cases h : ∀ i, i < 4 → s.imageAccepted (imageNo s i) = true
  · exact .inl h
  · simp only [not_forall, Bool.not_eq_true] at h
    obtain ⟨i, hi, hf⟩ := h
    exact .inr ⟨i, hi, hf⟩

/-! ### Steps, turns and encodings -/

/-- The small machine at a handler address, where the last five words of slot 249 stand. -/
def atHandler : State :=
  { m0.modMe fun st => { st with priv := true, pc := 0x8000000000007FEC#64 } with cores := ((m0.modMe fun st =>
      { st with priv := true, pc := 0x8000000000007FEC#64 }).modMyCore fun c =>
        { c with slots := Memory.write [] (248 * 16384 + 0x7FEC) (bytesOfNat 4 0x01208400) }).cores }

theorem witness_StepRunsTheDecodedInstruction :
    (m0.sel = true ∧ m0.me.lateDue = false ∧ m0.me.replays = []) ∧
    (atHandler.fetchInstr = (.words [0x01208400#32], atHandler) ∧ atHandler.me.annul = 0 ∧ atHandler.me.priv = true ∧ atHandler.me.pc.getLsbD 63 = true ∧
      atHandler.me.pc.toNat % 2 ^ 63 + 20 ≤ 2 ^ 15 ∧ atHandler.reqs = [] ∧ atHandler.myCore.slotErrors = [] ∧
      ((List.range 34).filter atHandler.myCore.rebuilt.getLsbD).length ≤ 2) ∧
    (let s := m0.modMe fun st => { st with late := [late1] }
     s.me.lateDue = true) ∧
    (let s : State := { m0 with sel := false, pending := [⟨99, .nop (sub 0 0 false false)⟩], bar := { sec := 1 } }
     takeDue s.cycle s.holds s.pending = some (.nop (sub 0 0 false false), [])) ∧
    (let s : State := { m0 with sel := false, pending := [⟨99, .copyTransfer 0⟩], bar := { sec := 1, pwr := 1 } }
     (s.bar.pwr ≠ 0 ∨ s.bar.sec ≠ 1) ∧ takeDue s.cycle s.holds s.pending = none) ∧
    (let s : State := { m0 with sel := false, bar := { sec := 1 } }
     takeDue s.cycle s.holds s.pending = none ∧ s.cores[s.turn]? = some core0 ∧ s.bar.pwr = 0 ∧ s.bar.sec = 1 ∧ s.cores[1]? = none) := by decide

/-- The small machine with the crew on positions 0 and 2, and another on position 3, in the turn of a position. -/
def turnOf (p : Nat) : State :=
  { m0.modMyCore fun c => { c with crews := [{ crew with pos := [0, 2] }, { crew with task := 5, pos := [3] }] } with cycle := 160 + p }

theorem witness_IssueTurnsChoose :
    ((turnOf 0).cycle % 16 = 0 ∧ (turnOf 0).eligible ⟨0, 0⟩ = true ∧ ((turnOf 0).core 0).crewAt 0 ≠ none ∧ ((turnOf 0).core 0).haspOn = false) ∧
    (((turnOf 15).core 0).crewAt 15 = none ∧ (turnOf 15).eligible ⟨0, (15 + 1 + 0) % 16⟩ = true) ∧
    (let s := (turnOf 2).modStrand ⟨0, 2⟩ fun st => { st with halted := true }
     s.eligible ⟨0, 2⟩ = false ∧ (2 + 1 + 13) % 16 = 0 ∧ (s.core 0).crewAt 2 = some { crew with pos := [0, 2] } ∧
     (s.core 0).crewAt 0 = some { crew with pos := [0, 2] } ∧ s.eligible ⟨0, 0⟩ = true) ∧
    (let s := (turnOf 7).modMyCore fun c => { c with haspOn := true }
     (s.core 0).haspOn = true ∧ (s.core 0).guarded.getLsbD 7 = false ∧ s.eligible ⟨0, 16⟩ = true) ∧
    (∀ q, q < 16 → (({ m0 with cores := [] } : State).core 0).crewAt q = none) ∧
    (let s := m0.modCore 257 fun c => { c with haspOn := true }
     (s.core 257).haspOn = true ∧ s.eligible ⟨257, 0⟩ = true ∧ (m0.core 257).haspOn = false) := by decide

/-- Canonical memories with something in them, and a step from there. -/
theorem witness_StepsKeepMemoriesCanonical :
    (let s := atHandler
     (s.mem.wf = true ∧ s.host.wf = true ∧ ∀ c ∈ s.cores, c.slots.wf = true ∧ c.hasp.window.wf = true ∧ ∀ w ∈ c.crews, w.window.wf = true) ∧
     ∃ c ∈ s.cores, c.slots ≠ []) ∧ ∃ t, step { m0 with sel := false } = .next t := by
  refine ⟨by decide, ?_⟩
  exact ⟨_, rfl⟩

end Sys2Proof.Tests
end

section
/-! PROOFS. What issuing instructions do: MIX, YIELD and LBRK (spec 05 R92, R95, R102, R109). -/

namespace Sys2Proof

/-! ### The decoder: what is read is what the words begin with (R32-R46) -/

/-- What passes the checks is encoded as the words that were checked (R49 orders 4 to 8). -/
theorem encode_of_checked {ws : List W32} {w e1 e2 : W32} {lit : Word} {i : Instr} (h : checked ws w e1 e2 lit = .ok i) :
    encode i = ws := by
  unfold checked at h
  split at h
  · split at h <;> cases h
  · split at h
    · next hok =>
      cases h
      simp only [Bool.and_eq_true, beq_iff_eq] at hok
      exact hok.2
    · cases h

/-- Words that decode begin with the encoding of what they decode to. -/
theorem decodeWords_begins_with_encode {ws : List W32} {i : Instr} (h : decodeWords ws = .ok i) : encode i <+: ws := by
  unfold decodeWords at h
  split at h
  · cases h
  · next w rest =>
    split at h
    · next hw =>
      cases h
      exact ⟨rest, by rw [hw]; rfl⟩
    · split at h
      · next hw =>
        cases h
        exact ⟨rest, by rw [hw]; rfl⟩
      · split at h
        case h_5 => cases h
        all_goals
          rw [encode_of_checked h]
          simp

/-- An instruction of one word is read exactly from the lists that begin with that word, if the decoder reads it from them at all. -/
theorem decodeWords_eq_ok_iff_head {i : Instr} {w : W32} (henc : encode i = [w]) (hdec : ∀ rest, decodeWords (w :: rest) = .ok i)
    (ws : List W32) : decodeWords ws = .ok i ↔ ws.head? = some w := by
  constructor
  · intro h
    have hp := decodeWords_begins_with_encode h
    rw [henc] at hp
    obtain ⟨rest, rfl⟩ := hp
    rfl
  · intro h
    obtain ⟨rest, rfl⟩ := List.head?_eq_some_iff.1 h
    exact hdec rest

/-! ### The decoder: words of format R (R33) -/

/-- The bits of a packed word, field by field from the lowest (R33). -/
theorem getLsbD_packR (len : BitVec 2) (maj : BitVec 6) (op : BitVec 5) (f : RF) (i : Nat) : (packR len maj op f).getLsbD i =
    if i < 5 then op.getLsbD i else if i - 5 < 2 then f.qf.getLsbD (i - 5)
    else if i - 7 < 1 then (BitVec.ofBool f.tb).getLsbD (i - 7) else if i - 8 < 1 then (BitVec.ofBool f.ta).getLsbD (i - 8)
    else if i - 9 < 5 then f.b.getLsbD (i - 9) else if i - 14 < 5 then f.a.getLsbD (i - 14)
    else if i - 19 < 5 then f.d.getLsbD (i - 19) else if i - 24 < 6 then maj.getLsbD (i - 24) else len.getLsbD (i - 30) := by
  unfold packR
  repeat rw [BitVec.getLsbD_append]
  simp only [Nat.sub_sub, Nat.reduceAdd]

/-- A field is what its bits are. -/
theorem extractLsb'_eq_of_getLsbD {w n start : Nat} {x : BitVec w} {y : BitVec n}
    (h : ∀ i, i < n → x.getLsbD (start + i) = y.getLsbD i) : x.extractLsb' start n = y :=
  BitVec.eq_of_getLsbD_eq fun i hi => by rw [BitVec.getLsbD_extractLsb', decide_eq_true hi, Bool.true_and, h i hi]

section PackR
variable (len : BitVec 2) (maj : BitVec 6) (op : BitVec 5) (f : RF)

/-- Where each field of a packed word stands (R33). -/
theorem extractLsb'_packR :
    (packR len maj op f).extractLsb' 0 5 = op ∧ (packR len maj op f).extractLsb' 5 2 = f.qf ∧
    (packR len maj op f).extractLsb' 9 5 = f.b ∧ (packR len maj op f).extractLsb' 14 5 = f.a ∧
    (packR len maj op f).extractLsb' 19 5 = f.d ∧ (packR len maj op f).extractLsb' 24 6 = maj ∧
    (packR len maj op f).extractLsb' 30 2 = len := by
  refine ⟨?_, ?_, ?_, ?_, ?_, ?_, ?_⟩ <;>
  · refine extractLsb'_eq_of_getLsbD fun i hi => ?_
    rw [getLsbD_packR]
    simp (disch := omega) only [Nat.zero_add, Nat.add_sub_cancel_left, if_pos, if_neg]

@[simp] theorem packR_op : (packR len maj op f).extractLsb' 0 5 = op := (extractLsb'_packR len maj op f).1

@[simp] theorem packR_major : (packR len maj op f).extractLsb' 24 6 = maj := by
  obtain ⟨-, -, -, -, -, hmaj, -⟩ := extractLsb'_packR len maj op f
  exact hmaj

@[simp] theorem packR_len : (packR len maj op f).extractLsb' 30 2 = len := by
  obtain ⟨-, -, -, -, -, -, hlen⟩ := extractLsb'_packR len maj op f
  exact hlen

@[simp] theorem packR_tb : (packR len maj op f).getLsbD 7 = f.tb := by
  rw [getLsbD_packR]
  exact BitVec.getLsbD_ofBool f.tb 0

@[simp] theorem packR_ta : (packR len maj op f).getLsbD 8 = f.ta := by
  rw [getLsbD_packR]
  exact BitVec.getLsbD_ofBool f.ta 0

/-- The fields of a packed word are those that were packed (R33). -/
theorem unpackR_packR : unpackR (packR len maj op f) = f := by
  obtain ⟨-, hqf, hb, ha, hd, -, -⟩ := extractLsb'_packR len maj op f
  rw [unpackR, hd, ha, hb, hqf, packR_ta, packR_tb]

end PackR

/-- A format R word names the instruction of its own major, LEN, minor and fields. -/
theorem candidate_packR (len : BitVec 2) (maj : BitVec 6) (op : BitVec 5) (f : RF) (e1 e2 : W32) (lit : Word)
    (h2 : maj.toNat ≠ 2) (h9 : maj.toNat ≠ 9) (h10 : maj.toNat ≠ 10) (n : Nat) :
    candidate n (packR len maj op f) e1 e2 lit = candidateR maj.toNat n op f (unpackE e1 e2) lit := by
  simp only [candidate, packR_major, packR_op, unpackR_packR, if_neg h2, if_neg h9, if_neg h10]

/-- A format R word of length one, of no major that stands for a word of its own, goes to the checks. -/
theorem decodeWords_packR_short (maj : BitVec 6) (op : BitVec 5) (f : RF) (h0 : maj ≠ 0) (h63 : maj ≠ 63) (rest : List W32) :
    decodeWords (packR 0 maj op f :: rest) = checked [packR 0 maj op f] (packR 0 maj op f) 0 0 0 := by
  have zero : packR 0 maj op f ≠ 0 := fun h => h0 (by rw [← packR_major 0 maj op f, h]; rfl)
  have ones : packR 0 maj op f ≠ 0xFFFFFFFF#32 := fun h => h63 (by rw [← packR_major 0 maj op f, h]; rfl)
  simp only [decodeWords, if_neg zero, if_neg ones, packR_len]
  rfl

/-! ### The decoder: MIX, LBRK and YIELD (R46, R47) -/

/-- Legal fields of MIX are those with QF 00 (R47, R102). -/
theorem wf_mix_iff (f : RF) : (Instr.mix f).wf = true ↔ f.qf = 0 := by
  have row : (Instr.mix f).wf = (⟨4, .s, .s, .s, true, true, [0], .none, .fixed⟩ : Form).ok f 0 none := rfl
  rw [row, ← BitVec.toNat_inj]
  simp [Form.ok, Cls.ok, OpKind.ok]

/-- A word of major 0x04, minor 0 and LEN 00 is MIX with its fields, or has an illegal one. -/
theorem decodeWords_mix (f : RF) (rest : List W32) :
    decodeWords (packR 0 4 0 f :: rest) = if f.qf = 0 then .ok (.mix f) else .error .badField := by
  have hcand : candidate 0 (packR 0 4 0 f) 0 0 0 = some (.mix f) := by
    rw [candidate_packR _ _ _ _ _ _ _ (by decide) (by decide) (by decide)]
    rfl
  have henc : encode (.mix f) = [packR 0 4 0 f] := rfl
  rw [decodeWords_packR_short _ _ _ (by decide) (by decide)]
  unfold checked
  rw [packR_len]
  simp only [BitVec.ofNat_eq_ofNat, BitVec.toNat_ofNat, Nat.zero_mod] at hcand ⊢
  rw [hcand]
  simp [henc, wf_mix_iff]

theorem decodeWords_lbrk (rest : List W32) : decodeWords (0x0B000004#32 :: rest) = .ok .lbrk := rfl

theorem decodeWords_yield (rest : List W32) : decodeWords (0x3A000002#32 :: rest) = .ok .yield := rfl

end Sys2Proof

namespace Sys2Proof.Machine

open Sys2Proof.Claims

/-! ### Rules: strands and cores after a change -/

/-- Writing a strand changes nothing of any core but its strands. -/
theorem State.core_modStrand (s : State) (sid : SId) (f : Strand → Strand) (i : Nat) :
    (s.modStrand sid f).core i = { s.core i with strands := ((s.modStrand sid f).core i).strands } := by
  by_cases h : sid.core = i
  · subst h
    simp [State.modStrand, State.setStrand, Core.setStrand]
  · rw [State.modStrand, State.setStrand, State.core_modCore_ne _ _ _ _ h]

theorem State.core_modMe (s : State) (f : Strand → Strand) (i : Nat) :
    (s.modMe f).core i = { s.core i with strands := ((s.modMe f).core i).strands } :=
  s.core_modStrand s.cur f i

theorem State.myCore_modMe (s : State) (f : Strand → Strand) :
    (s.modMe f).myCore = { s.myCore with strands := (s.modMe f).myCore.strands } :=
  s.core_modMe f s.cur.core

/-- What the running strand does to itself leaves everything else alone. -/
theorem State.onlyMe_modMe (s : State) (f : Strand → Strand) : OnlyMe s (s.modMe f) where
  strands sid h := s.strand_modStrand_ne s.cur sid f h.symm
  crews := s.modStrand_owned s.cur f
  mem _ := rfl
  host _ := rfl
  slots c _ := by rw [s.core_modMe f c]
  empty c := by rw [s.core_modMe f c]
  keys c := by rw [s.core_modMe f c]
  acs c := by rw [s.core_modMe f c]
  pending := rfl
  reqs := rfl
  jobs := rfl
  dies := rfl
  cur := rfl
  cycle := rfl

/-! ### Rules: the end of a turn -/

/-- In nobody's turn there is nothing to end. -/
theorem Core.endTurn_of_none (c : Core) (issuer : Option Nat) (h : c.turnOf = none) : c.endTurn issuer = c := by
  simp only [Core.endTurn, h]

/-- The owner of a turn that it has not taken itself has lent it (R88, R114). -/
theorem Core.endTurn_of_some (c : Core) (issuer : Option Nat) (p : Nat) (h : c.turnOf = some p) :
    c.endTurn issuer =
      if issuer ≠ some p ∧ (c.crewAt p).isSome = true then
        { c with turnOf := none }.setStrand p { c.strand p with lent := (c.strand p).lent + 1 }
      else { c with turnOf := none } := by
  have hcond : (issuer == some p || ({ c with turnOf := none }.crewAt p).isNone) = false ↔ issuer ≠ some p ∧ (c.crewAt p).isSome = true := by
    rw [Bool.or_eq_false_iff, beq_eq_false_iff_ne, Option.isNone_eq_false_iff]
    rfl
  simp only [Core.endTurn, h]
  split
  · next hkeep =>
    rw [if_neg]
    rw [← hcond, hkeep]
    simp
  · next hlent =>
    rw [if_pos (hcond.1 (Bool.eq_false_iff.2 hlent))]
    rfl

/-- The end of a turn changes nothing of the core but its strands and whose turn it is. -/
theorem Core.endTurn_eq (c : Core) (issuer : Option Nat) :
    c.endTurn issuer = { c with turnOf := none, strands := (c.endTurn issuer).strands } := by
  cases h : c.turnOf with
  | none =>
    rw [c.endTurn_of_none issuer h, ← h]
  | some p =>
    rw [c.endTurn_of_some issuer p h]
    split <;> rfl

/-- A strand of a core after one has been replaced; there are seventeen. -/
theorem Core.strand_setStrand (c : Core) (p q : Nat) (st : Strand) :
    (c.setStrand p st).strand q = if p = q ∧ q < 17 then st else c.strand q := by
  by_cases hpq : p = q
  · subst hpq
    by_cases hp : p < 17
    · rw [Core.strand_setStrand_self _ _ _ hp, if_pos ⟨rfl, hp⟩]
    · rw [if_neg fun h => hp h.2]
      simp [Core.strand, Core.setStrand, hp]
  · rw [Core.strand_setStrand_ne _ _ _ _ hpq, if_neg fun h => hpq h.1]

/-- The end of a turn changes no strand but its owner's, and of that only LENT, where another strand has issued or none (R88, R114). -/
theorem Core.strand_endTurn (c : Core) (issuer : Option Nat) (q : Nat) :
    (c.endTurn issuer).strand q =
      if q < 17 ∧ issuer ≠ some q ∧ c.turnOf = some q ∧ (c.crewAt q).isSome = true then { c.strand q with lent := (c.strand q).lent + 1 }
      else c.strand q := by
  cases h : c.turnOf with
  | none => simp [c.endTurn_of_none issuer h]
  | some p =>
    rw [c.endTurn_of_some issuer p h]
    by_cases hpq : p = q
    · subst hpq
      by_cases hlent : issuer ≠ some p ∧ (c.crewAt p).isSome = true
      · rw [if_pos hlent, Core.strand_setStrand]
        exact if_congr ⟨fun ⟨_, hp⟩ => ⟨hp, hlent.1, rfl, hlent.2⟩, fun ⟨hp, _⟩ => ⟨rfl, hp⟩⟩ rfl rfl
      · rw [if_neg hlent]
        exact (if_neg fun ⟨_, hissuer, _, hcrew⟩ => hlent ⟨hissuer, hcrew⟩).symm
    · have other : ∀ st, ({ c with turnOf := none }.setStrand p st).strand q = c.strand q := fun st =>
        Core.strand_setStrand_ne _ p q st hpq
      refine Eq.trans ?_ (if_neg fun ⟨_, _, hturn, _⟩ => hpq (Option.some.inj hturn)).symm
      split
      · exact other _
      · rfl

@[simp] theorem Core.endTurn_id (c : Core) (issuer : Option Nat) : (c.endTurn issuer).id = c.id := by
  rw [Core.endTurn_eq]

/-- The end of a turn concerns the running strand's core alone. -/
theorem State.core_modMyCore_endTurn (s : State) (issuer : Option Nat) (i : Nat) :
    (s.modMyCore fun c => c.endTurn issuer).core i = if s.cur.core = i then s.myCore.endTurn issuer else s.core i := by
  unfold State.modMyCore
  split
  · next h =>
    subst h
    rw [State.core_modCore_self]
    show { s.myCore.endTurn issuer with id := s.cur.core } = s.myCore.endTurn issuer
    rw [show s.cur.core = (s.myCore.endTurn issuer).id by rw [Core.endTurn_id, State.myCore, State.core_id]]
  · next h => exact State.core_modCore_ne _ _ _ _ h

/-- Every strand after the end of a turn on the running strand's core. -/
theorem State.strand_modMyCore_endTurn (s : State) (issuer : Option Nat) (sid : SId) :
    (s.modMyCore fun c => c.endTurn issuer).strand sid =
      if sid.core = s.cur.core ∧ sid.pos < 17 ∧ issuer ≠ some sid.pos ∧ s.myCore.turnOf = some sid.pos ∧
          (s.myCore.crewAt sid.pos).isSome = true then
        { s.strand sid with lent := (s.strand sid).lent + 1 }
      else s.strand sid := by
  unfold State.strand
  rw [State.core_modMyCore_endTurn]
  by_cases h : s.cur.core = sid.core
  · rw [if_pos h, Core.strand_endTurn, State.myCore, h]
    exact if_congr (by simp only [true_and]) rfl rfl
  · rw [if_neg h]
    exact (if_neg fun ⟨hcore, _⟩ => h hcore.symm).symm

/-! ### Rules: an instruction that issues -/

/-- The running strand after an instruction has been counted (R87, R114). -/
def Strand.counted (cycle : Nat) (st : Strand) : Strand := { st with issued := st.issued + 1, last := some cycle, wait := none }

/-- The strand is counted, then the turn of its core is over. -/
theorem State.core_countIssue (s : State) (i : Nat) :
    s.countIssue.core i = ((s.modMe (Strand.counted s.cycle)).modMyCore fun c => c.endTurn (some s.cur.pos)).core i := rfl

/-- An issue changes nothing of any core but its strands and whose turn it is. -/
theorem State.core_countIssue_eq (s : State) (i : Nat) :
    s.countIssue.core i =
      { s.core i with turnOf := (s.countIssue.core i).turnOf, strands := (s.countIssue.core i).strands } := by
  rw [State.core_countIssue, State.core_modMyCore_endTurn]
  split
  · next h =>
    rw [Core.endTurn_eq, State.myCore, h, State.core_modMe]
  · rw [State.core_modMe]

/-- The running strand is counted by its issue. -/
@[simp] theorem State.me_countIssue (s : State) (h : s.cur.pos < 17) : s.countIssue.me = s.me.counted s.cycle := by
  have hend := (s.modMe (Strand.counted s.cycle)).strand_modMyCore_endTurn (some s.cur.pos) s.cur
  rw [if_neg fun ⟨_, _, hissuer, _⟩ => hissuer rfl] at hend
  exact hend.trans (s.me_modMe _ h)

/-- An issue changes of the other strands only the LENT of the turn's owner (R88, R114). -/
theorem State.strand_countIssue_ne (s : State) (sid : SId) (h : sid ≠ s.cur) : s.countIssue.strand sid = turnCounted s sid := by
  have hend := (s.modMe (Strand.counted s.cycle)).strand_modMyCore_endTurn (some s.cur.pos) sid
  have hturn : (s.modMe (Strand.counted s.cycle)).myCore.turnOf = s.myCore.turnOf := by rw [State.myCore_modMe]
  have hcrew : (s.modMe (Strand.counted s.cycle)).myCore.crewAt sid.pos = s.myCore.crewAt sid.pos := by
    rw [State.myCore_modMe]
    rfl
  have hother : (s.modMe (Strand.counted s.cycle)).strand sid = s.strand sid := s.strand_modStrand_ne _ _ _ h.symm
  have hissuer : some s.cur.pos ≠ some sid.pos ↔ sid.pos ≠ s.cur.pos := by rw [Ne, Option.some_inj, eq_comm]
  rw [hother, hturn, hcrew] at hend
  exact hend.trans (if_congr (by simp only [State.modMe_cur, hissuer]) rfl rfl)

@[simp] theorem State.owned_countIssue (s : State) (i : Nat) (o : Owner) : s.countIssue.owned i o = s.owned i o := by
  unfold State.owned
  rw [State.core_countIssue_eq]
  cases o <;> rfl

/-- An instruction that issues and changes its own strand leaves all else alone, but for the LENT of the turn's owner. -/
theorem State.afterIssue_modMe (s : State) (f : Strand → Strand) : AfterIssue s (s.countIssue.modMe f) := by
  have own := s.countIssue.onlyMe_modMe f
  exact {
    strands := fun sid h => (own.strands sid h).trans (s.strand_countIssue_ne sid h)
    crews := fun c o => (own.crews c o).trans (s.owned_countIssue c o)
    mem := fun _ => rfl
    host := fun _ => rfl
    slots := fun c a => (own.slots c a).trans (by rw [State.core_countIssue_eq])
    empty := fun c => (own.empty c).trans (by rw [State.core_countIssue_eq])
    keys := fun c => (own.keys c).trans (by rw [State.core_countIssue_eq])
    acs := fun c => (own.acs c).trans (by rw [State.core_countIssue_eq])
    pending := rfl
    reqs := rfl
    jobs := rfl
    dies := rfl
    cur := rfl
    cycle := rfl }

/-! ### Rules: the next address, and an annulled instruction -/

/-- The loop-back test of the model is that of R108 as the statements say it. -/
theorem loopBack_eq (ls : List Loop) (a : Word) : loopBack ls a = loopedBack ls a := by
  induction ls with
  | nil => rfl
  | cons l ls ih =>
    unfold loopBack loopedBack
    by_cases ha : a = l.stop
    · by_cases hc : 1 < l.count.toNat
      · rw [if_pos ha, if_pos hc, if_neg (not_not.2 ha), if_neg (by omega)]
      · rw [if_pos ha, if_neg hc, if_neg (not_not.2 ha), if_pos (by omega), ih]
    · rw [if_neg ha, if_pos ha]

theorem Strand.goNext_eq (st : Strand) (a : Word) :
    st.goNext a = { st with loops := (loopedBack st.loops a).1, pc := (loopedBack st.loops a).2 } := by
  rw [Strand.goNext, loopBack_eq]

/-- The search goes on without touching any strand but for LENT (R88, R114). -/
theorem State.strand_nextCandidate (s : State) (sid : SId) :
    ∃ n, s.nextCandidate.strand sid = { s.strand sid with lent := n } := by
  cases h : s.rest with
  | cons q qs => exact ⟨(s.strand sid).lent, by rw [State.nextCandidate, h]; rfl⟩
  | nil =>
    have hend := s.strand_modMyCore_endTurn none sid
    rw [State.nextCandidate, h]
    split at hend
    · exact ⟨_, hend⟩
    · exact ⟨_, hend⟩

@[simp] theorem State.nextCandidate_pending (s : State) : s.nextCandidate.pending = s.pending := by
  unfold State.nextCandidate
  split <;> rfl

@[simp] theorem State.nextCandidate_mem (s : State) : s.nextCandidate.mem = s.mem := by
  unfold State.nextCandidate
  split <;> rfl

@[simp] theorem State.annulOne_pending (s : State) (n : Nat) : (s.annulOne n).pending = s.pending := State.nextCandidate_pending _

@[simp] theorem State.annulOne_mem (s : State) (n : Nat) : (s.annulOne n).mem = s.mem := State.nextCandidate_mem _

/-- The strand whose next instruction of `n` words is annulled (R92). -/
def Strand.annulled (cycle n : Nat) (st : Strand) : Strand :=
  { st with
    annul := st.annul - 1, last := some cycle, wait := none
    loops := (loopedBack st.loops (st.next n)).1, pc := (loopedBack st.loops (st.next n)).2 }

theorem State.annulOne_eq (s : State) (n : Nat) : s.annulOne n = (s.modMe (Strand.annulled s.cycle n)).nextCandidate := by
  simp only [State.annulOne, Strand.goNext_eq]
  rfl

/-- An annulled instruction takes one annulment, starts the interval and goes to the next address; of its strand it changes nothing else but LENT (R92). -/
theorem State.strand_annulOne (s : State) (n : Nat) (h : s.cur.pos < 17) :
    ∃ k, (s.annulOne n).strand s.cur = { s.me.annulled s.cycle n with lent := k } := by
  obtain ⟨k, hk⟩ := (s.modMe (Strand.annulled s.cycle n)).strand_nextCandidate s.cur
  rw [show (s.modMe (Strand.annulled s.cycle n)).strand s.cur = s.me.annulled s.cycle n from s.me_modMe _ h] at hk
  exact ⟨k, by rw [State.annulOne_eq, hk]⟩

/-! ### MIX is made of bijections (R102) -/

/-- One step of MIX: a word with its own upper bits folded in. -/
def xorShift {w : Nat} (k : Nat) (x : BitVec w) : BitVec w := x ^^^ (x >>> k)

/-- Folding in the bits above k is undone by folding in those above k and above 2k, once 3k is past the width. -/
theorem xorShift_bijective {w : Nat} (k : Nat) (hk : w ≤ 3 * k) : Function.Bijective (xorShift k : BitVec w → BitVec w) := by
  have gone : ∀ x : BitVec w, x >>> k >>> k >>> k = 0#w := fun x => by
    rw [← BitVec.shiftRight_add, ← BitVec.shiftRight_add]
    exact BitVec.ushiftRight_eq_zero (by omega)
  refine Function.bijective_iff_has_inverse.2 ⟨fun x => x ^^^ (x >>> k) ^^^ (x >>> k >>> k), fun x => ?_, fun x => ?_⟩ <;>
    · simp only [xorShift, BitVec.ushiftRight_xor_distrib, gone]
      ext i hi
      simp

/-- Multiplication by a number that has an inverse is a bijection. -/
theorem mul_bijective {w : Nat} (c d : BitVec w) (h : c * d = 1#w) : Function.Bijective fun x : BitVec w => x * c := by
  refine Function.bijective_iff_has_inverse.2 ⟨fun x => x * d, fun x => ?_, fun x => ?_⟩
  · simp only [BitVec.mul_assoc, h, BitVec.mul_one]
  · simp only [BitVec.mul_assoc, BitVec.mul_comm d c, h, BitVec.mul_one]

theorem xor_left_bijective {w : Nat} (c : BitVec w) : Function.Bijective fun x : BitVec w => c ^^^ x :=
  Function.Involutive.bijective fun x => by simp

theorem xor_right_bijective {w : Nat} (c : BitVec w) : Function.Bijective fun x : BitVec w => x ^^^ c :=
  Function.Involutive.bijective fun x => by simp

/-- Wrap of the exact product is the product of words (R61, R99). -/
theorem productOf_eq (x y : Word) : productOf x y = x * y := by
  rw [productOf, wrapped, ← Nat.cast_mul, BitVec.ofInt_natCast, BitVec.ofNat_mul, BitVec.ofNat_toNat, BitVec.ofNat_toNat,
    BitVec.setWidth_eq, BitVec.setWidth_eq]

/-- The quotient by a power of two is the shift to the right (R99). -/
theorem rightOf_eq (x y : Word) : rightOf x y = x >>> (y.toNat % 64) := by
  rw [rightOf, wrapped]
  have hdiv : ((x.toNat : Int) / 2 ^ (y.toNat % 64)) = ((x.toNat >>> (y.toNat % 64) : Nat) : Int) := by
    rw [Nat.shiftRight_eq_div_pow]
    push_cast
    rfl
  rw [hdiv, BitVec.ofInt_natCast, ← BitVec.toNat_ushiftRight, BitVec.ofNat_toNat, BitVec.setWidth_eq]

theorem mixOf_eq (x y : Word) : mixOf x y = mixedOf x y := by
  simp [mixOf, mixedOf, productOf_eq, rightOf_eq]

/-- What MIX does once its operands are mixed together. -/
def stirred (x : Word) : Word := xorShift 29 (xorShift 31 x * 0x6B1ED4A937F28C53#64)

theorem stirred_bijective : Function.Bijective stirred :=
  (xorShift_bijective 29 (by decide)).comp ((mul_bijective _ 0x69F9547F82AF97DB#64 (by decide)).comp (xorShift_bijective 31 (by decide)))

theorem mixedOf_eq_stirred (x y : Word) : mixedOf x y = stirred (x * 0x9D3A61F5C28B0E47#64 ^^^ y) := (mixOf_eq x y).symm

/-- For a fixed x, MIX is a bijection of y (R102). -/
theorem mixedOf_bijective_right (x : Word) : Function.Bijective (mixedOf x) := by
  rw [funext (mixedOf_eq_stirred x)]
  exact stirred_bijective.comp (xor_left_bijective _)

/-- For a fixed y, MIX is a bijection of x (R102). -/
theorem mixedOf_bijective_left (y : Word) : Function.Bijective fun x => mixedOf x y := by
  simp only [mixedOf_eq_stirred]
  exact stirred_bijective.comp ((xor_right_bijective y).comp (mul_bijective _ 0x17D67D39015E3B77#64 (by decide)))

theorem exec_mix (f : RF) (s : State) : exec (.mix f) s = .next (regReg mixOf f s) := rfl

/-- A form of two registers whose operands are ready writes its value and goes on (R61, R62). -/
theorem regReg_ready (g : Word → Word → Word) (f : RF) (s : State) (h : s.canIssue [.s f.a f.ta, .s f.b f.tb] [.s f.d false]) :
    regReg g f s = done s [.s f.a f.ta, .s f.b f.tb] f.d (g (s.sval f.a) (s.sval f.b)) 1 :=
  s.issue_go 0 _ _ noTrap _ h rfl

/-! ### YIELD (R95) -/

/-- The state after a YIELD: it has issued, and its end is to come in the 17th cycle from now (R95). -/
def State.yielded (s : State) : State := (s.countIssue.modMe fun st => { st with yielding := true }).post 16 (.yieldEnd s.cur)

theorem exec_yield (s : State) : exec .yield s = .next s.yielded := rfl

/-- The end of a YIELD of the running strand. -/
theorem exec_yieldEnd (s : State) : exec (.yieldEnd s.cur) s =
    .next (s.modMe fun st => if st.yielding then { st with yielding := false }.goNext (st.next 1) else st) := rfl

theorem State.me_yielded (s : State) (h : s.cur.pos < 17) :
    s.yielded.me = { s.me with issued := s.me.issued + 1, last := some s.cycle, wait := none, yielding := true } := by
  have hme := s.countIssue.me_modMe (fun st => { st with yielding := true }) h
  rw [s.me_countIssue h] at hme
  exact hme

/-- A strand that yields is not eligible (R87, R95). -/
theorem State.eligible_of_yielding (s : State) (sid : SId) (h : (s.strand sid).yielding = true) : s.eligible sid = false := by
  simp [State.eligible, h]

/-! ### LBRK (R109) -/

theorem exec_lbrk_of_nil (s : State) (h : s.me.loops = []) : exec .lbrk s = .next (s.trapAt 0x0A 0 s.me.pc) := by
  show execLbrk s = _
  unfold execLbrk
  rw [h]
  rfl

theorem exec_lbrk_of_cons (s : State) (l : Loop) (ls : List Loop) (h : s.me.loops = l :: ls) :
    exec .lbrk s = .next (s.countIssue.modMe fun st =>
      { st with loops := (loopedBack ls l.stop).1, pc := (loopedBack ls l.stop).2 }) := by
  show execLbrk s = _
  unfold execLbrk
  rw [h]
  simp only [Strand.goNext_eq]

end Sys2Proof.Machine

namespace Sys2Proof.Proofs

open Sys2Proof.Machine Sys2Proof.Claims

/-! ### The statements -/

/-- Settles O2: MIX is xor, multiplication by odd numbers and shifts folded in, each of which can be undone. -/
theorem mixIsABijection : Obligations.MixIsABijection := by
  refine ⟨fun f s ready => ?_, mixedOf_bijective_right, mixedOf_bijective_left, by decide, fun f => ⟨fun hq => ?_, fun hq => ?_⟩, by decide⟩
  · rw [exec_mix, regReg_ready _ f s ready, mixOf_eq]
  · rw [decodeWords_mix, if_pos hq]
  · rw [decodeWords_mix, if_neg hq]

/-- Settles O8: the YIELD is an issue of the strand followed by its end's event, the end goes on at Next, and an annulment of it is one of any
instruction. -/
theorem yieldForSixteenCycles : Obligations.YieldForSixteenCycles := by
  refine ⟨fun s hpos => ?_, State.eligible_of_yielding, fun s hpos => ?_, decodeWords_eq_ok_iff_head rfl decodeWords_yield⟩
  · have frame := s.afterIssue_modMe fun st => { st with yielding := true }
    refine ⟨s.yielded, exec_yield s, s.me_yielded hpos, rfl, frame.strands, frame.crews, frame.mem, frame.host, frame.slots,
      _, exec_yieldEnd s.yielded, s.yielded.onlyMe_modMe _, ?_⟩
    rw [s.yielded.me_modMe _ hpos, s.me_yielded hpos, if_pos rfl, Strand.goNext_eq]
    rfl
  · obtain ⟨k, hk⟩ := s.strand_annulOne 1 hpos
    exact ⟨by rw [hk]; rfl, s.annulOne_pending 1, fun r => by rw [hk]; rfl, fun a => by rw [s.annulOne_mem 1]⟩

/-- Settles O7: by the innermost loop, or none; the model's loop-back test is that of R108. -/
theorem lbrkLeavesTheInnermostLoop : Obligations.LbrkLeavesTheInnermostLoop := by
  refine ⟨fun s => ?_, decodeWords_eq_ok_iff_head rfl decodeWords_lbrk⟩
  cases h : s.me.loops with
  | nil => exact exec_lbrk_of_nil s h
  | cons l ls => exact exec_lbrk_of_cons s l ls h

end Sys2Proof.Proofs
end
